-- ==== Sys2Proof/Word.lean ====
section
/-!
DEFINITION. Word.lean: the word and byte of the LB9 (R3, R5).
-/

namespace Sys2Proof

/-- A register of the block: 32 bits (R5). -/
abbrev Word := BitVec 32

/-- The smallest addressable unit of memory. -/
abbrev Byte := BitVec 8

end Sys2Proof
end

