-- ==== Sys2Proof/Syntax.lean ====
section
/-!
DEFINITION. Syntax.lean: the commands of the LB9 taken as a block, one constructor per row of
spec/opcode_table.json, and the types of their operands. A command that stands for a register write carries the
initiator and the fields written; a command that stands for a physical event carries what was observed.
-/

namespace Sys2Proof

/-- Who makes an access (R17 and the initiator code table of 03_buckles_transactions.md). -/
inductive Initiator where
  | app (n : Nat)
  | steward
  | caller (n : Nat)
  | reflex (n : Nat)
  | cinch
  | pcie
  | shauz
  /-- the Tensor Plane engines working for an op of ring n (R78) -/
  | tensor (ring : Nat)
  | ingress
  | quadrille
  | ssu
  /-- the time base with its triggers and captures -/
  | timebase
  | ethernet
  | tooling
  deriving DecidableEq, Repr

/-- What the error code of a memory found in one 64-bit word (R66, R75). -/
inductive ErrKind where
  | correctable
  | uncorrectable
  /-- Tier B: the parity check failed `n` times (1 to 3) before a read passed -/
  | retried (n : Nat)
  /-- Tier B: the fourth read failed -/
  | retryFailed
  deriving DecidableEq, Repr

/-- An error found in the 64-bit word at byte address `word`. -/
structure ErrFinding where
  word : Nat
  kind : ErrKind
  deriving DecidableEq, Repr

/-- LR/SC and AMO operations of RVA23. -/
inductive AtomicOp where
  | lr | sc | swap | add | xor | and | or | min | max | minu | maxu
  deriving DecidableEq, Repr

/-- What a store instruction does: it writes data, or it manages the cached line of its address (R51): the cache-block
management instructions of RVA23 are stores without data. -/
inductive StoreOp where
  | data | clean | flush | inval
  deriving DecidableEq, Repr

/-- Why a stack is throttled (R76). -/
inductive ThrottleCause where
  | temperature | current
  deriving DecidableEq, Repr

/-- The two stall counter banks (R90). -/
inductive StallBank where
  | lat | tng
  deriving DecidableEq, Repr

/-- A buckle signal (R96): a set or an add. `commit`: it is the commit of a transaction, or its DONE signal (R98). -/
structure Signal where
  who : Initiator
  isSet : Bool
  amount : Word
  commit : Bool
  deriving DecidableEq, Repr

/-- A CLK_TEN cycle of Latigo or of Tango as its stall bank sees it (R88): the requests that block progress, the oldest
first, each with the indices of the causes that apply to it. No request: no stall. -/
abbrev TenCycle := List (List Nat)

/-- A Shauz flit (R563): its fields but the CRC. -/
structure Flit where
  gen : Nat
  typ : Nat
  src : Nat
  dst : Nat
  dstEpoch : Nat
  seq : Nat
  ack : Nat
  nak : Bool
  e2e : Nat
  srcEpoch : Nat
  len : Nat
  op : Nat
  tag : Nat
  addr : Nat
  payload : List Byte
  deriving DecidableEq, Repr

/-- What a node adds to an enumeration walk (R568): its identifier, generation, the states of its ports, and its
number where it holds one. -/
structure WalkEntry where
  uid : Nat
  gen : Nat
  up0 : Bool
  up1 : Bool
  number : Option Nat
  deriving DecidableEq, Repr

/-- An assignment of an enumeration (R568): the numbers with the identifiers of their holders, in line order through
port 0 of node 0; whether the ends meet; the eight role epochs; the ring generation. -/
structure Assignment where
  line : List (Nat × Nat)
  ring : Bool
  epochs : List Nat
  gen : Nat
  deriving DecidableEq, Repr

/-- The instructions of the test access port (R668). -/
inductive TapInstr where
  | bypass | idcode | samplePreload | extest | clamp | highz | dtmcs | dmi
  deriving DecidableEq, Repr

/-- What reaches the test access port (R668): TRST_N with the level of JTAG_2PIN, an instruction shifted in, or a data
register shifted in. -/
inductive TapScan where
  | reset (jtag2Pin : Bool)
  | ir (instr : TapInstr)
  | dr (value : Nat)
  deriving DecidableEq, Repr

/-- What the engines find at a sample beat of a group beside the samples themselves (R459, R466, R467). -/
inductive SampleFinding where
  /-- the two datapaths of the group's engine differ, or its parity failed -/
  | engineFault
  /-- the same in the engine that shadows the group -/
  | shadowFault
  /-- the shadow's outputs or state updates differ from the active engine's -/
  | shadowDiffers
  /-- an uncorrectable error in the state or the Waltz words of this loop -/
  | memoryError (loop : Nat)
  deriving DecidableEq, Repr

/-- A register of a hart that the debug module reaches (R622). -/
inductive HartReg where
  | gpr (n : Nat) | fpr (n : Nat) | csr (n : Nat) | vec (n : Nat)
  deriving DecidableEq, Repr

/-- One access that the program buffer makes, in the order in which the hart makes it (R624). -/
inductive DebugAccess where
  | load (addr size : Nat)
  | store (addr size value : Nat)
  deriving DecidableEq, Repr

/-- The status of a PCIe completion (R650). -/
inductive CplStatus where
  | success | unsupported | abort | retry
  /-- the completion fails its checks -/
  | bad
  deriving DecidableEq, Repr

/-- A CAN FD frame (R662). -/
structure CanFrame where
  id : Nat
  extended : Bool
  fd : Bool
  data : List Byte
  deriving DecidableEq, Repr

/-- How an I²C transfer ends (R666). -/
inductive I2cEnd where
  | success | lostArbitration | busTimeout
  deriving DecidableEq, Repr


/-- The commands: one constructor per row of spec/opcode_table.json. -/
inductive Instr where
  /-- REGISTER_WRITE (R10) -/
  | registerWrite (who : Initiator) (addr : Nat) (value hwSet : Word)
  /-- RC_REGISTER_READ (R12) -/
  | rcRegisterRead (who : Initiator) (addr events : Nat)
  /-- PROCESSOR_LOAD (R67) -/
  | processorLoad (who : Initiator) (addr size : Nat) (found : List ErrFinding)
  /-- PROCESSOR_STORE (R65) -/
  | processorStore (who : Initiator) (op : StoreOp) (addr size value : Nat) (found : List ErrFinding)
  /-- LR_SC_AMO (R50) -/
  | lrScAmo (who : Initiator) (op : AtomicOp) (addr size value : Nat) (found : List ErrFinding)
  /-- FENCE_INSTRUCTION (R107) -/
  | fenceInstruction (who : Initiator) (pred succ : Nat)
  /-- CANTLE_SCRUB_PASS (R68) -/
  | cantleScrubPass (previousDone : Bool) (found : List ErrFinding)
  /-- TRB_SCRUB_PASS (R75) -/
  | trbScrubPass (found : List ErrFinding)
  /-- TRB_IMBALANCE_WINDOW_END (R73) -/
  | trbImbalanceWindowEnd (accesses : List (Nat × Nat))
  /-- STACK_THROTTLE (R76) -/
  | stackThrottle (stack : Nat) (cause : ThrottleCause) (on : Bool)
  /-- TRB_TRAINING_DONE (R74) -/
  | trbTrainingDone (passed : List Nat)
  /-- POCKET_COMMIT_GO (R60) -/
  | pocketCommitGo (who : Initiator)
  /-- IOM_SWAP_ROOT_HI_WRITE (R83) -/
  | iomSwapRootHiWrite (who : Initiator) (n : Nat) (value : Word) (oldWalks : Nat) (writeError : Bool)
  /-- IOM_SWAP_DONE (R84) -/
  | iomSwapDone (n : Nat)
  /-- IOTLB_WALK_COMPLETE (R81) -/
  | iotlbWalkComplete (dev pid iova : Nat) (isWrite : Bool) (old : Option Nat)
  /-- IOTINVAL_VMA (R77) -/
  | iotinvalVma (addr pscid : Option Nat)
  /-- IOTINVAL_GVMA (R77) -/
  | iotinvalGvma (addr gscid : Option Nat)
  /-- IODIR_INVAL_DDT (R77) -/
  | iodirInvalDdt (dev : Option Nat)
  /-- IODIR_INVAL_PDT (R77) -/
  | iodirInvalPdt (dev pid : Nat)
  /-- IOFENCE_C (R77) -/
  | iofenceC (store : Option (Nat × Word))
  /-- STALL_COUNTER_CLEAR (R90) -/
  | stallCounterClear (who : Initiator) (bank : StallBank)
  /-- BUCKLE_SET (R98) -/
  | buckleSet (who : Initiator) (b : Nat) (value : Word) (others : List Signal)
  /-- BUCKLE_ADD (R98) -/
  | buckleAdd (who : Initiator) (b : Nat) (amount : Word) (others : List Signal)
  /-- WAIT_ARM (R103) -/
  | waitArm (who : Initiator) (block slot buckle : Nat) (equal : Bool)
  /-- WAIT_DISARM (R104) -/
  | waitDisarm (who : Initiator) (block slot buckle : Nat) (equal : Bool)
  /-- WAIT_TARGET_WRITE (R104) -/
  | waitTargetWrite (who : Initiator) (block slot : Nat) (value : Word)
  /-- TXN_OPEN (R110) -/
  | txnOpen (who : Initiator) (n : Nat)
  /-- TXN_ARM (R110) -/
  | txnArm (who : Initiator) (n : Nat) (timestamp sameCycle : Bool)
  /-- TXN_ABORT (R110) -/
  | txnAbort (who : Initiator) (n : Nat)
  /-- TXN_RELEASE (R110) -/
  | txnRelease (who : Initiator) (n : Nat)
  /-- TXN_STAGE_PUSH (R112) -/
  | txnStagePush (who : Initiator) (n : Nat)
  /-- TXN_COMMIT_BEAT (R117) -/
  | txnCommitBeat
  /-- TXN_MEMORY_ENTRY_WRITE (R118) -/
  | txnMemoryEntryWrite
  /-- TXN_TIMEOUT (R126) -/
  | txnTimeout (n : Nat)
  /-- TXN_SNAP_GO (R128) -/
  | txnSnapGo (who : Initiator) (slots : Nat)
  /-- SNAPSHOT_LATCH (R128) -/
  | snapshotLatch
  /-- SNAPSHOT_COMPLETE (R129) -/
  | snapshotComplete (slot : Nat)
  /-- OPERAND_UNCORRECTABLE (R197) -/
  | operandUncorrectable (parity : Bool)
  /-- TILE_K_PASS_END (R175) -/
  | tileKPassEnd (operandWait drainWait : Nat)
  /-- TILE_DRAIN_END (R177) -/
  | tileDrainEnd (corrupt : List (Nat × Nat × Nat))
  /-- HIDE_DISABLE (R199) -/
  | hideDisable (who : Initiator)
  /-- HIDE_ENABLE (R200) -/
  | hideEnable (who : Initiator)
  /-- HID_CYC_CLEAR (R184) -/
  | hidCycClear (who : Initiator)
  /-- WINDOW_FILL (R205) -/
  | windowFill (n : Nat)
  /-- WINDOW_SLOT_FREE (R206) -/
  | windowSlotFree (n : Nat)
  /-- LAT_WIN_CFG_WRITE (R213) -/
  | latWinCfgWrite (who : Initiator) (n : Nat) (base : Bool) (value : Word)
  /-- LAT_WIN_RATE_WRITE (R213) -/
  | latWinRateWrite (who : Initiator) (n : Nat) (value : Word)
  /-- LATIGO_DISABLE (R238) -/
  | latigoDisable (who : Initiator)
  /-- LATIGO_ENABLE (R238) -/
  | latigoEnable (who : Initiator)
  /-- RING_TAIL_WRITE (R241) -/
  | ringTailWrite (who : Initiator) (ring : Nat) (value : Word)
  /-- RING_HEAD_WRITE (R273) -/
  | ringHeadWrite (who : Initiator) (ring : Nat) (value : Word)
  /-- RING_CFG_WRITE (R280) -/
  | ringCfgWrite (who : Initiator) (ring : Nat) (value : Word)
  /-- RING_ENABLE (R272) -/
  | ringEnable (who : Initiator) (ring : Nat)
  /-- RING_DISABLE (R271) -/
  | ringDisable (who : Initiator) (ring : Nat)
  /-- RING_RESUME (R262) -/
  | ringResume (who : Initiator) (ring : Nat)
  /-- RING_STOP (R271) -/
  | ringStop (who : Initiator) (ring : Nat)
  /-- RING_STOPPED (R269) -/
  | ringStopped (ring : Nat)
  /-- DESCRIPTOR_READ (R263) -/
  | descriptorRead (ring : Nat)
  /-- REJECTED_OP_END (R264) -/
  | rejectedOpEnd (ring : Nat)
  /-- TENSOR_CLOCK_CHANGE (R41) -/
  | tensorClockChange
  /-- POWER_THROTTLE_START (R43) -/
  | powerThrottleStart
  /-- MATMUL (R163) -/
  | matmul (ring : Nat)
  /-- CONV (R319) -/
  | conv (ring : Nat)
  /-- GOLDEN (R279) -/
  | golden
  /-- ATTN_SCORE (R294) -/
  | attnScore (ring : Nat)
  /-- ATTN_VALUE (R303) -/
  | attnValue (ring : Nat)
  /-- ATTN_MERGE (R307) -/
  | attnMerge (ring : Nat)
  /-- ATTN_BWD (R310) -/
  | attnBwd (ring : Nat)
  /-- REEL_SCAN (R358) -/
  | reelScan (ring : Nat)
  /-- ELTWISE (R348) -/
  | eltwise (ring : Nat)
  /-- CROP_RESIZE (R329) -/
  | cropResize (ring : Nat)
  /-- FETCH (R233) -/
  | fetch (ring : Nat)
  /-- NOP (R261) -/
  | nop (ring : Nat)
  /-- FENCE (R261) -/
  | fence (ring : Nat)
  /-- OP_END (R266) -/
  | opEnd (outputWait cycles : Nat) (lat tng : List TenCycle)
  /-- OP_OVERRUN (R250) -/
  | opOverrun (cycles : Nat)
  /-- GOLDEN_LATEST_EXPIRY (R277) -/
  | goldenLatestExpiry
  /-- GOLDEN_RUN_INSERT (R277) -/
  | goldenRunInsert
  /-- TANGO_DISABLE (R316) -/
  | tangoDisable (who : Initiator)
  /-- TANGO_ENABLE (R316) -/
  | tangoEnable (who : Initiator)
  /-- VISION_DISABLE (R338) -/
  | visionDisable (who : Initiator)
  /-- VISION_ENABLE (R338) -/
  | visionEnable (who : Initiator)
  /-- STREAM_CFG_WRITE (R355) -/
  | streamCfgWrite (who : Initiator) (i : Nat) (addr : Bool) (value : Word)
  /-- STREAM_RESET (R356) -/
  | streamReset (who : Initiator) (i : Nat)
  /-- REEL_DISABLE (R366) -/
  | reelDisable (who : Initiator)
  /-- REEL_ENABLE (R366) -/
  | reelEnable (who : Initiator)
  /-- TIME_RATE_WRITE (R380) -/
  | timeRateWrite (who : Initiator) (value : Word)
  /-- TIME_STEP_SET (R382) -/
  | timeStepSet (who : Initiator)
  /-- TIME_STEP_ADD (R382) -/
  | timeStepAdd (who : Initiator)
  /-- TIME_STEP_SUBTRACT (R382) -/
  | timeStepSubtract (who : Initiator)
  /-- TIME_STEP_APPLY (R700) -/
  | timeStepApply
  /-- EVT_LOCK_LOSS (R384) -/
  | evtLockLoss (reference : Bool)
  /-- EVT_LOCK_REGAIN (R384) -/
  | evtLockRegain
  /-- PPS_OUT_PULSE (R386) -/
  | ppsOutPulse
  /-- PPS_OUT_PULSE_END (R386) -/
  | ppsOutPulseEnd
  /-- PPS_IN_EDGE (R386) -/
  | ppsInEdge (falling : Bool) (after : Nat)
  /-- TRIGGER_ARM_SINGLE (R390) -/
  | triggerArmSingle (who : Initiator) (n : Nat) (cfg : Word)
  /-- TRIGGER_ARM_PERIODIC (R392) -/
  | triggerArmPeriodic (who : Initiator) (n : Nat) (cfg : Word)
  /-- TRIGGER_ARM_SET (R390) -/
  | triggerArmSet (who : Initiator) (n : Nat) (cfg : Word)
  /-- TRIGGER_ARM_CLEAR (R390) -/
  | triggerArmClear (who : Initiator) (n : Nat) (cfg : Word)
  /-- TRIGGER_DISARM (R390) -/
  | triggerDisarm (who : Initiator) (n : Nat) (cfg : Word)
  /-- TRIGGER_TARGET_WRITE (R703) -/
  | triggerTargetWrite (who : Initiator) (n : Nat) (value : Word)
  /-- TRIGGER_MATCH (R390) -/
  | triggerMatch (n : Nat)
  /-- TRIGGER_PULSE_END (R391) -/
  | triggerPulseEnd (n : Nat)
  /-- CAPTURE_EDGE (R395) -/
  | captureEdge (n : Nat) (falling : Bool) (after : Nat)
  /-- CAPTURE_ENQUEUE (R397) -/
  | captureEnqueue (n : Nat)
  /-- CAPTURE_POP (R395) -/
  | capturePop (who : Initiator) (n : Nat)
  /-- CSI2_FRAME_START (R398) -/
  | csi2FrameStart (port vc : Nat)
  /-- CSI2_LINE (R403) -/
  | csi2Line (port vc dt : Nat) (payload : List Byte) (crcOk headerOk : Bool)
  /-- CSI2_FRAME_END (R398) -/
  | csi2FrameEnd (port vc : Nat)
  /-- CAMERA_TIMEOUT_EXPIRY (R403) -/
  | cameraTimeoutExpiry (n : Nat)
  /-- ETH_STREAM_PACKET (R398) -/
  | ethStreamPacket (port kind value : Nat) (sec ns : Nat) (payload : List Byte)
  /-- ETH_GAP_EXPIRY (R403) -/
  | ethGapExpiry (n : Nat)
  /-- AUDIO_SAMPLE (R398) -/
  | audioSample (source bits time : Nat) (rate48 : Bool) (slots : List Nat)
  /-- TDM_FSYNC_LOSS (R403) -/
  | tdmFsyncLoss (port : Nat)
  /-- SPI_STREAM_READ_DONE (R398) -/
  | spiStreamReadDone (n csTime : Nat) (data : List Byte)
  /-- FRAME_CONDITION_START (R410) -/
  | frameConditionStart
  /-- FRAME_DELIVER (R401) -/
  | frameDeliver (n : Nat)
  /-- ING_RELEASE_WRITE (R400) -/
  | ingReleaseWrite (who : Initiator) (n : Nat) (value : Word)
  /-- STREAM_ENABLE (R398) -/
  | streamEnable (who : Initiator) (n : Nat) (cfg : Word)
  /-- STREAM_DISABLE (R405) -/
  | streamDisable (who : Initiator) (n : Nat) (cfg : Word)
  /-- INGRESS_DISABLE (R405) -/
  | ingressDisable (who : Initiator)
  /-- QDR_RING_TAIL_WRITE (R412) -/
  | qdrRingTailWrite (who : Initiator) (value : Word)
  /-- QDR_JOB_NOP (R413) -/
  | qdrJobNop
  /-- PROJECT (R420) -/
  | project
  /-- GRID_CLEAR (R428) -/
  | gridClear
  /-- RANGE_VOTE (R425) -/
  | rangeVote
  /-- ASSOCIATE (R432) -/
  | associate
  /-- PREDICT (R434) -/
  | predict
  /-- PUBLISH (R436) -/
  | publish
  /-- QDR_JOB_END (R413) -/
  | qdrJobEnd
  /-- QDR_RESUME (R414) -/
  | qdrResume (who : Initiator) (value : Word)
  /-- QDR_TRACK_CLEAR (R435) -/
  | qdrTrackClear (who : Initiator) (value : Word)
  /-- QDR_DISABLE (R440) -/
  | qdrDisable (who : Initiator) (value : Word)
  /-- QDR_ENABLE (R440) -/
  | qdrEnable (who : Initiator) (value : Word)
  /-- QDR_PUB_RELEASE_WRITE (R436) -/
  | qdrPubReleaseWrite (who : Initiator) (value : Word)
  /-- QDR_CONFIG_WRITE (R437) -/
  | qdrConfigWrite (who : Initiator) (offset : Nat) (value : Word)
  /-- LOOP_SAMPLE (R453) -/
  | loopSample (group : Nat) (findings : List SampleFinding)
  /-- LOOP_OUTPUT_APPLY (R447) -/
  | loopOutputApply (loop : Nat)
  /-- LOOP_ENABLE (R464) -/
  | loopEnable (who : Initiator) (loop : Nat) (cfg : Word)
  /-- LOOP_DISABLE (R463) -/
  | loopDisable (who : Initiator) (loop : Nat) (cfg : Word)
  /-- LOOP_RESTART (R464) -/
  | loopRestart (who : Initiator) (loop : Nat)
  /-- LOOP_SAFE (R459) -/
  | loopSafe (who : Initiator) (loop : Nat)
  /-- LOOP_OFF_ENTER (R463) -/
  | loopOffEnter (loop : Nat)
  /-- LOOP_CFG_WRITE (R456) -/
  | loopCfgWrite (who : Initiator) (loop : Nat) (offset : Nat) (value : Word)
  /-- TRAJ_START_HI_WRITE (R449) -/
  | trajStartHiWrite (who : Initiator) (loop : Nat) (value : Word)
  /-- WALTZ_IDX_WRITE (R454) -/
  | waltzIdxWrite (who : Initiator) (loop : Nat) (value : Word)
  /-- WALTZ_BASE_WRITE (R454) -/
  | waltzBaseWrite (who : Initiator) (loop : Nat) (value : Word)
  /-- SHADOW_START (R467) -/
  | shadowStart (who : Initiator) (engine : Nat) (value : Word)
  /-- SHADOW_STOP (R467) -/
  | shadowStop (who : Initiator) (engine : Nat) (value : Word)
  /-- ENGINE_DISABLE (R470) -/
  | engineDisable (who : Initiator) (engine : Nat) (value : Word)
  /-- ENGINE_ENABLE (R470) -/
  | engineEnable (who : Initiator) (engine : Nat) (value : Word)
  /-- HANDOVER_GO (R468) -/
  | handoverGo (who : Initiator) (value : Word)
  /-- HANDOVER_APPLY (R469) -/
  | handoverApply
  /-- ENCODER_STATE_CHANGE (R475) -/
  | encoderStateChange (encoder : Nat) (a b z : Bool)
  /-- ENCODER_INDEX (R478) -/
  | encoderIndex (encoder : Nat)
  /-- ABS_FRAME_START (R481) -/
  | absFrameStart (input : Nat) (lineHigh : Bool)
  /-- ABS_FRAME_END (R482) -/
  | absFrameEnd (input : Nat) (code : Nat) (errorBit parityOk : Bool)
  /-- PWM_PERIOD_START (R485) -/
  | pwmPeriodStart (pair : Nat)
  /-- LIMIT_RAW_CHANGE (R488) -/
  | limitRawChange (input : Nat) (level : Bool)
  /-- LIMIT_DEBOUNCE_EXPIRY (R488) -/
  | limitDebounceExpiry
  /-- CHATTER_WINDOW_START (R489) -/
  | chatterWindowStart
  /-- AXIS_CAUSE_CLEAR (R474) -/
  | axisCauseClear (who : Initiator) (axis : Nat) (value : Word)
  /-- HOME_GO (R491) -/
  | homeGo (who : Initiator) (value : Word)
  /-- HOME_ABORT (R496) -/
  | homeAbort (who : Initiator) (value : Word)
  /-- MOTION_IO_DISABLE (R499) -/
  | motionIoDisable (who : Initiator) (value : Word)
  /-- MOTION_IO_ENABLE (R499) -/
  | motionIoEnable (who : Initiator) (value : Word)
  /-- UART_RX_FRAME (R497) -/
  | uartRxFrame (uart : Nat) (byte : Byte) (framing parityBad : Bool) (falseStarts : Nat)
  /-- UART_RX_POP (R497) -/
  | uartRxPop (who : Initiator) (uart : Nat)
  /-- UART_TX_WRITE (R497) -/
  | uartTxWrite (who : Initiator) (uart : Nat) (byte : Byte)
  /-- UART_TX_FRAME_DONE (R497) -/
  | uartTxFrameDone (uart : Nat)
  /-- SSU_GO (R501) -/
  | ssuGo (who : Initiator) (problem : Nat) (value : Word)
  /-- SSU_COLD (R510) -/
  | ssuCold (who : Initiator) (problem : Nat) (value : Word)
  /-- SSU_SOLVE_START (R503) -/
  | ssuSolveStart
  /-- SSU_DEADLINE_EXPIRY (R512) -/
  | ssuDeadlineExpiry (iterations : Nat) (cycles : Word)
  /-- SSU_SOLVE_END (R511) -/
  | ssuSolveEnd (cycles : Word) (errorAt : Option Nat)
  /-- SSU_DISABLE (R515) -/
  | ssuDisable (who : Initiator) (value : Word)
  /-- SSU_ENABLE (R515) -/
  | ssuEnable (who : Initiator) (value : Word)
  /-- CIN_RUN (R524) -/
  | cinRun (who : Initiator) (value : Word)
  /-- CIN_STOP (R527) -/
  | cinStop (who : Initiator) (value : Word)
  /-- CIN_REARM (R526) -/
  | cinRearm (who : Initiator) (value : Word)
  /-- CIN_FW_FAULT (R528) -/
  | cinFwFault (who : Initiator) (value : Word)
  /-- CIN_STOP_REQ (R527) -/
  | cinStopReq (who : Initiator) (value : Word)
  /-- CIN_RUN_REQ (R559) -/
  | cinRunReq (who : Initiator) (value : Word)
  /-- CORE_HOLD_WRITE (R527) -/
  | coreHoldWrite (who : Initiator) (value : Word)
  /-- RESTART_EDGE (R524) -/
  | restartEdge
  /-- CINCH_RUN_ENTRY (R524) -/
  | cinchRunEntry
  /-- REARM_EXPIRY (R526) -/
  | rearmExpiry
  /-- LOCKSTEP_MISMATCH (R518) -/
  | lockstepMismatch
  /-- CIN_ECC_ERROR (R520) -/
  | cinEccError
  /-- WDOG_KICK (R533) -/
  | wdogKick (who : Initiator) (key : Word)
  /-- WDOG_EXPIRY (R533) -/
  | wdogExpiry
  /-- BEAT_MONITOR_CHECK (R534) -/
  | beatMonitorCheck (advance : Nat)
  /-- VIN_MAIN_LOSS (R31) -/
  | vinMainLoss
  /-- OUTPUT_READBACK_MISMATCH (R523) -/
  | outputReadbackMismatch
  /-- CIN_CLOCK_DEVIATION (R528) -/
  | cinClockDeviation
  /-- CIN_DEMAND (R528) -/
  | cinDemand
  /-- SAFE_STATE_COMMAND (R461) -/
  | safeStateCommand
  /-- PWM_KILL_EXPIRY (R529) -/
  | pwmKillExpiry
  /-- CIN_VERDICT_WRITE (R540) -/
  | cinVerdictWrite (who : Initiator) (value : Word)
  /-- SEAL_UNSEAL (R538) -/
  | sealUnseal (who : Initiator) (r : Nat) (value : Word)
  /-- CIN_FRAME_START (R549) -/
  | cinFrameStart
  /-- FRAME_DEADLINE_CHECK (R551) -/
  | frameDeadlineCheck
  /-- GRID_CLOSE (R556) -/
  | gridClose
  /-- SHZ_IDLE (R563) -/
  | shzIdle (port : Nat) (f : Flit)
  /-- SHZ_WRITE (R575) -/
  | shzWrite (port : Nat) (f : Flit)
  /-- SHZ_READ (R575) -/
  | shzRead (port : Nat) (f : Flit)
  /-- SHZ_RDATA (R575) -/
  | shzRdata (port : Nat) (f : Flit)
  /-- SHZ_BKL (R575) -/
  | shzBkl (port : Nat) (f : Flit)
  /-- SHZ_E2E_ACK (R574) -/
  | shzE2eAck (port : Nat) (f : Flit)
  /-- SHZ_LINK_READY (R580) -/
  | shzLinkReady (port : Nat) (f : Flit)
  /-- SHZ_LINK_GO (R581) -/
  | shzLinkGo (port : Nat) (f : Flit)
  /-- SHZ_LINK_ABORT (R581) -/
  | shzLinkAbort (port : Nat) (f : Flit)
  /-- SHZ_LINK_ABORTED (R580) -/
  | shzLinkAborted (port : Nat) (f : Flit)
  /-- SHZ_TIME (R582) -/
  | shzTime (port : Nat) (f : Flit) (arrived : Nat) (reply : Option (Nat × Nat))
  /-- SHZ_ENUM_WALK (R568) -/
  | shzEnumWalk (port : Nat) (f : Flit) (walk : List WalkEntry) (back : Bool)
  /-- SHZ_ENUM_ASSIGN (R569) -/
  | shzEnumAssign (port : Nat) (f : Flit) (a : Assignment)
  /-- SHZ_BEACON (R585) -/
  | shzBeacon (port : Nat) (f : Flit) (down : List (Nat × Nat))
  /-- SHZ_LEAVE (R590) -/
  | shzLeave (port : Nat) (f : Flit)
  /-- SHZ_ERR (R575) -/
  | shzErr (port : Nat) (f : Flit)
  /-- SHZ_REPLAY_TIMEOUT (R566) -/
  | shzReplayTimeout (port : Nat)
  /-- SHZ_PORT_UP (R562) -/
  | shzPortUp (port width : Nat) (samePort : Bool)
  /-- SHZ_PORT_DOWN (R562) -/
  | shzPortDown (port : Nat) (lostLock : Bool)
  /-- SHZ_PORT_RETRAIN (R562) -/
  | shzPortRetrain (port : Nat)
  /-- SHZ_E2E_ACK_TIMER (R573) -/
  | shzE2eAckTimer (node : Nat)
  /-- SHZ_BEACON_SEND (R585) -/
  | shzBeaconSend
  /-- SHZ_ISOLATE_EXPIRY (R587) -/
  | shzIsolateExpiry
  /-- SHZ_TIME_EXCHANGE (R582) -/
  | shzTimeExchange (port sent : Nat)
  /-- SHZ_LINK_LEAD_EXPIRY (R580) -/
  | shzLinkLeadExpiry (slot : Nat)
  /-- SHZ_READ_TIMEOUT (R577) -/
  | shzReadTimeout (tag : Nat)
  /-- SHZ_ENUM (R568) -/
  | shzEnum (who : Initiator) (value : Word)
  /-- SHZ_CTRL_LEAVE (R590) -/
  | shzCtrlLeave (who : Initiator) (value : Word)
  /-- SHZ_DISABLE (R590) -/
  | shzDisable (who : Initiator) (value : Word)
  /-- SHZ_LEAVE_PORTS_DOWN (R590) -/
  | shzLeavePortsDown
  /-- POWER_ON_RESET (R679) -/
  | powerOnReset
  /-- RESET_N_ASSERT (R684) -/
  | resetNAssert
  /-- POWER_FAULT (R677) -/
  | powerFault (rail : Nat) (resetNLow : Bool)
  /-- REF_LOSS (R688) -/
  | refLoss
  /-- SYS_RESET_MAIN (R686) -/
  | sysResetMain (who : Initiator) (key : Nat)
  /-- MAIN_RESET_END (R683) -/
  | mainResetEnd (fuseError : Bool)
  /-- STEWARD_BOOT (R594) -/
  | stewardBoot (primaryError backupError : Bool)
  /-- STW_LOAD (R611) -/
  | stwLoad (who : Initiator) (cls index : Nat)
  /-- STW_ACTIVATE (R612) -/
  | stwActivate (who : Initiator) (cls index : Nat)
  /-- STW_SET_BOOT (R604) -/
  | stwSetBoot (who : Initiator) (cls : Nat)
  /-- STW_FLASH_ERASE (R621) -/
  | stwFlashErase (who : Initiator) (deviceError : Bool)
  /-- STW_FLASH_WRITE (R621) -/
  | stwFlashWrite (who : Initiator) (deviceError : Bool)
  /-- STW_FLASH_VERIFY (R621) -/
  | stwFlashVerify (who : Initiator) (deviceError : Bool)
  /-- STW_SELFTEST (R620) -/
  | stwSelftest (who : Initiator) (cls index : Nat)
  /-- STW_FUSE (R609) -/
  | stwFuse (who : Initiator)
  /-- STW_COMMAND_DONE (R614) -/
  | stwCommandDone (deviceError : Bool)
  /-- RFX_YIELD_WRITE (R612) -/
  | rfxYieldWrite (who : Initiator) (value : Word)
  /-- ACTIVATE_TIMEOUT (R612) -/
  | activateTimeout
  /-- FUSE_UNLOCK_WRITE (R609) -/
  | fuseUnlockWrite (who : Initiator) (key : Word)
  /-- POWER_CAP_SELECT (R42) -/
  | powerCapSelect (who : Initiator) (cap : Nat)
  /-- POWER_EXCURSION (R42) -/
  | powerExcursion
  /-- TEMP_SENSOR_UPDATE (R689) -/
  | tempSensorUpdate (readings : List Nat)
  /-- THERMAL_THROTTLE_STEP (R690) -/
  | thermalThrottleStep
  /-- THERMAL_TRIP (R691) -/
  | thermalTrip
  /-- DEBUG_HALT_REQUEST (R627) -/
  | debugHaltRequest (scans : List TapScan) (hart : Nat) (atReset : Option Bool)
  /-- DEBUG_RESUME_REQUEST (R622) -/
  | debugResumeRequest (scans : List TapScan) (hart : Nat)
  /-- DEBUG_ACCESS_REGISTER (R622) -/
  | debugAccessRegister (scans : List TapScan) (hart : Nat) (reg : HartReg) (write : Option Nat)
  /-- DEBUG_PROGBUF_EXEC (R624) -/
  | debugProgbufExec (scans : List TapScan) (hart : Nat) (accesses : List DebugAccess)
  /-- DEBUG_NDMRESET (R622) -/
  | debugNdmreset (scans : List TapScan)
  /-- TLG_AUTH_WRITE (R625) -/
  | tlgAuthWrite (who : Initiator) (value : Word)
  /-- ENGINE_HALT_WRITE (R628) -/
  | engineHaltWrite (who : Initiator) (value : Word)
  /-- OBP_FIRED_CLEAR (R630) -/
  | obpFiredClear (who : Initiator) (k : Nat)
  /-- TLG_CNT_SEL_WRITE (R633) -/
  | tlgCntSelWrite (who : Initiator) (c : Nat) (value : Word)
  /-- TLG_CNT_CLR (R633) -/
  | tlgCntClr (who : Initiator)
  /-- TLG_SAMPLE (R635) -/
  | tlgSample
  /-- PCIE_INBOUND_WRITE (R647) -/
  | pcieInboundWrite (port addr : Nat) (data : List Byte) (found : List ErrFinding)
  /-- PCIE_INBOUND_READ (R647) -/
  | pcieInboundRead (port addr size : Nat) (found : List ErrFinding)
  /-- PCIE_MSI_WRITE (R648) -/
  | pcieMsiWrite (port value : Nat)
  /-- PCIE_LINK_DOWN (R649) -/
  | pcieLinkDown (port posted : Nat)
  /-- PCIE_LINK_UP (R649) -/
  | pcieLinkUp (port speed width : Nat)
  /-- PCIE_COMPLETION (R650) -/
  | pcieCompletion (port tag : Nat) (status : CplStatus) (data : Nat)
  /-- PCIE_COMPLETION_TIMEOUT (R649) -/
  | pcieCompletionTimeout (port tag : Nat)
  /-- PCIE_ERROR_MESSAGE (R650) -/
  | pcieErrorMessage (port severity : Nat)
  /-- PCIE_RETRAIN (R644) -/
  | pcieRetrain (who : Initiator) (port : Nat) (value : Word)
  /-- PCIE_PERST_WRITE (R651) -/
  | pciePerstWrite (who : Initiator) (port : Nat) (value : Word)
  /-- ETH_FRAME_RECEIVE (R653) -/
  | ethFrameReceive (port : Nat) (frame : List Byte) (fcsOk : Bool) (sec ns : Nat)
  /-- ETH_QUEUE_TAIL_WRITE (R654) -/
  | ethQueueTailWrite (who : Initiator) (port : Nat) (transmit : Bool) (queue : Nat) (value : Word)
  /-- ETH_TX_FRAME_DONE (R654) -/
  | ethTxFrameDone (port queue sec ns : Nat) (discarded : Bool)
  /-- GCL_GO (R656) -/
  | gclGo (who : Initiator) (port : Nat) (value : Word)
  /-- GCL_SWAP (R656) -/
  | gclSwap (port : Nat)
  /-- GATE_TRANSITION (R656) -/
  | gateTransition (port : Nat)
  /-- CSI_NO_CLOCK (R659) -/
  | csiNoClock (port : Nat)
  /-- CAN_FRAME_RECEIVE (R662) -/
  | canFrameReceive (port : Nat) (frame : CanFrame) (time : Nat)
  /-- CAN_FRAME_TRANSMIT (R662) -/
  | canFrameTransmit (port : Nat) (requests : List CanFrame) (acked : Bool)
  /-- SPI_GO (R664) -/
  | spiGo (who : Initiator) (master : Nat) (value : Word)
  /-- SPI_TRANSFER_DONE (R663) -/
  | spiTransferDone (master : Nat) (received : Word)
  /-- I2C_TRANSFER (R666) -/
  | i2cTransfer (controller : Nat) (result : I2cEnd) (data : List Byte)
  /-- I2C_RECOVER (R666) -/
  | i2cRecover (who : Initiator) (controller : Nat)
  /-- BEAT (R379) -/
  | beat (upsets : List ErrFinding) (lat tng : List TenCycle)
  /-- RAIL_BACK_IN_TOLERANCE (R526) -/
  | railBackInTolerance (rail : Nat)
  /-- CIN_DEMAND_RELEASE (R528) -/
  | cinDemandRelease
  /-- CIN_RUN_WINDOW_EXPIRY (R524) -/
  | cinRunWindowExpiry
  /-- ETH_LINK_CHANGE (R652) -/
  | ethLinkChange (port : Nat) (up : Bool)
  /-- SHZ_BAD_CRC_FLIT (R566) -/
  | shzBadCrcFlit (port : Nat) (bytes : List Byte)
  deriving DecidableEq, Repr

end Sys2Proof
end

