-- ==== Sys2Proof/Config.lean ====
section
/-!
DEFINITION. Config.lean: what the spec leaves open. Every constant here is opaque and has no body, so no proof can
rest on its value; each is named in the assumption log.
-/

namespace Sys2Proof.Config

/-- The k-th bit that the spec leaves open (log entry 4). -/
opaque freeBit : Nat → Bool

/-- The k-th number that the spec leaves open (log entry 4). -/
opaque freeNat : Nat → Nat

/-- The byte at an address whose contents the spec calls undefined, after the k-th loss of them (R63, R679: log entry
15). -/
opaque freeByte : Nat → Nat → BitVec 8

/-- The byte at an address of the boot ROM, whose contents the spec does not give (R44: log entry 2). -/
opaque romByte : Nat → BitVec 8

/-- Does the encoder count up when A changes ahead of B (R475 leaves the sign open). -/
opaque aLeadsUp : Bool

/-- The azimuth bin, of 1,024, of a direction from a sensor of Cinch's grid (R556 leaves the numbering and the
rounding open). -/
opaque azimuthBin : Int → Int → Nat

/-- A coordinate in whole millimetres as Q16.16 metres (R556 leaves the rounding open). -/
opaque mmToQ : Int → Int

/-- What the part's fixed function number `id` gives for an input code, before the bound that the spec states for it is
applied (R187, R296, R299, R305, R340: log entry 11). -/
opaque approx : Nat → Nat → Nat

/-- The byte at a flash offset that a failed erase or write left unknown, at its k-th draw (R621: log entry 8). -/
opaque flashByte : Nat → Nat → BitVec 8

/-- How many bytes the flash has above 64 MiB (R597 leaves its size open). -/
opaque flashBeyond : Nat

/-- The longest Stirrup engine image (R612 gives no size). -/
opaque stirrupImageMax : Nat

/-- The fuse that a fuse number of the FUSE command names, by its row in the table of fuses: 0 SECURE_BOOT, 1 and 2 the key
hashes, 3 KEY_REVOKE, 4 ROLLBACK, 5 DEBUG_LOCK, 6 UID; another number: none. The spec gives no numbers (log entry 24). -/
opaque fuseNamed : Nat → Nat

/-- The bits of a wide fuse that a fuse number and a value name (log entry 24). -/
opaque fuseShift : Nat → Nat → Nat

/-- What a register of a halted hart holds that the debugger has not written: by the stop, the hart and the register
(R622: the cores' execution is no part of the block; log entry 7). -/
opaque hartRegister : Nat → Nat → Nat → Nat

/-- The largest interrupt identity of a core's supervisor interrupt file (R648 does not give it). -/
opaque imsicIdentities : Nat

/-- The core, 0 to 11, whose supervisor interrupt file lies at an address of the IMSIC; another number: none (the spec gives no
addresses, R77: log entry 16). -/
opaque imsicCore : Nat → Nat

/-- Fields of ETH_Pn_FRERs_CFG, whose layout the spec does not give (R657, log entry 10): the VLAN ID, whether the entry
recovers and whether it generates, the REPLICATE mask, and the history length. -/
opaque frerVlan : Nat → Nat
opaque frerRecovers : Nat → Bool
opaque frerGenerates : Nat → Bool
opaque frerReplicate : Nat → Nat
opaque frerHistory : Nat → Nat

/-- Which receive FIFO an acceptance filter word of a CAN FD port gives a frame to, by identifier and whether it is an
extended one; none: it does not match (R662, layout not given: log entry 10). -/
opaque canFilter : Nat → Nat → Bool → Option Bool

/-- Does the condition of Cinch cause `c` still hold at beat `b`, for a cause whose end no command reports: the read-back
of an output (9) and the reference of CLK_CIN (10). The part's own (R526, log entry 28). -/
opaque stillHolds : Nat → Nat → Bool

/-- The 16 random bits of a stochastic conversion of an input: by the op's seed, the slot and the element's place in the
tensor (R152 lets ROUND = 1 round inputs; R156 gives the bits of outputs only: log entry 46). -/
opaque inputBits : Nat → Nat → Nat → Nat

/-- A block of 32 rows that differ in their scales, seen along the rows: the shared scale code, then the element codes, from the
format and the rows' scale and element codes (R310 gives no alignment for queries and dO: log entry 21). -/
opaque rowAlign : Nat → List (Nat × Nat) → List Nat

end Sys2Proof.Config
end

