-- ==== Sys2Proof/Machine/Sparse.lean ====
section
/-!
DEFINITION. Machine/Sparse.lean: sparse data by key, a list of (key, value) pairs in one canonical form
(keys strictly rising, no pair equal to what an unlisted key reads as).
-/

namespace Sys2Proof.Machine

/-- The value at key `a`; an unlisted key reads as `d a`. -/
def spGet {β : Type} (d : Nat → β) : List (Nat × β) → Nat → β
  | [], a => d a
  | (k, v) :: m, a => if k = a then v else spGet d m a

/-- Insert or replace at key `a`, keeping the keys in rising order. -/
def spPut {β : Type} : List (Nat × β) → Nat → β → List (Nat × β)
  | [], a, v => [(a, v)]
  | (k, w) :: m, a, v =>
    if a < k then (a, v) :: (k, w) :: m
    else if a = k then (a, v) :: m
    else (k, w) :: spPut m a v

/-- Remove every pair with key `a`. -/
def spDel {β : Type} (m : List (Nat × β)) (a : Nat) : List (Nat × β) :=
  m.filter (fun p => p.1 ≠ a)

/-- Write `v` at key `a`: writing what an unlisted key reads as removes the pair. -/
def spSet {β : Type} [DecidableEq β] (d : Nat → β) (m : List (Nat × β)) (a : Nat) (v : β) :
    List (Nat × β) :=
  match m with
  | [] => if v = d a then [] else [(a, v)]
  | p :: m => if v = d a then spDel (p :: m) a else spPut (p :: m) a v

/-- The canonical form. -/
def SpWf {β : Type} (d : Nat → β) (m : List (Nat × β)) : Prop :=
  m.Pairwise (fun p q => p.1 < q.1) ∧ ∀ p ∈ m, p.2 ≠ d p.1

end Sys2Proof.Machine
end

