-- ==== Sys2Proof/Machine/Bits.lean ====
section
/-!
DEFINITION. Machine/Bits.lean: bit fields of a register, sign extension and the comparison of wrapping
numbers (R93).
-/

namespace Sys2Proof.Machine

/-- The mask of bits [hi:lo] of a register. -/
def maskOf (hi lo : Nat) : Word :=
  BitVec.ofNat 32 ((2 ^ (hi + 1 - lo) - 1) * 2 ^ lo)

/-- Field [hi:lo] of a register, as a number. -/
def fieldOf (w : Word) (hi lo : Nat) : Nat :=
  w.toNat / 2 ^ lo % 2 ^ (hi + 1 - lo)

/-- A register with field [hi:lo] replaced by `v`; bits of `v` beyond the field are dropped. -/
def withField (w : Word) (hi lo v : Nat) : Word :=
  (w &&& ~~~ maskOf hi lo) ||| BitVec.ofNat 32 ((v % 2 ^ (hi + 1 - lo)) * 2 ^ lo)

/-- Bit `i` of a register. -/
def bitOf (w : Word) (i : Nat) : Bool := w.toNat.testBit i

/-- A number as a word, modulo 2^32. -/
def toWord (n : Nat) : Word := BitVec.ofNat 32 n

/-- An integer as a word, modulo 2^32. -/
def ofInt32 (n : Int) : Word := BitVec.ofInt 32 n

/-- The low `n` bits of `v`, read as two's complement. -/
def sext (n v : Nat) : Int :=
  let u := v % 2 ^ n
  if 2 ^ (n - 1) ≤ u then (u : Int) - (2 : Int) ^ n else u

/-- R93: `a` is at or after `b` when (a − b) mod 2^32 is below 2^31. -/
def atOrAfter (a b : Word) : Bool := (a - b).toNat < 2 ^ 31

/-- R93: `a` is after `b`. -/
def isAfter (a b : Word) : Bool := atOrAfter a b && a ≠ b

/-- 1 for true. -/
def b2n (b : Bool) : Nat := if b then 1 else 0

/-- An event counter that saturates at 0xFFFF_FFFF. -/
def satAdd (w : Word) (n : Nat) : Word := toWord (min (w.toNat + n) 0xFFFFFFFF)

/-- The little-endian number of a list of bytes (R3). -/
def bytesToNat : List Byte → Nat
  | [] => 0
  | b :: bs => b.toNat + 256 * bytesToNat bs

/-- The `n` little-endian bytes of a number (R3). -/
def natToBytes : Nat → Nat → List Byte
  | 0, _ => []
  | n + 1, v => BitVec.ofNat 8 v :: natToBytes n (v / 256)

/-- Field [hi:lo] of a number. -/
def bitsOf (v hi lo : Nat) : Nat := v / 2 ^ lo % 2 ^ (hi + 1 - lo)

/-- The largest e with 2^e at most `n` (0 for 0). -/
def log2 (n : Nat) : Nat := Nat.log2 n

/-- `n` divided by `d`, rounded up. -/
def ceilDiv (n d : Nat) : Nat := (n + d - 1) / d

end Sys2Proof.Machine
end

