-- ==== Sys2Proof/Machine/RegMap.lean ====
section
/-!
DEFINITION. Machine/RegMap.lean: the register map, written from the register lists and the field tables of
the spec's chapters: each register's address, its fields with their access types (R10) and reset values (R13).
A reset value of "config" or "fuse" stands as 0 (R13). Where a list gives a register no field table the whole
word is RW (log entry 10).
-/

namespace Sys2Proof.Machine

/-- Register access types (R10). -/
inductive Acc where
  | ro | rw | w1c | w1s | wo | rc
  /-- read-only with the reset value "config": the Steward's load path sets it (R605) -/
  | load
  deriving DecidableEq, Repr

/-- One field of a register: bits [hi:lo], its type and its reset value. -/
structure Fld where
  hi : Nat
  lo : Nat
  acc : Acc
  reset : Nat
  deriving DecidableEq, Repr

/-- A register, or an array of registers: `dims` gives (stride, count) from the outermost index inwards. -/
structure RegRow where
  name : String
  base : Nat
  dims : List (Nat × Nat)
  flds : List Fld
  deriving DecidableEq, Repr

/-- Is `off` the offset of a member of an array with these dimensions. -/
def inDims : List (Nat × Nat) → Nat → Bool
  | [], off => off == 0
  | (st, c) :: ds, off => off / st < c && inDims ds (off % st)

/-- Is `a` the address of this register or of a member of this array. -/
def RegRow.hits (r : RegRow) (a : Nat) : Bool :=
  Nat.ble r.base a && inDims r.dims (a - r.base)

/-- The reset value of the whole register. -/
def RegRow.resetWord (r : RegRow) : Word :=
  r.flds.foldl (fun w f => withField w f.hi f.lo f.reset) 0

/-- The bits of the register that have access type `k`. -/
def RegRow.maskFor (r : RegRow) (k : Acc) : Word :=
  r.flds.foldl (fun w f => if f.acc = k then w ||| maskOf f.hi f.lo else w) 0

namespace Reg

def sysStatus : Nat := 0x10000000
def sysIntEn : Nat := 0x10000004
def sysResetCause : Nat := 0x10000008
def sysReset : Nat := 0x1000000C
def sysRailStatus : Nat := 0x10000010
def sysPwrFaultCount : Nat := 0x10000014
def sysThermCfg : Nat := 0x10000018
def sysThermStatus : Nat := 0x1000001C
def sysTemp (i : Nat) : Nat := 0x10000020 + 0x4 * i
def sysAonDropCount : Nat := 0x10000074

def stwStatus : Nat := 0x10000100
def stwCmd : Nat := 0x10000104
def stwArg0 : Nat := 0x10000108
def stwArg1 : Nat := 0x1000010C
def stwPkgLo : Nat := 0x10000110
def stwPkgHi : Nat := 0x10000114
def stwCmdStatus : Nat := 0x10000118
def stwPower : Nat := 0x1000011C
def stwRfxYield : Nat := 0x10000120
def stwIntEn : Nat := 0x10000124

def bklVal (i j : Nat) : Nat := 0x10010000 + 0x10000 * i + 0x4 * j
def bklAdd (i j : Nat) : Nat := 0x10014000 + 0x10000 * i + 0x4 * j
def bklWaitCfg (i j : Nat) : Nat := 0x10018000 + 0x10000 * i + 0x10 * j
def bklWaitTarget (i j : Nat) : Nat := 0x10018004 + 0x10000 * i + 0x10 * j
def bklWaitStatus (i j : Nat) : Nat := 0x10018008 + 0x10000 * i + 0x10 * j
def bklFaultCount (i : Nat) : Nat := 0x1001C000 + 0x10000 * i

def txnGlobalStatus : Nat := 0x10050000
def txnCommitCount : Nat := 0x10050004
def txnAbortCount : Nat := 0x10050008
def txnSnapGo : Nat := 0x10050010
def txnSnapStatus : Nat := 0x10050014
def txnCtrl (i : Nat) : Nat := 0x10051000 + 0x40 * i
def txnStatus (i : Nat) : Nat := 0x10051004 + 0x40 * i
def txnAtLo (i : Nat) : Nat := 0x10051008 + 0x40 * i
def txnAtMid (i : Nat) : Nat := 0x1005100C + 0x40 * i
def txnAtHi (i : Nat) : Nat := 0x10051010 + 0x40 * i
def txnTimeout (i : Nat) : Nat := 0x10051014 + 0x40 * i
def txnGuard (i : Nat) : Nat := 0x10051018 + 0x40 * i
def txnGuardVal (i : Nat) : Nat := 0x1005101C + 0x40 * i
def txnDone (i : Nat) : Nat := 0x10051020 + 0x40 * i
def txnStageAddrLo (i : Nat) : Nat := 0x10051024 + 0x40 * i
def txnStageAddrHi (i : Nat) : Nat := 0x10051028 + 0x40 * i
def txnStageDataLo (i : Nat) : Nat := 0x1005102C + 0x40 * i
def txnStageDataHi (i : Nat) : Nat := 0x10051030 + 0x40 * i
def txnStagePush (i : Nat) : Nat := 0x10051034 + 0x40 * i
def txnEndBeatLo (i : Nat) : Nat := 0x10051038 + 0x40 * i
def txnEndBeatHi (i : Nat) : Nat := 0x1005103C + 0x40 * i
def txnSnapCfg (i : Nat) : Nat := 0x10058000 + 0x100 * i
def txnSnapLen (i : Nat) : Nat := 0x10058004 + 0x100 * i
def txnSnapBeatLo (i : Nat) : Nat := 0x10058008 + 0x100 * i
def txnSnapBeatHi (i : Nat) : Nat := 0x1005800C + 0x100 * i
def txnSnapData (i j : Nat) : Nat := 0x10058080 + 0x100 * i + 0x4 * j

def tmbStatus : Nat := 0x10100000
def tmbIntEn : Nat := 0x10100004
def tmbTimeSecLo : Nat := 0x10100010
def tmbTimeSecHi : Nat := 0x10100014
def tmbTimeNs : Nat := 0x10100018
def tmbTimeFrac : Nat := 0x1010001C
def tmbBeatLo : Nat := 0x10100020
def tmbBeatHi : Nat := 0x10100024
def tmbRateLo : Nat := 0x10100028
def tmbRateHi : Nat := 0x1010002C
def tmbStepNs : Nat := 0x10100030
def tmbStepSecLo : Nat := 0x10100034
def tmbStepSecHi : Nat := 0x10100038
def tmbStepGo : Nat := 0x1010003C
def tmbStepCount : Nat := 0x10100040
def tmbPpsCfg : Nat := 0x10100050
def tmbPpsInNs : Nat := 0x10100054
def tmbPpsInSecLo : Nat := 0x10100058
def tmbPpsInSecHi : Nat := 0x1010005C
def tmbPpsInCount : Nat := 0x10100060
def tmbTrgCfg (i : Nat) : Nat := 0x10101000 + 0x40 * i
def tmbTrgTgtNs (i : Nat) : Nat := 0x10101004 + 0x40 * i
def tmbTrgTgtSecLo (i : Nat) : Nat := 0x10101008 + 0x40 * i
def tmbTrgTgtSecHi (i : Nat) : Nat := 0x1010100C + 0x40 * i
def tmbTrgPeriod (i : Nat) : Nat := 0x10101010 + 0x40 * i
def tmbTrgWidth (i : Nat) : Nat := 0x10101014 + 0x40 * i
def tmbTrgCount (i : Nat) : Nat := 0x10101018 + 0x40 * i
def tmbTrgBkl (i : Nat) : Nat := 0x1010101C + 0x40 * i
def tmbTrgStatus (i : Nat) : Nat := 0x10101020 + 0x40 * i
def tmbTrgMatches (i : Nat) : Nat := 0x10101024 + 0x40 * i
def tmbTrgMissed (i : Nat) : Nat := 0x10101028 + 0x40 * i
def tmbCapCfg (i : Nat) : Nat := 0x10102000 + 0x20 * i
def tmbCapHeadNs (i : Nat) : Nat := 0x10102004 + 0x20 * i
def tmbCapHeadSecLo (i : Nat) : Nat := 0x10102008 + 0x20 * i
def tmbCapHeadSecHi (i : Nat) : Nat := 0x1010200C + 0x20 * i
def tmbCapPop (i : Nat) : Nat := 0x10102010 + 0x20 * i
def tmbCapStatus (i : Nat) : Nat := 0x10102014 + 0x20 * i
def tmbCapLost (i : Nat) : Nat := 0x10102018 + 0x20 * i

def ingStatus : Nat := 0x10110000
def ingCtrl : Nat := 0x10110004
def ingIntEn : Nat := 0x10110008
def ingCondFrames : Nat := 0x1011000C
def ingStrCfg (i : Nat) : Nat := 0x10111000 + 0x40 * i
def ingStrSrc (i : Nat) : Nat := 0x10111004 + 0x40 * i
def ingStrGeom (i : Nat) : Nat := 0x10111008 + 0x40 * i
def ingStrAux (i : Nat) : Nat := 0x1011100C + 0x40 * i
def ingStrBufLo (i : Nat) : Nat := 0x10111010 + 0x40 * i
def ingStrBufHi (i : Nat) : Nat := 0x10111014 + 0x40 * i
def ingStrBufSize (i : Nat) : Nat := 0x10111018 + 0x40 * i
def ingStrOutLo (i : Nat) : Nat := 0x1011101C + 0x40 * i
def ingStrOutHi (i : Nat) : Nat := 0x10111020 + 0x40 * i
def ingStrOutSize (i : Nat) : Nat := 0x10111024 + 0x40 * i
def ingStrRecLo (i : Nat) : Nat := 0x10111028 + 0x40 * i
def ingStrRecHi (i : Nat) : Nat := 0x1011102C + 0x40 * i
def ingStrBkl (i : Nat) : Nat := 0x10111030 + 0x40 * i
def ingStrRelease (i : Nat) : Nat := 0x10111034 + 0x40 * i
def ingStrSeq (i : Nat) : Nat := 0x10111038 + 0x40 * i
def ingStrStatus (i : Nat) : Nat := 0x1011103C + 0x40 * i
def ingStrDropCount (i : Nat) : Nat := 0x10112000 + 0x8 * i
def ingStrErrCount (i : Nat) : Nat := 0x10112004 + 0x8 * i
def ingCpCfg (i : Nat) : Nat := 0x10114000 + 0x80 * i
def ingCpBl (i j : Nat) : Nat := 0x10114004 + 0x80 * i + 0x4 * j
def ingCpGain (i j : Nat) : Nat := 0x10114014 + 0x80 * i + 0x4 * j
def ingCpM0 (i : Nat) : Nat := 0x10114024 + 0x80 * i
def ingCpM1 (i j : Nat) : Nat := 0x10114028 + 0x80 * i + 0x4 * j
def ingCpM4 (i : Nat) : Nat := 0x10114034 + 0x80 * i
def ingCpM5 (i j : Nat) : Nat := 0x10114038 + 0x80 * i + 0x4 * j
def ingCpM8 (i : Nat) : Nat := 0x10114044 + 0x80 * i
def ingCpOff (i j : Nat) : Nat := 0x10114048 + 0x80 * i + 0x4 * j

def qdrStatus : Nat := 0x10120000
def qdrCtrl : Nat := 0x10120004
def qdrIntEn : Nat := 0x10120008
def qdrLastErr : Nat := 0x1012000C
def qdrRingCfg : Nat := 0x10120010
def qdrRingTail : Nat := 0x10120014
def qdrRingHead : Nat := 0x10120018
def qdrCalSel : Nat := 0x1012001C
def qdrCalBase (i : Nat) : Nat := 0x10120020 + 0x4 * i
def qdrTrkCfg : Nat := 0x10120028
def qdrGate : Nat := 0x1012002C
def qdrQCv : Nat := 0x10120030
def qdrQCa : Nat := 0x10120034
def qdrInitVarp : Nat := 0x10120038
def qdrInitVarv : Nat := 0x1012003C
def qdrInitVara : Nat := 0x10120040
def qdrSizeAlpha : Nat := 0x10120044
def qdrGridCfg : Nat := 0x10120048
def qdrGridZlo : Nat := 0x1012004C
def qdrGridZhi : Nat := 0x10120050
def qdrPubCfg : Nat := 0x10120054
def qdrPubBase : Nat := 0x10120058
def qdrPubBkl : Nat := 0x1012005C
def qdrPubRelease : Nat := 0x10120060
def qdrTracks : Nat := 0x10120064
def qdrJobCount : Nat := 0x10120080
def qdrPtNanCount : Nat := 0x10120084
def qdrPtOutCount : Nat := 0x10120088
def qdrDetBadCount : Nat := 0x1012008C
def qdrTrackRefusedCount : Nat := 0x10120090
def qdrTrackDeletedCount : Nat := 0x10120094
def qdrOosmCount : Nat := 0x10120098
def qdrPubSkipCount : Nat := 0x1012009C
def qdrSrcVarxy (i : Nat) : Nat := 0x10120100 + 0x8 * i
def qdrSrcVarz (i : Nat) : Nat := 0x10120104 + 0x8 * i

def stpEngStatus0 : Nat := 0x10130000
def stpEngStatus1 : Nat := 0x10140000
def stpEngStatus2 : Nat := 0x10150000
def stpEngStatus3 : Nat := 0x10160000
def stpEngStatus4 : Nat := 0x10170000
def stpEngCtrl (i : Nat) : Nat := 0x10130004 + 0x10000 * i
def stpEngImage (i : Nat) : Nat := 0x10130008 + 0x10000 * i
def stpEngShadowSamples (i : Nat) : Nat := 0x1013000C + 0x10000 * i
def stpEngShadowMismatch (i : Nat) : Nat := 0x10130010 + 0x10000 * i
def stpEngFaultCount (i : Nat) : Nat := 0x10130014 + 0x10000 * i
def stpGrpMap : Nat := 0x10130100
def stpGcfg : Nat := 0x10130104
def stpShadowMin : Nat := 0x10130108
def stpHandover : Nat := 0x1013010C
def stpHandoverStatus : Nat := 0x10130110
def stpHandoverBeatLo : Nat := 0x10130114
def stpHandoverBeatHi : Nat := 0x10130118
def stpIntEn : Nat := 0x1013011C
def stpSafePend (i : Nat) : Nat := 0x10130120 + 0x4 * i
def stpLCfg (i j : Nat) : Nat := 0x10131000 + 0x10000 * i + 0x100 * j
def stpLPeriod (i j : Nat) : Nat := 0x10131004 + 0x10000 * i + 0x100 * j
def stpLPhase (i j : Nat) : Nat := 0x10131008 + 0x10000 * i + 0x100 * j
def stpLIo (i j : Nat) : Nat := 0x1013100C + 0x10000 * i + 0x100 * j
def stpLFbAddr (i j : Nat) : Nat := 0x10131010 + 0x10000 * i + 0x100 * j
def stpLOutAddr (i j : Nat) : Nat := 0x10131014 + 0x10000 * i + 0x100 * j
def stpLSp (i j : Nat) : Nat := 0x10131018 + 0x10000 * i + 0x100 * j
def stpLFf (i j : Nat) : Nat := 0x1013101C + 0x10000 * i + 0x100 * j
def stpLKp (i j : Nat) : Nat := 0x10131020 + 0x10000 * i + 0x100 * j
def stpLKi (i j : Nat) : Nat := 0x10131024 + 0x10000 * i + 0x100 * j
def stpLKda (i j : Nat) : Nat := 0x10131028 + 0x10000 * i + 0x100 * j
def stpLKdb (i j : Nat) : Nat := 0x1013102C + 0x10000 * i + 0x100 * j
def stpLKff (i j : Nat) : Nat := 0x10131030 + 0x10000 * i + 0x100 * j
def stpLKaw (i j : Nat) : Nat := 0x10131034 + 0x10000 * i + 0x100 * j
def stpLKr (i j : Nat) : Nat := 0x10131038 + 0x10000 * i + 0x100 * j
def stpLQf (i j : Nat) : Nat := 0x1013103C + 0x10000 * i + 0x100 * j
def stpLShift (i j : Nat) : Nat := 0x10131040 + 0x10000 * i + 0x100 * j
def stpLImin (i j : Nat) : Nat := 0x10131044 + 0x10000 * i + 0x100 * j
def stpLImax (i j : Nat) : Nat := 0x10131048 + 0x10000 * i + 0x100 * j
def stpLOmin (i j : Nat) : Nat := 0x1013104C + 0x10000 * i + 0x100 * j
def stpLOmax (i j : Nat) : Nat := 0x10131050 + 0x10000 * i + 0x100 * j
def stpLRate (i j : Nat) : Nat := 0x10131054 + 0x10000 * i + 0x100 * j
def stpLRamp (i j : Nat) : Nat := 0x10131058 + 0x10000 * i + 0x100 * j
def stpLWdog (i j : Nat) : Nat := 0x1013105C + 0x10000 * i + 0x100 * j
def stpLFreezeEmin (i j : Nat) : Nat := 0x10131060 + 0x10000 * i + 0x100 * j
def stpLWaltzCfg (i j : Nat) : Nat := 0x10131064 + 0x10000 * i + 0x100 * j
def stpLWaltzBase (i j : Nat) : Nat := 0x10131068 + 0x10000 * i + 0x100 * j
def stpLWaltzIdx (i j : Nat) : Nat := 0x1013106C + 0x10000 * i + 0x100 * j
def stpLTrajBase (i j : Nat) : Nat := 0x10131070 + 0x10000 * i + 0x100 * j
def stpLTrajLen (i j : Nat) : Nat := 0x10131074 + 0x10000 * i + 0x100 * j
def stpLTrajStartLo (i j : Nat) : Nat := 0x10131078 + 0x10000 * i + 0x100 * j
def stpLTrajStartHi (i j : Nat) : Nat := 0x1013107C + 0x10000 * i + 0x100 * j
def stpLCtrl (i j : Nat) : Nat := 0x10131080 + 0x10000 * i + 0x100 * j
def stpLStatus (i j : Nat) : Nat := 0x10131084 + 0x10000 * i + 0x100 * j
def stpLOut (i j : Nat) : Nat := 0x10131088 + 0x10000 * i + 0x100 * j
def stpLI (i j : Nat) : Nat := 0x1013108C + 0x10000 * i + 0x100 * j
def stpLD (i j : Nat) : Nat := 0x10131090 + 0x10000 * i + 0x100 * j
def stpLErr (i j : Nat) : Nat := 0x10131094 + 0x10000 * i + 0x100 * j
def stpLFbv (i j : Nat) : Nat := 0x10131098 + 0x10000 * i + 0x100 * j
def stpLSamples (i j : Nat) : Nat := 0x1013109C + 0x10000 * i + 0x100 * j
def stpLMisses (i j : Nat) : Nat := 0x101310A0 + 0x10000 * i + 0x100 * j
def stpLSkipped (i j : Nat) : Nat := 0x101310A4 + 0x10000 * i + 0x100 * j
def stpLLastBeatLo (i j : Nat) : Nat := 0x101310A8 + 0x10000 * i + 0x100 * j
def stpLLastBeatHi (i j : Nat) : Nat := 0x101310AC + 0x10000 * i + 0x100 * j
def stpWaltz (i j : Nat) : Nat := 0x10138000 + 0x10000 * i + 0x4 * j

def mioStatus : Nat := 0x10180000
def mioCtrl : Nat := 0x10180004
def mioIntEn : Nat := 0x10180008
def mioLimRaw : Nat := 0x10180010
def mioLimState : Nat := 0x10180014
def mioEncCfg (i : Nat) : Nat := 0x10180100 + 0x20 * i
def mioEncCount (i : Nat) : Nat := 0x10180104 + 0x20 * i
def mioEncRaw (i : Nat) : Nat := 0x10180108 + 0x20 * i
def mioEncCpr (i : Nat) : Nat := 0x1018010C + 0x20 * i
def mioEncIndexRef (i : Nat) : Nat := 0x10180110 + 0x20 * i
def mioEncIndexPos (i : Nat) : Nat := 0x10180114 + 0x20 * i
def mioEncIndexDev (i : Nat) : Nat := 0x10180118 + 0x20 * i
def mioEncStatus (i : Nat) : Nat := 0x1018011C + 0x20 * i
def mioAbsCfg (i : Nat) : Nat := 0x10180300 + 0x20 * i
def mioAbsPeriod (i : Nat) : Nat := 0x10180304 + 0x20 * i
def mioAbsPhase (i : Nat) : Nat := 0x10180308 + 0x20 * i
def mioAbsOffset (i : Nat) : Nat := 0x1018030C + 0x20 * i
def mioAbsPos (i : Nat) : Nat := 0x10180310 + 0x20 * i
def mioAbsMaxStep (i : Nat) : Nat := 0x10180314 + 0x20 * i
def mioAbsStatus (i : Nat) : Nat := 0x10180318 + 0x20 * i
def mioAbsErrCount (i : Nat) : Nat := 0x1018031C + 0x20 * i
def mioPwmCfg (i : Nat) : Nat := 0x10180400 + 0x40 * i
def mioPwmPeriod (i : Nat) : Nat := 0x10180404 + 0x40 * i
def mioPwmTiming (i : Nat) : Nat := 0x10180408 + 0x40 * i
def mioPwmDuty (i : Nat) : Nat := 0x1018040C + 0x40 * i
def mioPwmHiOn (i : Nat) : Nat := 0x10180410 + 0x40 * i
def mioPwmHiOff (i : Nat) : Nat := 0x10180414 + 0x40 * i
def mioPwmLoOn (i : Nat) : Nat := 0x10180418 + 0x40 * i
def mioPwmLoOff (i : Nat) : Nat := 0x1018041C + 0x40 * i
def mioPwmStatus (i : Nat) : Nat := 0x10180420 + 0x40 * i
def mioPwmRefusedCount (i : Nat) : Nat := 0x10180424 + 0x40 * i
def mioLimCfg (i : Nat) : Nat := 0x10180A00 + 0x4 * i
def mioLimStatus (i : Nat) : Nat := 0x10180A80 + 0x4 * i
def mioAxCfg (i : Nat) : Nat := 0x10180B00 + 0x8 * i
def mioAxStatus (i : Nat) : Nat := 0x10180B04 + 0x8 * i
def mioHomeCfg : Nat := 0x10180C00
def mioHomeStep : Nat := 0x10180C04
def mioHomeIstep : Nat := 0x10180C08
def mioHomeTravel : Nat := 0x10180C0C
def mioHomePos : Nat := 0x10180C10
def mioHomeCtrl : Nat := 0x10180C14
def mioHomeStatus : Nat := 0x10180C18
def mioUartCfg (i : Nat) : Nat := 0x10180D00 + 0x20 * i
def mioUartRx (i : Nat) : Nat := 0x10180D04 + 0x20 * i
def mioUartPop (i : Nat) : Nat := 0x10180D08 + 0x20 * i
def mioUartTx (i : Nat) : Nat := 0x10180D0C + 0x20 * i
def mioUartStatus (i : Nat) : Nat := 0x10180D10 + 0x20 * i
def mioUartErrCount (i : Nat) : Nat := 0x10180D14 + 0x20 * i

def ssuStatus : Nat := 0x10190000
def ssuCtrl : Nat := 0x10190004
def ssuIntEn : Nat := 0x10190008
def ssuLastErr : Nat := 0x1019000C
def ssuSolveCount : Nat := 0x10190010
def ssuFailCount : Nat := 0x10190014
def ssuOverlapCount : Nat := 0x10190018
def ssuPDesc (i : Nat) : Nat := 0x10190100 + 0x20 * i
def ssuPStart (i : Nat) : Nat := 0x10190104 + 0x20 * i
def ssuPCtrl (i : Nat) : Nat := 0x10190108 + 0x20 * i
def ssuPStatus (i : Nat) : Nat := 0x1019010C + 0x20 * i
def ssuPSeq (i : Nat) : Nat := 0x10190110 + 0x20 * i
def ssuPLast (i : Nat) : Nat := 0x10190114 + 0x20 * i

def cinStatus : Nat := 0x10200000
def cinCtrl : Nat := 0x10200004
def cinReq : Nat := 0x10200008
def cinIntEn : Nat := 0x1020000C
def cinFault : Nat := 0x10200010
def cinFaultBeatLo : Nat := 0x10200014
def cinFaultBeatHi : Nat := 0x10200018
def cinWdogCfg : Nat := 0x1020001C
def cinWdogKick : Nat := 0x10200020
def cinOutCfg : Nat := 0x10200024
def cinOutStatus : Nat := 0x10200028
def cinBeatMon : Nat := 0x1020002C
def cinVreq : Nat := 0x10200030
def cinVerdict : Nat := 0x10200034
def cinVetoLast : Nat := 0x10200038
def cinVouchCount : Nat := 0x1020003C
def cinVetoCount : Nat := 0x10200040
def cinBypassCount : Nat := 0x10200044
def cinFrameCfg : Nat := 0x10200050
def cinFramePeriod : Nat := 0x10200054
def cinFramePhase : Nat := 0x10200058
def cinFrameDeadline : Nat := 0x1020005C
def cinFrameStatus : Nat := 0x10200060
def cinFrameNum : Nat := 0x10200064
def cinFrameMissCount : Nat := 0x10200068
def cinGoldCfg : Nat := 0x1020006C
def cinGoldWin : Nat := 0x10200070
def cinChkCfg : Nat := 0x10200074
def cinRpBase : Nat := 0x10200080
def cinRpSize : Nat := 0x10200084
def cinRpWr : Nat := 0x10200088
def cinRpRd : Nat := 0x1020008C
def cinRpDropCount : Nat := 0x10200090
def cinGridCfg : Nat := 0x10200094
def cinGridStatus : Nat := 0x10200098
def cinSealBaseLo (i : Nat) : Nat := 0x10200400 + 0x10 * i
def cinSealBaseHi (i : Nat) : Nat := 0x10200404 + 0x10 * i
def cinSealSize (i : Nat) : Nat := 0x10200408 + 0x10 * i
def cinSealCtrl (i : Nat) : Nat := 0x1020040C + 0x10 * i
def cinVdAddr (i : Nat) : Nat := 0x10201000 + 0x20 * i
def cinVdShape (i : Nat) : Nat := 0x10201004 + 0x20 * i
def cinVdMin (i : Nat) : Nat := 0x10201008 + 0x20 * i
def cinVdMax (i : Nat) : Nat := 0x1020100C + 0x20 * i
def cinVdStep (i : Nat) : Nat := 0x10201010 + 0x20 * i
def cinVdClass (i : Nat) : Nat := 0x10201014 + 0x20 * i
def cinVeAddrLo (i : Nat) : Nat := 0x10202000 + 0x10 * i
def cinVeAddrHi (i : Nat) : Nat := 0x10202004 + 0x10 * i
def cinVeDataLo (i : Nat) : Nat := 0x10202008 + 0x10 * i
def cinVeDataHi (i : Nat) : Nat := 0x1020200C + 0x10 * i

def hidStatus : Nat := 0x10300000
def hidCtrl : Nat := 0x10300004
def hidIntEn : Nat := 0x10300008
def hidCurOp : Nat := 0x10300010
def hidCurLayer : Nat := 0x10300014
def hidCurTile : Nat := 0x10300018
def hidOpCount : Nat := 0x10300020
def hidTileCount : Nat := 0x10300024
def hidCycLo (i : Nat) : Nat := 0x10300100 + 0x8 * i
def hidCycHi (i : Nat) : Nat := 0x10300104 + 0x8 * i
def hidCycClr : Nat := 0x10300140
def hidEdgeSatCount : Nat := 0x10300200
def hidEdgeNan2intCount : Nat := 0x10300204
def hidEdgeNanOutCount : Nat := 0x10300208
def hidEdgeNanInCount : Nat := 0x1030020C
def hidParityCount : Nat := 0x10300210
def hidChkCfg (i : Nat) : Nat := 0x10300300 + 0x4 * i
def hidChkForce : Nat := 0x10300308
def hidChkTiles : Nat := 0x10300310
def hidChkMismatchCount : Nat := 0x10300314
def hidChkLastLayer : Nat := 0x10300318
def hidChkLastOper : Nat := 0x1030031C
def hidChkLastTile : Nat := 0x10300320

def latStatus : Nat := 0x10310000
def latCtrl : Nat := 0x10310004
def latIntEn : Nat := 0x10310008
def latLastErr : Nat := 0x1031000C
def latLastErrLayer : Nat := 0x10310010
def latLastErrOper : Nat := 0x10310014
def latDecSymbolsLo : Nat := 0x10310020
def latDecSymbolsHi : Nat := 0x10310024
def latDecBytesLo : Nat := 0x10310028
def latDecBytesHi : Nat := 0x1031002C
def latDecErrCount : Nat := 0x10310030
def latFetchCount : Nat := 0x10310034
def latWinBase (i : Nat) : Nat := 0x10310100 + 0x20 * i
def latWinCfg (i : Nat) : Nat := 0x10310104 + 0x20 * i
def latWinRate (i : Nat) : Nat := 0x10310108 + 0x20 * i
def latWinStatus (i : Nat) : Nat := 0x1031010C + 0x20 * i
def latWinLead (i : Nat) : Nat := 0x10310110 + 0x20 * i
def latWinFillLo (i : Nat) : Nat := 0x10310114 + 0x20 * i
def latWinFillHi (i : Nat) : Nat := 0x10310118 + 0x20 * i
def latWinRestream (i : Nat) : Nat := 0x1031011C + 0x20 * i
def latStallCycLo (i : Nat) : Nat := 0x10310800 + 0x8 * i
def latStallCycHi (i : Nat) : Nat := 0x10310804 + 0x8 * i
def latStallEvt (i : Nat) : Nat := 0x10310840 + 0x4 * i
def latStallClr : Nat := 0x10310860

def calVersion : Nat := 0x10320000
def calOpBound : Nat := 0x10320004
def calOverrunLimit : Nat := 0x10320008
def calRingCtrl (i : Nat) : Nat := 0x10320100 + 0x80 * i
def calRingCfg (i : Nat) : Nat := 0x10320104 + 0x80 * i
def calRingBaseLo (i : Nat) : Nat := 0x10320108 + 0x80 * i
def calRingBaseHi (i : Nat) : Nat := 0x1032010C + 0x80 * i
def calRingTail (i : Nat) : Nat := 0x10320110 + 0x80 * i
def calRingHead (i : Nat) : Nat := 0x10320114 + 0x80 * i
def calRingDone (i : Nat) : Nat := 0x10320118 + 0x80 * i
def calRingStatus (i : Nat) : Nat := 0x1032011C + 0x80 * i
def calRingCplBaseLo (i : Nat) : Nat := 0x10320120 + 0x80 * i
def calRingCplBaseHi (i : Nat) : Nat := 0x10320124 + 0x80 * i
def calRingErrBkl (i : Nat) : Nat := 0x10320128 + 0x80 * i
def calRingLastErr (i : Nat) : Nat := 0x1032012C + 0x80 * i
def calRingLastErrIndex (i : Nat) : Nat := 0x10320130 + 0x80 * i
def calRingLastErrLayer (i : Nat) : Nat := 0x10320134 + 0x80 * i
def calRingLastErrOper (i : Nat) : Nat := 0x10320138 + 0x80 * i
def calRingOpCount (i : Nat) : Nat := 0x1032013C + 0x80 * i
def calRingErrCount (i : Nat) : Nat := 0x10320140 + 0x80 * i
def calRingOverrunCount (i : Nat) : Nat := 0x10320144 + 0x80 * i
def calRingWaitCycLo (i : Nat) : Nat := 0x10320148 + 0x80 * i
def calRingWaitCycHi (i : Nat) : Nat := 0x1032014C + 0x80 * i
def calRingIntEn (i : Nat) : Nat := 0x10320150 + 0x80 * i
def calGoldenCfg : Nat := 0x10320200
def calGoldenFrame : Nat := 0x10320204
def calGoldenBaseLo : Nat := 0x10320208
def calGoldenBaseHi : Nat := 0x1032020C
def calGoldenStatus : Nat := 0x10320210
def calGoldenRunCount : Nat := 0x10320214
def calGoldenMissedCount : Nat := 0x10320218

def tngStatus : Nat := 0x10330000
def tngCtrl : Nat := 0x10330004
def tngIntEn : Nat := 0x10330008
def tngLastErr : Nat := 0x1033000C
def tngLastErrLayer : Nat := 0x10330010
def tngLastErrOper : Nat := 0x10330014
def tngLastErrSeq : Nat := 0x10330018
def tngXlatCfg : Nat := 0x10330020
def tngLastSplit : Nat := 0x10330024
def tngChunkCount : Nat := 0x10330030
def tngSkipCount : Nat := 0x10330034
def tngEmptyRowCount : Nat := 0x10330038
def tngNanRowCount : Nat := 0x1033003C
def tngAppendCount : Nat := 0x10330040
def tngXlatAheadCount : Nat := 0x10330044
def tngStallCycLo (i : Nat) : Nat := 0x10330800 + 0x8 * i
def tngStallCycHi (i : Nat) : Nat := 0x10330804 + 0x8 * i
def tngStallEvt (i : Nat) : Nat := 0x10330840 + 0x4 * i
def tngStallClr : Nat := 0x10330860
def tngSeqCfg (i : Nat) : Nat := 0x10332000 + 0x8 * i
def tngSeqLen (i : Nat) : Nat := 0x10332004 + 0x8 * i

def relStatus : Nat := 0x10340000
def relCtrl : Nat := 0x10340004
def relIntEn : Nat := 0x10340008
def relLastErr : Nat := 0x1034000C
def relLastErrLayer : Nat := 0x10340010
def relLastErrOper : Nat := 0x10340014
def relLastErrStream : Nat := 0x10340018
def relEltCount : Nat := 0x10340020
def relScanCount : Nat := 0x10340024
def relFusedRows : Nat := 0x10340028
def relNanOutCount : Nat := 0x10340030
def relSatCount : Nat := 0x10340034
def relResetCount : Nat := 0x10340038
def relStrCfg (i : Nat) : Nat := 0x10341000 + 0x10 * i
def relStrAddr (i : Nat) : Nat := 0x10341004 + 0x10 * i
def relStrPos (i : Nat) : Nat := 0x10341008 + 0x10 * i

def visStatus : Nat := 0x10350000
def visCtrl : Nat := 0x10350004
def visIntEn : Nat := 0x10350008
def visLastErr : Nat := 0x1035000C
def visLastErrLayer : Nat := 0x10350010
def visLastErrOper : Nat := 0x10350014
def visConvCount : Nat := 0x10350020
def visCropCount : Nat := 0x10350024
def visPadElemLo : Nat := 0x10350028
def visPadElemHi : Nat := 0x1035002C
def visBoxCount : Nat := 0x10350030
def visBadBoxCount : Nat := 0x10350034
def visExtrapCount : Nat := 0x10350038

def iomCapabilitiesLo : Nat := 0x10360000
def iomCapabilitiesHi : Nat := 0x10360004
def iomFctl : Nat := 0x10360008
def iomDdtpLo : Nat := 0x10360010
def iomDdtpHi : Nat := 0x10360014
def iomCqbLo : Nat := 0x10360018
def iomCqbHi : Nat := 0x1036001C
def iomCqh : Nat := 0x10360020
def iomCqt : Nat := 0x10360024
def iomFqbLo : Nat := 0x10360028
def iomFqbHi : Nat := 0x1036002C
def iomFqh : Nat := 0x10360030
def iomFqt : Nat := 0x10360034
def iomCqcsr : Nat := 0x10360048
def iomFqcsr : Nat := 0x1036004C
def iomIpsr : Nat := 0x10360054
def iomIocountovf : Nat := 0x10360058
def iomIocountinh : Nat := 0x1036005C
def iomIohpmcyclesLo : Nat := 0x10360060
def iomIohpmcyclesHi : Nat := 0x10360064
def iomIohpmctrLo (i : Nat) : Nat := 0x10360068 + 0x8 * i
def iomIohpmctrHi (i : Nat) : Nat := 0x1036006C + 0x8 * i
def iomIohpmevtLo (i : Nat) : Nat := 0x10360160 + 0x8 * i
def iomIohpmevtHi (i : Nat) : Nat := 0x10360164 + 0x8 * i
def iomIcvecLo : Nat := 0x103602F8
def iomMsiAddrLo (i : Nat) : Nat := 0x10360300 + 0x10 * i
def iomMsiAddrHi (i : Nat) : Nat := 0x10360304 + 0x10 * i
def iomMsiData (i : Nat) : Nat := 0x10360308 + 0x10 * i
def iomMsiCtl (i : Nat) : Nat := 0x1036030C + 0x10 * i
def iomExtStatus : Nat := 0x10361000
def iomMissCount : Nat := 0x10361004
def iomSwapId (i : Nat) : Nat := 0x10361100 + 0x10 * i
def iomSwapRootLo (i : Nat) : Nat := 0x10361104 + 0x10 * i
def iomSwapRootHi (i : Nat) : Nat := 0x10361108 + 0x10 * i
def iomSwapStatus (i : Nat) : Nat := 0x1036110C + 0x10 * i

def canStatus : Nat := 0x10370000
def canPocketCommit : Nat := 0x10370004
def canIntEn : Nat := 0x10370008
def canPocket0Cfg : Nat := 0x10370010
def canPocketCfg (i : Nat) : Nat := 0x10370014 + 0x4 * i
def canPocket0Active : Nat := 0x10370030
def canPocketActive (i : Nat) : Nat := 0x10370034 + 0x4 * i
def canEccCeCount : Nat := 0x10370050
def canEccUeCount : Nat := 0x10370054
def canEccAddr : Nat := 0x10370058
def canScrubCfg : Nat := 0x1037005C
def canPermFaults : Nat := 0x10370060

def trbStatus : Nat := 0x10400000
def trbIntEn : Nat := 0x10400004
def trbSeedLo : Nat := 0x10400008
def trbSeedHi : Nat := 0x1040000C
def trbImbCfg : Nat := 0x10400010
def trbImbalance : Nat := 0x10400014
def trbImbCount : Nat := 0x10400018
def trbCeCount : Nat := 0x10400020
def trbUeCount : Nat := 0x10400024
def trbErrAddrLo : Nat := 0x10400028
def trbErrAddrHi : Nat := 0x1040002C
def trbRetryCount : Nat := 0x10400030
def trbScrubCfg : Nat := 0x10400034
def trbPcLoad (i : Nat) : Nat := 0x10400100 + 0x4 * i

def shzStatus : Nat := 0x10500000
def shzCtrl : Nat := 0x10500004
def shzCfg : Nat := 0x10500008
def shzIntEn : Nat := 0x1050000C
def shzNode : Nat := 0x10500010
def shzSyncCfg : Nat := 0x10500014
def shzLinkLead : Nat := 0x10500018
def shzRdTimeout : Nat := 0x1050001C
def shzEpoch (i : Nat) : Nat := 0x10500020 + 0x4 * i
def shzStaleCount : Nat := 0x10500040
def shzDupCount : Nat := 0x10500044
def shzRefusedCount : Nat := 0x10500048
def shzErrCount : Nat := 0x1050004C
def shzUnreachCount : Nat := 0x10500050
def shzBadCount : Nat := 0x10500054
def shzPStatus (i : Nat) : Nat := 0x10500100 + 0x20 * i
def shzPDelay (i : Nat) : Nat := 0x10500104 + 0x20 * i
def shzPOffset (i : Nat) : Nat := 0x10500108 + 0x20 * i
def shzPAsym (i : Nat) : Nat := 0x1050010C + 0x20 * i
def shzPCrcCount (i : Nat) : Nat := 0x10500110 + 0x20 * i
def shzPReplayCount (i : Nat) : Nat := 0x10500114 + 0x20 * i
def shzPDownCount (i : Nat) : Nat := 0x10500118 + 0x20 * i
def shzLinkCfg (i : Nat) : Nat := 0x10500200 + 0x10 * i
def shzLinkGroup (i : Nat) : Nat := 0x10500204 + 0x10 * i
def shzLinkStatus (i : Nat) : Nat := 0x10500208 + 0x10 * i

def pciStatus : Nat := 0x10600000
def pciCtrl : Nat := 0x10600004
def pciIntEn : Nat := 0x10600008
def pciCfg : Nat := 0x1060000C
def pciPLink (i : Nat) : Nat := 0x10600100 + 0x100 * i
def pciPCtrl (i : Nat) : Nat := 0x10600104 + 0x100 * i
def pciPOutBaseLo (i : Nat) : Nat := 0x10600108 + 0x100 * i
def pciPOutBaseHi (i : Nat) : Nat := 0x1060010C + 0x100 * i
def pciPMsiLo (i : Nat) : Nat := 0x10600110 + 0x100 * i
def pciPMsiHi (i : Nat) : Nat := 0x10600114 + 0x100 * i
def pciPMsi (i : Nat) : Nat := 0x10600118 + 0x100 * i
def pciInwBaseLo (i j : Nat) : Nat := 0x10600120 + 0x100 * i + 0x10 * j
def pciInwBaseHi (i j : Nat) : Nat := 0x10600124 + 0x100 * i + 0x10 * j
def pciInwSize (i j : Nat) : Nat := 0x10600128 + 0x100 * i + 0x10 * j
def pciInwCtrl (i j : Nat) : Nat := 0x1060012C + 0x100 * i + 0x10 * j
def pciPUrCount (i : Nat) : Nat := 0x10600160 + 0x100 * i
def pciPDropCount (i : Nat) : Nat := 0x10600164 + 0x100 * i
def pciPTimeoutCount (i : Nat) : Nat := 0x10600168 + 0x100 * i
def pciPDownCount (i : Nat) : Nat := 0x1060016C + 0x100 * i
def pciPCplErrCount (i : Nat) : Nat := 0x10600170 + 0x100 * i

def ethStatus : Nat := 0x10610000
def ethCtrl : Nat := 0x10610004
def ethIntEn : Nat := 0x10610008
def ethPCfg (i : Nat) : Nat := 0x10611000 + 0x1000 * i
def ethPStatus (i : Nat) : Nat := 0x10611004 + 0x1000 * i
def ethPMacLo (i : Nat) : Nat := 0x10611008 + 0x1000 * i
def ethPMacHi (i : Nat) : Nat := 0x1061100C + 0x1000 * i
def ethPTsLatTx (i : Nat) : Nat := 0x10611010 + 0x1000 * i
def ethPTsLatRx (i : Nat) : Nat := 0x10611014 + 0x1000 * i
def ethGclCtrl (i : Nat) : Nat := 0x10611020 + 0x1000 * i
def ethGclCycle (i : Nat) : Nat := 0x10611024 + 0x1000 * i
def ethGclBaseNs (i : Nat) : Nat := 0x10611028 + 0x1000 * i
def ethGclBaseSecLo (i : Nat) : Nat := 0x1061102C + 0x1000 * i
def ethGclBaseSecHi (i : Nat) : Nat := 0x10611030 + 0x1000 * i
def ethGclStatus (i : Nat) : Nat := 0x10611034 + 0x1000 * i
def ethTxqBaseLo (i j : Nat) : Nat := 0x10611040 + 0x1000 * i + 0x20 * j
def ethTxqBaseHi (i j : Nat) : Nat := 0x10611044 + 0x1000 * i + 0x20 * j
def ethTxqCfg (i j : Nat) : Nat := 0x10611048 + 0x1000 * i + 0x20 * j
def ethTxqTail (i j : Nat) : Nat := 0x1061104C + 0x1000 * i + 0x20 * j
def ethTxqHead (i j : Nat) : Nat := 0x10611050 + 0x1000 * i + 0x20 * j
def ethRxqBaseLo (i j : Nat) : Nat := 0x10611140 + 0x1000 * i + 0x20 * j
def ethRxqBaseHi (i j : Nat) : Nat := 0x10611144 + 0x1000 * i + 0x20 * j
def ethRxqCfg (i j : Nat) : Nat := 0x10611148 + 0x1000 * i + 0x20 * j
def ethRxqTail (i j : Nat) : Nat := 0x1061114C + 0x1000 * i + 0x20 * j
def ethRxqHead (i j : Nat) : Nat := 0x10611150 + 0x1000 * i + 0x20 * j
def ethRxFrames (i : Nat) : Nat := 0x10611300 + 0x1000 * i
def ethTxFrames (i : Nat) : Nat := 0x10611304 + 0x1000 * i
def ethFcsCount (i : Nat) : Nat := 0x10611308 + 0x1000 * i
def ethRxDrop (i : Nat) : Nat := 0x1061130C + 0x1000 * i
def ethFrerDiscard (i : Nat) : Nat := 0x10611310 + 0x1000 * i
def ethFrerRogue (i : Nat) : Nat := 0x10611314 + 0x1000 * i
def ethGcla (i j : Nat) : Nat := 0x10611400 + 0x1000 * i + 0x4 * j
def ethGclb (i j : Nat) : Nat := 0x10611800 + 0x1000 * i + 0x4 * j
def ethFrerDmacLo (i j : Nat) : Nat := 0x10611C00 + 0x1000 * i + 0x10 * j
def ethFrerDmacHi (i j : Nat) : Nat := 0x10611C04 + 0x1000 * i + 0x10 * j
def ethFrerCfg (i j : Nat) : Nat := 0x10611C08 + 0x1000 * i + 0x10 * j
def ethFrerSeq (i j : Nat) : Nat := 0x10611C0C + 0x1000 * i + 0x10 * j
def ethCsiCfg (i : Nat) : Nat := 0x10618000 + 0x40 * i
def ethCsiStatus (i : Nat) : Nat := 0x10618004 + 0x40 * i
def ethCsiErrCount (i : Nat) : Nat := 0x10618008 + 0x40 * i
def ethTdm (i j : Nat) : Nat := 0x10618400 + 0x40 * i + 0x4 * j
def ethPdmCfg (i : Nat) : Nat := 0x10618500 + 0x20 * i
def ethCanCfg (i j : Nat) : Nat := 0x10618800 + 0x400 * i + 0x4 * j
def ethCanFilter (i j : Nat) : Nat := 0x10618A00 + 0x400 * i + 0x4 * j
def ethSpiCfg (i : Nat) : Nat := 0x10619000 + 0x40 * i
def ethSpiGo (i : Nat) : Nat := 0x10619004 + 0x40 * i
def ethSpiData (i : Nat) : Nat := 0x10619008 + 0x40 * i
def ethSpiStatus (i : Nat) : Nat := 0x1061900C + 0x40 * i
def ethI2c (i j : Nat) : Nat := 0x10619400 + 0x40 * i + 0x4 * j

def tlgStatus : Nat := 0x10700000
def tlgEngCtrl : Nat := 0x10700004
def tlgIntEn : Nat := 0x10700008
def tlgAuth : Nat := 0x1070000C
def tlgSmpCfg : Nat := 0x10700010
def tlgSmpInterval : Nat := 0x10700014
def tlgSmpPhase : Nat := 0x10700018
def tlgSmpBaseLo : Nat := 0x1070001C
def tlgSmpBaseHi : Nat := 0x10700020
def tlgSmpSize : Nat := 0x10700024
def tlgSmpWr : Nat := 0x10700028
def tlgSmpRd : Nat := 0x1070002C
def tlgSmpLost : Nat := 0x10700030
def tlgTrcCfg : Nat := 0x10700040
def tlgTrcBaseLo : Nat := 0x10700044
def tlgTrcBaseHi : Nat := 0x10700048
def tlgTrcSize : Nat := 0x1070004C
def tlgTrcWr : Nat := 0x10700050
def tlgTrcRd : Nat := 0x10700054
def tlgTrcLost : Nat := 0x10700058
def tlgCntClr : Nat := 0x1070005C
def tlgObpCfg (i : Nat) : Nat := 0x10700080 + 0x10 * i
def tlgObpLayer (i : Nat) : Nat := 0x10700084 + 0x10 * i
def tlgObpOper (i : Nat) : Nat := 0x10700088 + 0x10 * i
def tlgObpStatus (i : Nat) : Nat := 0x1070008C + 0x10 * i
def tlgCntSel (i : Nat) : Nat := 0x10701000 + 0x4 * i
def tlgCntLo (i : Nat) : Nat := 0x10702000 + 0x8 * i
def tlgCntHi (i : Nat) : Nat := 0x10702004 + 0x8 * i

def cfgStatus : Nat := 0x10800000
def cfgBootSel : Nat := 0x10800004
def cfgImageVer : Nat := 0x10800008
def cfgSecVer : Nat := 0x1080000C
def cfgFuse : Nat := 0x10800010
def cfgUidLo : Nat := 0x10800014
def cfgUidHi : Nat := 0x10800018
def cfgFuseUnlock : Nat := 0x1080001C
def cfgSlotVer (i : Nat) : Nat := 0x10800020 + 0x4 * i
def cfgCap0 : Nat := 0x10800040
def cfgCap1 : Nat := 0x10800044
def cfgCap2 : Nat := 0x10800048
def cfgCap3 : Nat := 0x1080004C
def cfgCap4 : Nat := 0x10800050
def cfgCap5 : Nat := 0x10800054
def cfgCap6 : Nat := 0x10800058
def cfgCap7 : Nat := 0x1080005C

/-- The status register of Stirrup engine k. -/
def stpEngStatus (k : Nat) : Nat := 0x10130000 + 0x10000 * k
/-- The shadow register of pocket n. -/
def canPocketCfgN (n : Nat) : Nat := 0x10370010 + 4 * n
/-- The register of pocket n in effect. -/
def canPocketActiveN (n : Nat) : Nat := 0x10370030 + 4 * n
/-- Colour matrix entry k of conditioner profile p. -/
def ingCpM (p k : Nat) : Nat := 0x10114024 + 0x80 * p + 4 * k
/-- Buckle b's value register (R95). -/
def bkl (b : Nat) : Nat := 0x10010000 + 0x10000 * (b / 4096) + 4 * (b % 4096)
/-- Loop register r of loop l (0 to 127): block l / 32, slot l mod 32. -/
def loopReg (l r : Nat) : Nat := 0x10131000 + 0x10000 * (l / 32) + 0x100 * (l % 32) + r

end Reg

def tabSys0 : List RegRow := [
  ⟨"SYS_STATUS", 0x10000000, [], [⟨0, 0, .ro, 0⟩, ⟨1, 1, .w1c, 0⟩, ⟨2, 2, .ro, 0⟩, ⟨3, 3, .w1c, 0⟩, ⟨4, 4, .w1c, 0⟩]⟩,
  ⟨"SYS_INT_EN", 0x10000004, [], [⟨4, 1, .rw, 0⟩]⟩,
  ⟨"SYS_RESET_CAUSE", 0x10000008, [], [⟨0, 0, .w1c, 1⟩, ⟨1, 1, .w1c, 0⟩, ⟨2, 2, .w1c, 0⟩, ⟨3, 3, .w1c, 0⟩, ⟨4, 4, .w1c, 0⟩, ⟨5, 5, .w1c, 0⟩, ⟨6, 6, .w1c, 0⟩]⟩,
  ⟨"SYS_RESET", 0x1000000C, [], [⟨0, 0, .wo, 0⟩, ⟨31, 16, .wo, 0⟩]⟩,
  ⟨"SYS_RAIL_STATUS", 0x10000010, [], [⟨6, 0, .ro, 0⟩, ⟨7, 7, .ro, 0⟩, ⟨11, 8, .ro, 0⟩]⟩,
  ⟨"SYS_PWR_FAULT_COUNT", 0x10000014, [], [⟨31, 0, .ro, 0⟩]⟩,
  ⟨"SYS_THERM_CFG", 0x10000018, [], [⟨7, 0, .rw, 100⟩, ⟨15, 8, .rw, 110⟩, ⟨19, 16, .rw, 5⟩]⟩,
  ⟨"SYS_THERM_STATUS", 0x1000001C, [], [⟨11, 0, .ro, 0⟩, ⟨20, 16, .ro, 0⟩]⟩,
  ⟨"SYS_TEMP", 0x10000020, [(0x4, 21)], [⟨11, 0, .ro, 0⟩, ⟨31, 31, .ro, 0⟩]⟩,
  ⟨"SYS_AON_DROP_COUNT", 0x10000074, [], [⟨31, 0, .rc, 0⟩]⟩]
/-- Registers of the SYS_ block (22_package_power.md). -/
def tabSys : List RegRow := tabSys0

def tabStw0 : List RegRow := [
  ⟨"STW_STATUS", 0x10000100, [], [⟨1, 0, .ro, 0⟩, ⟨2, 2, .ro, 0⟩, ⟨3, 3, .ro, 0⟩, ⟨15, 8, .ro, 0⟩]⟩,
  ⟨"STW_CMD", 0x10000104, [], [⟨7, 0, .wo, 0⟩, ⟨11, 8, .wo, 0⟩, ⟨15, 12, .wo, 0⟩]⟩,
  ⟨"STW_ARG0", 0x10000108, [], [⟨31, 0, .rw, 0⟩]⟩,
  ⟨"STW_ARG1", 0x1000010C, [], [⟨31, 0, .rw, 0⟩]⟩,
  ⟨"STW_PKG_LO", 0x10000110, [], [⟨31, 0, .rw, 0⟩]⟩,
  ⟨"STW_PKG_HI", 0x10000114, [], [⟨15, 0, .rw, 0⟩]⟩,
  ⟨"STW_CMD_STATUS", 0x10000118, [], [⟨0, 0, .ro, 0⟩, ⟨1, 1, .w1c, 0⟩, ⟨7, 4, .ro, 0⟩, ⟨15, 8, .ro, 0⟩]⟩,
  ⟨"STW_POWER", 0x1000011C, [], [⟨2, 0, .rw, 0⟩, ⟨26, 16, .ro, 0⟩]⟩,
  ⟨"STW_RFX_YIELD", 0x10000120, [], [⟨3, 0, .w1s, 0⟩]⟩,
  ⟨"STW_INT_EN", 0x10000124, [], [⟨0, 0, .rw, 0⟩]⟩]
/-- Registers of the STW_ block (19_boot_config_update.md). -/
def tabStw : List RegRow := tabStw0

def tabBkl0 : List RegRow := [
  ⟨"BKL_VAL", 0x10010000, [(0x10000, 4), (0x4, 4096)], [⟨31, 0, .rw, 0⟩]⟩,
  ⟨"BKL_ADD", 0x10014000, [(0x10000, 4), (0x4, 4096)], [⟨31, 0, .wo, 0⟩]⟩,
  ⟨"BKL_WAIT_CFG", 0x10018000, [(0x10000, 4), (0x10, 64)], [⟨13, 0, .rw, 0⟩, ⟨16, 16, .wo, 0⟩, ⟨17, 17, .rw, 0⟩]⟩,
  ⟨"BKL_WAIT_TARGET", 0x10018004, [(0x10000, 4), (0x10, 64)], [⟨31, 0, .rw, 0⟩]⟩,
  ⟨"BKL_WAIT_STATUS", 0x10018008, [(0x10000, 4), (0x10, 64)], [⟨0, 0, .ro, 0⟩, ⟨1, 1, .w1c, 0⟩]⟩,
  ⟨"BKL_FAULT_COUNT", 0x1001C000, [(0x10000, 4)], [⟨31, 0, .rc, 0⟩]⟩]
/-- Registers of the BKL_ block (03_buckles_transactions.md). -/
def tabBkl : List RegRow := tabBkl0

def tabTxn0 : List RegRow := [
  ⟨"TXN_GLOBAL_STATUS", 0x10050000, [], [⟨6, 0, .ro, 0⟩, ⟨14, 8, .ro, 0⟩]⟩,
  ⟨"TXN_COMMIT_COUNT", 0x10050004, [], [⟨31, 0, .rc, 0⟩]⟩,
  ⟨"TXN_ABORT_COUNT", 0x10050008, [], [⟨31, 0, .rc, 0⟩]⟩,
  ⟨"TXN_SNAP_GO", 0x10050010, [], [⟨7, 0, .wo, 0⟩]⟩,
  ⟨"TXN_SNAP_STATUS", 0x10050014, [], [⟨7, 0, .ro, 0⟩, ⟨15, 8, .w1c, 0⟩]⟩,
  ⟨"TXN_CTRL", 0x10051000, [(0x40, 64)], [⟨3, 0, .wo, 0⟩, ⟨4, 4, .wo, 0⟩]⟩,
  ⟨"TXN_STATUS", 0x10051004, [(0x40, 64)], [⟨2, 0, .ro, 0⟩, ⟨3, 3, .w1c, 0⟩, ⟨7, 4, .ro, 0⟩, ⟨15, 8, .ro, 0⟩, ⟨24, 16, .ro, 0⟩, ⟨25, 25, .ro, 0⟩, ⟨26, 26, .ro, 0⟩]⟩,
  ⟨"TXN_AT_LO", 0x10051008, [(0x40, 64)], [⟨31, 0, .rw, 0⟩]⟩,
  ⟨"TXN_AT_MID", 0x1005100C, [(0x40, 64)], [⟨31, 0, .rw, 0⟩]⟩,
  ⟨"TXN_AT_HI", 0x10051010, [(0x40, 64)], [⟨29, 0, .rw, 0⟩]⟩,
  ⟨"TXN_TIMEOUT", 0x10051014, [(0x40, 64)], [⟨23, 0, .rw, 0x186A0⟩]⟩,
  ⟨"TXN_GUARD", 0x10051018, [(0x40, 64)], [⟨13, 0, .rw, 0⟩, ⟨31, 31, .rw, 0⟩]⟩,
  ⟨"TXN_GUARD_VAL", 0x1005101C, [(0x40, 64)], [⟨31, 0, .rw, 0⟩]⟩,
  ⟨"TXN_DONE", 0x10051020, [(0x40, 64)], [⟨13, 0, .rw, 0⟩, ⟨30, 30, .rw, 0⟩, ⟨31, 31, .rw, 0⟩]⟩,
  ⟨"TXN_STAGE_ADDR_LO", 0x10051024, [(0x40, 64)], [⟨31, 0, .rw, 0⟩]⟩,
  ⟨"TXN_STAGE_ADDR_HI", 0x10051028, [(0x40, 64)], [⟨15, 0, .rw, 0⟩, ⟨17, 16, .rw, 0⟩]⟩]
def tabTxn1 : List RegRow := [
  ⟨"TXN_STAGE_DATA_LO", 0x1005102C, [(0x40, 64)], [⟨31, 0, .rw, 0⟩]⟩,
  ⟨"TXN_STAGE_DATA_HI", 0x10051030, [(0x40, 64)], [⟨31, 0, .rw, 0⟩]⟩,
  ⟨"TXN_STAGE_PUSH", 0x10051034, [(0x40, 64)], [⟨0, 0, .wo, 0⟩]⟩,
  ⟨"TXN_END_BEAT_LO", 0x10051038, [(0x40, 64)], [⟨31, 0, .ro, 0⟩]⟩,
  ⟨"TXN_END_BEAT_HI", 0x1005103C, [(0x40, 64)], [⟨31, 0, .ro, 0⟩]⟩,
  ⟨"TXN_SNAP_CFG", 0x10058000, [(0x100, 8)], [⟨27, 2, .rw, 0⟩]⟩,
  ⟨"TXN_SNAP_LEN", 0x10058004, [(0x100, 8)], [⟨5, 0, .rw, 1⟩]⟩,
  ⟨"TXN_SNAP_BEAT_LO", 0x10058008, [(0x100, 8)], [⟨31, 0, .ro, 0⟩]⟩,
  ⟨"TXN_SNAP_BEAT_HI", 0x1005800C, [(0x100, 8)], [⟨31, 0, .ro, 0⟩]⟩,
  ⟨"TXN_SNAP_DATA", 0x10058080, [(0x100, 8), (0x4, 32)], [⟨31, 0, .ro, 0⟩]⟩]
/-- Registers of the TXN_ block (03_buckles_transactions.md). -/
def tabTxn : List RegRow := tabTxn0 ++ tabTxn1

def tabTmb0 : List RegRow := [
  ⟨"TMB_STATUS", 0x10100000, [], [⟨0, 0, .ro, 0⟩, ⟨1, 1, .w1c, 0⟩, ⟨2, 2, .w1c, 0⟩, ⟨3, 3, .w1c, 0⟩, ⟨4, 4, .w1c, 0⟩, ⟨5, 5, .w1c, 0⟩, ⟨6, 6, .w1c, 0⟩, ⟨7, 7, .w1c, 0⟩]⟩,
  ⟨"TMB_INT_EN", 0x10100004, [], [⟨7, 1, .rw, 0⟩]⟩,
  ⟨"TMB_TIME_SEC_LO", 0x10100010, [], [⟨31, 0, .ro, 0⟩]⟩,
  ⟨"TMB_TIME_SEC_HI", 0x10100014, [], [⟨31, 0, .ro, 0⟩]⟩,
  ⟨"TMB_TIME_NS", 0x10100018, [], [⟨29, 0, .ro, 0⟩]⟩,
  ⟨"TMB_TIME_FRAC", 0x1010001C, [], [⟨15, 0, .ro, 0⟩]⟩,
  ⟨"TMB_BEAT_LO", 0x10100020, [], [⟨31, 0, .ro, 0⟩]⟩,
  ⟨"TMB_BEAT_HI", 0x10100024, [], [⟨31, 0, .ro, 0⟩]⟩,
  ⟨"TMB_RATE_LO", 0x10100028, [], [⟨31, 0, .rw, 0⟩]⟩,
  ⟨"TMB_RATE_HI", 0x1010002C, [], [⟨7, 0, .rw, 0⟩]⟩,
  ⟨"TMB_STEP_NS", 0x10100030, [], [⟨29, 0, .rw, 0⟩]⟩,
  ⟨"TMB_STEP_SEC_LO", 0x10100034, [], [⟨31, 0, .rw, 0⟩]⟩,
  ⟨"TMB_STEP_SEC_HI", 0x10100038, [], [⟨31, 0, .rw, 0⟩]⟩,
  ⟨"TMB_STEP_GO", 0x1010003C, [], [⟨1, 0, .wo, 0⟩]⟩,
  ⟨"TMB_STEP_COUNT", 0x10100040, [], [⟨31, 0, .rc, 0⟩]⟩,
  ⟨"TMB_PPS_CFG", 0x10100050, [], [⟨0, 0, .rw, 0⟩, ⟨1, 1, .rw, 0⟩, ⟨2, 2, .rw, 0⟩, ⟨23, 8, .rw, 100⟩]⟩]
def tabTmb1 : List RegRow := [
  ⟨"TMB_PPS_IN_NS", 0x10100054, [], [⟨29, 0, .ro, 0⟩]⟩,
  ⟨"TMB_PPS_IN_SEC_LO", 0x10100058, [], [⟨31, 0, .ro, 0⟩]⟩,
  ⟨"TMB_PPS_IN_SEC_HI", 0x1010005C, [], [⟨31, 0, .ro, 0⟩]⟩,
  ⟨"TMB_PPS_IN_COUNT", 0x10100060, [], [⟨31, 0, .ro, 0⟩]⟩,
  ⟨"TMB_TRG_CFG", 0x10101000, [(0x40, 16)], [⟨2, 0, .rw, 0⟩, ⟨3, 3, .rw, 0⟩, ⟨4, 4, .rw, 0⟩, ⟨5, 5, .rw, 0⟩, ⟨6, 6, .rw, 0⟩]⟩,
  ⟨"TMB_TRG_TGT_NS", 0x10101004, [(0x40, 16)], [⟨29, 0, .rw, 0⟩]⟩,
  ⟨"TMB_TRG_TGT_SEC_LO", 0x10101008, [(0x40, 16)], [⟨31, 0, .rw, 0⟩]⟩,
  ⟨"TMB_TRG_TGT_SEC_HI", 0x1010100C, [(0x40, 16)], [⟨31, 0, .rw, 0⟩]⟩,
  ⟨"TMB_TRG_PERIOD", 0x10101010, [(0x40, 16)], [⟨31, 0, .rw, 0⟩]⟩,
  ⟨"TMB_TRG_WIDTH", 0x10101014, [(0x40, 16)], [⟨31, 0, .rw, 8⟩]⟩,
  ⟨"TMB_TRG_COUNT", 0x10101018, [(0x40, 16)], [⟨31, 0, .rw, 0⟩]⟩,
  ⟨"TMB_TRG_BKL", 0x1010101C, [(0x40, 16)], [⟨13, 0, .rw, 0⟩]⟩,
  ⟨"TMB_TRG_STATUS", 0x10101020, [(0x40, 16)], [⟨0, 0, .ro, 0⟩, ⟨1, 1, .ro, 0⟩, ⟨2, 2, .w1c, 0⟩, ⟨3, 3, .w1c, 0⟩, ⟨4, 4, .w1c, 0⟩]⟩,
  ⟨"TMB_TRG_MATCHES", 0x10101024, [(0x40, 16)], [⟨31, 0, .ro, 0⟩]⟩,
  ⟨"TMB_TRG_MISSED", 0x10101028, [(0x40, 16)], [⟨31, 0, .rc, 0⟩]⟩,
  ⟨"TMB_CAP_CFG", 0x10102000, [(0x20, 16)], [⟨0, 0, .rw, 0⟩, ⟨2, 1, .rw, 0⟩, ⟨3, 3, .rw, 0⟩, ⟨29, 16, .rw, 0⟩]⟩]
def tabTmb2 : List RegRow := [
  ⟨"TMB_CAP_HEAD_NS", 0x10102004, [(0x20, 16)], [⟨29, 0, .ro, 0⟩, ⟨30, 30, .ro, 0⟩, ⟨31, 31, .ro, 0⟩]⟩,
  ⟨"TMB_CAP_HEAD_SEC_LO", 0x10102008, [(0x20, 16)], [⟨31, 0, .ro, 0⟩]⟩,
  ⟨"TMB_CAP_HEAD_SEC_HI", 0x1010200C, [(0x20, 16)], [⟨31, 0, .ro, 0⟩]⟩,
  ⟨"TMB_CAP_POP", 0x10102010, [(0x20, 16)], [⟨0, 0, .wo, 0⟩]⟩,
  ⟨"TMB_CAP_STATUS", 0x10102014, [(0x20, 16)], [⟨4, 0, .ro, 0⟩, ⟨5, 5, .w1c, 0⟩]⟩,
  ⟨"TMB_CAP_LOST", 0x10102018, [(0x20, 16)], [⟨31, 0, .rc, 0⟩]⟩]
/-- Registers of the TMB_ block (12_time_ingress.md). -/
def tabTmb : List RegRow := tabTmb0 ++ tabTmb1 ++ tabTmb2

def tabIng0 : List RegRow := [
  ⟨"ING_STATUS", 0x10110000, [], [⟨1, 0, .ro, 1⟩, ⟨4, 4, .w1c, 0⟩, ⟨5, 5, .w1c, 0⟩, ⟨6, 6, .w1c, 0⟩, ⟨7, 7, .ro, 0⟩]⟩,
  ⟨"ING_CTRL", 0x10110004, [], [⟨0, 0, .rw, 1⟩]⟩,
  ⟨"ING_INT_EN", 0x10110008, [], [⟨6, 4, .rw, 0⟩]⟩,
  ⟨"ING_COND_FRAMES", 0x1011000C, [], [⟨31, 0, .ro, 0⟩]⟩,
  ⟨"ING_STR_CFG", 0x10111000, [(0x40, 40)], [⟨0, 0, .rw, 0⟩, ⟨3, 1, .rw, 0⟩, ⟨4, 4, .rw, 0⟩, ⟨7, 5, .rw, 0⟩, ⟨8, 8, .rw, 0⟩, ⟨9, 9, .rw, 0⟩, ⟨13, 10, .rw, 0⟩, ⟨14, 14, .rw, 0⟩, ⟨19, 16, .rw, 1⟩]⟩,
  ⟨"ING_STR_SRC", 0x10111004, [(0x40, 40)], [⟨2, 0, .rw, 0⟩, ⟨5, 4, .rw, 0⟩, ⟨13, 8, .rw, 0⟩, ⟨31, 16, .rw, 0⟩]⟩,
  ⟨"ING_STR_GEOM", 0x10111008, [(0x40, 40)], [⟨31, 0, .rw, 0⟩]⟩,
  ⟨"ING_STR_AUX", 0x1011100C, [(0x40, 40)], [⟨31, 0, .rw, 0⟩]⟩,
  ⟨"ING_STR_BUF_LO", 0x10111010, [(0x40, 40)], [⟨31, 0, .rw, 0⟩]⟩,
  ⟨"ING_STR_BUF_HI", 0x10111014, [(0x40, 40)], [⟨15, 0, .rw, 0⟩]⟩,
  ⟨"ING_STR_BUF_SIZE", 0x10111018, [(0x40, 40)], [⟨15, 0, .rw, 0⟩]⟩,
  ⟨"ING_STR_OUT_LO", 0x1011101C, [(0x40, 40)], [⟨31, 0, .rw, 0⟩]⟩,
  ⟨"ING_STR_OUT_HI", 0x10111020, [(0x40, 40)], [⟨15, 0, .rw, 0⟩]⟩,
  ⟨"ING_STR_OUT_SIZE", 0x10111024, [(0x40, 40)], [⟨15, 0, .rw, 0⟩]⟩,
  ⟨"ING_STR_REC_LO", 0x10111028, [(0x40, 40)], [⟨31, 0, .rw, 0⟩]⟩,
  ⟨"ING_STR_REC_HI", 0x1011102C, [(0x40, 40)], [⟨15, 0, .rw, 0⟩]⟩]
def tabIng1 : List RegRow := [
  ⟨"ING_STR_BKL", 0x10111030, [(0x40, 40)], [⟨13, 0, .rw, 0⟩, ⟨29, 16, .rw, 0⟩]⟩,
  ⟨"ING_STR_RELEASE", 0x10111034, [(0x40, 40)], [⟨31, 0, .rw, 0⟩]⟩,
  ⟨"ING_STR_SEQ", 0x10111038, [(0x40, 40)], [⟨31, 0, .ro, 0⟩]⟩,
  ⟨"ING_STR_STATUS", 0x1011103C, [(0x40, 40)], [⟨1, 0, .ro, 0⟩, ⟨4, 4, .w1c, 0⟩, ⟨5, 5, .w1c, 0⟩, ⟨6, 6, .w1c, 0⟩, ⟨7, 7, .w1c, 0⟩]⟩,
  ⟨"ING_STR_DROP_COUNT", 0x10112000, [(0x8, 40)], [⟨31, 0, .rc, 0⟩]⟩,
  ⟨"ING_STR_ERR_COUNT", 0x10112004, [(0x8, 40)], [⟨31, 0, .rc, 0⟩]⟩,
  ⟨"ING_CP_CFG", 0x10114000, [(0x80, 8)], [⟨1, 0, .rw, 0⟩, ⟨7, 4, .rw, 0⟩, ⟨9, 8, .rw, 0⟩, ⟨11, 10, .rw, 0⟩, ⟨13, 12, .rw, 0⟩, ⟨14, 14, .rw, 0⟩]⟩,
  ⟨"ING_CP_BL", 0x10114004, [(0x80, 8), (0x4, 4)], [⟨15, 0, .rw, 0⟩]⟩,
  ⟨"ING_CP_GAIN", 0x10114014, [(0x80, 8), (0x4, 4)], [⟨31, 0, .rw, 0x3F800000⟩]⟩,
  ⟨"ING_CP_M0", 0x10114024, [(0x80, 8)], [⟨31, 0, .rw, 0x3F800000⟩]⟩,
  ⟨"ING_CP_M1", 0x10114028, [(0x80, 8), (0x4, 3)], [⟨31, 0, .rw, 0⟩]⟩,
  ⟨"ING_CP_M4", 0x10114034, [(0x80, 8)], [⟨31, 0, .rw, 0x3F800000⟩]⟩,
  ⟨"ING_CP_M5", 0x10114038, [(0x80, 8), (0x4, 3)], [⟨31, 0, .rw, 0⟩]⟩,
  ⟨"ING_CP_M8", 0x10114044, [(0x80, 8)], [⟨31, 0, .rw, 0x3F800000⟩]⟩,
  ⟨"ING_CP_OFF", 0x10114048, [(0x80, 8), (0x4, 3)], [⟨31, 0, .rw, 0⟩]⟩]
/-- Registers of the ING_ block (12_time_ingress.md). -/
def tabIng : List RegRow := tabIng0 ++ tabIng1

def tabQdr0 : List RegRow := [
  ⟨"QDR_STATUS", 0x10120000, [], [⟨1, 0, .ro, 0⟩, ⟨2, 2, .ro, 0⟩, ⟨4, 4, .w1c, 0⟩, ⟨5, 5, .w1c, 0⟩, ⟨6, 6, .w1c, 0⟩, ⟨7, 7, .w1c, 0⟩, ⟨8, 8, .w1c, 0⟩, ⟨9, 9, .w1c, 0⟩]⟩,
  ⟨"QDR_CTRL", 0x10120004, [], [⟨0, 0, .rw, 0⟩, ⟨1, 1, .wo, 0⟩, ⟨2, 2, .wo, 0⟩]⟩,
  ⟨"QDR_INT_EN", 0x10120008, [], [⟨9, 4, .rw, 0⟩]⟩,
  ⟨"QDR_LAST_ERR", 0x1012000C, [], [⟨7, 0, .ro, 0⟩, ⟨11, 8, .ro, 0⟩, ⟨31, 16, .ro, 0⟩]⟩,
  ⟨"QDR_RING_CFG", 0x10120010, [], [⟨22, 0, .rw, 0⟩, ⟨27, 24, .rw, 4⟩]⟩,
  ⟨"QDR_RING_TAIL", 0x10120014, [], [⟨31, 0, .rw, 0⟩]⟩,
  ⟨"QDR_RING_HEAD", 0x10120018, [], [⟨31, 0, .ro, 0⟩]⟩,
  ⟨"QDR_CAL_SEL", 0x1012001C, [], [⟨0, 0, .rw, 0⟩]⟩,
  ⟨"QDR_CAL_BASE", 0x10120020, [(0x4, 2)], [⟨22, 0, .rw, 0⟩]⟩,
  ⟨"QDR_TRK_CFG", 0x10120028, [], [⟨0, 0, .rw, 0⟩, ⟨1, 1, .rw, 1⟩, ⟨7, 4, .rw, 3⟩, ⟨15, 8, .rw, 5⟩, ⟨31, 16, .rw, 100⟩]⟩,
  ⟨"QDR_GATE", 0x1012002C, [], [⟨31, 0, .rw, 0x41628F5C⟩]⟩,
  ⟨"QDR_Q_CV", 0x10120030, [], [⟨31, 0, .rw, 0x3F800000⟩]⟩,
  ⟨"QDR_Q_CA", 0x10120034, [], [⟨31, 0, .rw, 0x3F800000⟩]⟩,
  ⟨"QDR_INIT_VARP", 0x10120038, [], [⟨31, 0, .rw, 0x3F800000⟩]⟩,
  ⟨"QDR_INIT_VARV", 0x1012003C, [], [⟨31, 0, .rw, 0x3F800000⟩]⟩,
  ⟨"QDR_INIT_VARA", 0x10120040, [], [⟨31, 0, .rw, 0x3F800000⟩]⟩]
def tabQdr1 : List RegRow := [
  ⟨"QDR_SIZE_ALPHA", 0x10120044, [], [⟨31, 0, .rw, 0x3E800000⟩]⟩,
  ⟨"QDR_GRID_CFG", 0x10120048, [], [⟨3, 0, .rw, 8⟩, ⟨31, 16, .rw, 200⟩]⟩,
  ⟨"QDR_GRID_ZLO", 0x1012004C, [], [⟨31, 0, .rw, 0x3E800000⟩]⟩,
  ⟨"QDR_GRID_ZHI", 0x10120050, [], [⟨31, 0, .rw, 0x40000000⟩]⟩,
  ⟨"QDR_PUB_CFG", 0x10120054, [], [⟨1, 0, .rw, 1⟩, ⟨2, 2, .rw, 0⟩]⟩,
  ⟨"QDR_PUB_BASE", 0x10120058, [], [⟨22, 0, .rw, 0⟩]⟩,
  ⟨"QDR_PUB_BKL", 0x1012005C, [], [⟨13, 0, .rw, 0⟩, ⟨29, 16, .rw, 0⟩]⟩,
  ⟨"QDR_PUB_RELEASE", 0x10120060, [], [⟨31, 0, .rw, 0⟩]⟩,
  ⟨"QDR_TRACKS", 0x10120064, [], [⟨10, 0, .ro, 0⟩, ⟨26, 16, .ro, 0⟩]⟩,
  ⟨"QDR_JOB_COUNT", 0x10120080, [], [⟨31, 0, .ro, 0⟩]⟩,
  ⟨"QDR_PT_NAN_COUNT", 0x10120084, [], [⟨31, 0, .rc, 0⟩]⟩,
  ⟨"QDR_PT_OUT_COUNT", 0x10120088, [], [⟨31, 0, .rc, 0⟩]⟩,
  ⟨"QDR_DET_BAD_COUNT", 0x1012008C, [], [⟨31, 0, .rc, 0⟩]⟩,
  ⟨"QDR_TRACK_REFUSED_COUNT", 0x10120090, [], [⟨31, 0, .rc, 0⟩]⟩,
  ⟨"QDR_TRACK_DELETED_COUNT", 0x10120094, [], [⟨31, 0, .rc, 0⟩]⟩,
  ⟨"QDR_OOSM_COUNT", 0x10120098, [], [⟨31, 0, .rc, 0⟩]⟩]
def tabQdr2 : List RegRow := [
  ⟨"QDR_PUB_SKIP_COUNT", 0x1012009C, [], [⟨31, 0, .rc, 0⟩]⟩,
  ⟨"QDR_SRC_VARXY", 0x10120100, [(0x8, 16)], [⟨31, 0, .rw, 0x3C23D70A⟩]⟩,
  ⟨"QDR_SRC_VARZ", 0x10120104, [(0x8, 16)], [⟨31, 0, .rw, 0x3C23D70A⟩]⟩]
/-- Registers of the QDR_ block (13_quadrille_fusion.md). -/
def tabQdr : List RegRow := tabQdr0 ++ tabQdr1 ++ tabQdr2

def tabStp0 : List RegRow := [
  ⟨"STP_ENG_STATUS0", 0x10130000, [], [⟨1, 0, .ro, 0⟩, ⟨3, 2, .ro, 1⟩, ⟨5, 4, .ro, 0⟩, ⟨8, 8, .w1c, 0⟩, ⟨9, 9, .w1c, 0⟩, ⟨10, 10, .w1c, 0⟩]⟩,
  ⟨"STP_ENG_STATUS1", 0x10140000, [], [⟨1, 0, .ro, 0⟩, ⟨3, 2, .ro, 1⟩, ⟨5, 4, .ro, 1⟩, ⟨8, 8, .w1c, 0⟩, ⟨9, 9, .w1c, 0⟩, ⟨10, 10, .w1c, 0⟩]⟩,
  ⟨"STP_ENG_STATUS2", 0x10150000, [], [⟨1, 0, .ro, 0⟩, ⟨3, 2, .ro, 1⟩, ⟨5, 4, .ro, 2⟩, ⟨8, 8, .w1c, 0⟩, ⟨9, 9, .w1c, 0⟩, ⟨10, 10, .w1c, 0⟩]⟩,
  ⟨"STP_ENG_STATUS3", 0x10160000, [], [⟨1, 0, .ro, 0⟩, ⟨3, 2, .ro, 1⟩, ⟨5, 4, .ro, 3⟩, ⟨8, 8, .w1c, 0⟩, ⟨9, 9, .w1c, 0⟩, ⟨10, 10, .w1c, 0⟩]⟩,
  ⟨"STP_ENG_STATUS4", 0x10170000, [], [⟨1, 0, .ro, 1⟩, ⟨3, 2, .ro, 0⟩, ⟨5, 4, .ro, 0⟩, ⟨8, 8, .w1c, 0⟩, ⟨9, 9, .w1c, 0⟩, ⟨10, 10, .w1c, 0⟩]⟩,
  ⟨"STP_ENG_CTRL", 0x10130004, [(0x10000, 5)], [⟨0, 0, .rw, 1⟩, ⟨1, 1, .wo, 0⟩, ⟨2, 2, .wo, 0⟩, ⟨5, 4, .rw, 0⟩]⟩,
  ⟨"STP_ENG_IMAGE", 0x10130008, [(0x10000, 5)], [⟨15, 0, .load, 0⟩, ⟨16, 16, .load, 0⟩]⟩,
  ⟨"STP_ENG_SHADOW_SAMPLES", 0x1013000C, [(0x10000, 5)], [⟨31, 0, .ro, 0⟩]⟩,
  ⟨"STP_ENG_SHADOW_MISMATCH", 0x10130010, [(0x10000, 5)], [⟨31, 0, .ro, 0⟩]⟩,
  ⟨"STP_ENG_FAULT_COUNT", 0x10130014, [(0x10000, 5)], [⟨31, 0, .rc, 0⟩]⟩,
  ⟨"STP_GRP_MAP", 0x10130100, [], [⟨2, 0, .ro, 0⟩, ⟨6, 4, .ro, 1⟩, ⟨10, 8, .ro, 2⟩, ⟨14, 12, .ro, 3⟩, ⟨18, 16, .ro, 4⟩]⟩,
  ⟨"STP_GCFG", 0x10130104, [], [⟨0, 0, .rw, 1⟩]⟩,
  ⟨"STP_SHADOW_MIN", 0x10130108, [], [⟨23, 0, .rw, 0x4E20⟩]⟩,
  ⟨"STP_HANDOVER", 0x1013010C, [], [⟨1, 0, .rw, 0⟩, ⟨6, 4, .rw, 0⟩, ⟨8, 8, .rw, 0⟩, ⟨31, 31, .wo, 0⟩]⟩,
  ⟨"STP_HANDOVER_STATUS", 0x10130110, [], [⟨0, 0, .w1c, 0⟩, ⟨1, 1, .w1c, 0⟩, ⟨7, 4, .ro, 0⟩]⟩,
  ⟨"STP_HANDOVER_BEAT_LO", 0x10130114, [], [⟨31, 0, .ro, 0⟩]⟩]
def tabStp1 : List RegRow := [
  ⟨"STP_HANDOVER_BEAT_HI", 0x10130118, [], [⟨31, 0, .ro, 0⟩]⟩,
  ⟨"STP_INT_EN", 0x1013011C, [], [⟨0, 0, .rw, 0⟩, ⟨1, 1, .rw, 0⟩, ⟨2, 2, .rw, 0⟩]⟩,
  ⟨"STP_SAFE_PEND", 0x10130120, [(0x4, 4)], [⟨31, 0, .ro, 0⟩]⟩,
  ⟨"STP_L_CFG", 0x10131000, [(0x10000, 4), (0x100, 32)], [⟨0, 0, .rw, 0⟩, ⟨1, 1, .rw, 0⟩, ⟨2, 2, .rw, 0⟩, ⟨4, 3, .rw, 1⟩, ⟨5, 5, .rw, 0⟩, ⟨6, 6, .rw, 0⟩, ⟨8, 7, .rw, 0⟩, ⟨9, 9, .rw, 0⟩, ⟨14, 10, .rw, 0⟩]⟩,
  ⟨"STP_L_PERIOD", 0x10131004, [(0x10000, 4), (0x100, 32)], [⟨23, 0, .rw, 125⟩]⟩,
  ⟨"STP_L_PHASE", 0x10131008, [(0x10000, 4), (0x100, 32)], [⟨23, 0, .rw, 0⟩]⟩,
  ⟨"STP_L_IO", 0x1013100C, [(0x10000, 4), (0x100, 32)], [⟨2, 0, .rw, 0⟩, ⟨7, 3, .rw, 0⟩, ⟨12, 8, .rw, 0⟩, ⟨17, 16, .rw, 0⟩, ⟨24, 18, .rw, 0⟩]⟩,
  ⟨"STP_L_FB_ADDR", 0x10131010, [(0x10000, 4), (0x100, 32)], [⟨22, 0, .rw, 0⟩]⟩,
  ⟨"STP_L_OUT_ADDR", 0x10131014, [(0x10000, 4), (0x100, 32)], [⟨22, 0, .rw, 0⟩]⟩,
  ⟨"STP_L_SP", 0x10131018, [(0x10000, 4), (0x100, 32)], [⟨31, 0, .rw, 0⟩]⟩,
  ⟨"STP_L_FF", 0x1013101C, [(0x10000, 4), (0x100, 32)], [⟨31, 0, .rw, 0⟩]⟩,
  ⟨"STP_L_KP", 0x10131020, [(0x10000, 4), (0x100, 32)], [⟨31, 0, .rw, 0⟩]⟩,
  ⟨"STP_L_KI", 0x10131024, [(0x10000, 4), (0x100, 32)], [⟨31, 0, .rw, 0⟩]⟩,
  ⟨"STP_L_KDA", 0x10131028, [(0x10000, 4), (0x100, 32)], [⟨31, 0, .rw, 0⟩]⟩,
  ⟨"STP_L_KDB", 0x1013102C, [(0x10000, 4), (0x100, 32)], [⟨31, 0, .rw, 0⟩]⟩,
  ⟨"STP_L_KFF", 0x10131030, [(0x10000, 4), (0x100, 32)], [⟨31, 0, .rw, 0⟩]⟩]
def tabStp2 : List RegRow := [
  ⟨"STP_L_KAW", 0x10131034, [(0x10000, 4), (0x100, 32)], [⟨31, 0, .rw, 0⟩]⟩,
  ⟨"STP_L_KR", 0x10131038, [(0x10000, 4), (0x100, 32)], [⟨31, 0, .rw, 0⟩]⟩,
  ⟨"STP_L_QF", 0x1013103C, [(0x10000, 4), (0x100, 32)], [⟨31, 0, .rw, 0⟩]⟩,
  ⟨"STP_L_SHIFT", 0x10131040, [(0x10000, 4), (0x100, 32)], [⟨3, 0, .rw, 0⟩, ⟨7, 4, .rw, 0⟩, ⟨11, 8, .rw, 0⟩, ⟨15, 12, .rw, 0⟩, ⟨19, 16, .rw, 0⟩, ⟨23, 20, .rw, 0⟩]⟩,
  ⟨"STP_L_IMIN", 0x10131044, [(0x10000, 4), (0x100, 32)], [⟨31, 0, .rw, 0x80000001⟩]⟩,
  ⟨"STP_L_IMAX", 0x10131048, [(0x10000, 4), (0x100, 32)], [⟨31, 0, .rw, 0x7FFFFFFF⟩]⟩,
  ⟨"STP_L_OMIN", 0x1013104C, [(0x10000, 4), (0x100, 32)], [⟨31, 0, .rw, 0x80000001⟩]⟩,
  ⟨"STP_L_OMAX", 0x10131050, [(0x10000, 4), (0x100, 32)], [⟨31, 0, .rw, 0x7FFFFFFF⟩]⟩,
  ⟨"STP_L_RATE", 0x10131054, [(0x10000, 4), (0x100, 32)], [⟨31, 0, .rw, 0⟩]⟩,
  ⟨"STP_L_RAMP", 0x10131058, [(0x10000, 4), (0x100, 32)], [⟨31, 0, .rw, 0⟩]⟩,
  ⟨"STP_L_WDOG", 0x1013105C, [(0x10000, 4), (0x100, 32)], [⟨7, 0, .rw, 1⟩, ⟨31, 16, .rw, 0⟩]⟩,
  ⟨"STP_L_FREEZE_EMIN", 0x10131060, [(0x10000, 4), (0x100, 32)], [⟨31, 0, .rw, 0⟩]⟩,
  ⟨"STP_L_WALTZ_CFG", 0x10131064, [(0x10000, 4), (0x100, 32)], [⟨11, 0, .rw, 1⟩, ⟨27, 16, .rw, 0⟩]⟩,
  ⟨"STP_L_WALTZ_BASE", 0x10131068, [(0x10000, 4), (0x100, 32)], [⟨12, 0, .rw, 0⟩]⟩,
  ⟨"STP_L_WALTZ_IDX", 0x1013106C, [(0x10000, 4), (0x100, 32)], [⟨11, 0, .rw, 0⟩]⟩,
  ⟨"STP_L_TRAJ_BASE", 0x10131070, [(0x10000, 4), (0x100, 32)], [⟨22, 0, .rw, 0⟩]⟩]
def tabStp3 : List RegRow := [
  ⟨"STP_L_TRAJ_LEN", 0x10131074, [(0x10000, 4), (0x100, 32)], [⟨16, 0, .rw, 1⟩]⟩,
  ⟨"STP_L_TRAJ_START_LO", 0x10131078, [(0x10000, 4), (0x100, 32)], [⟨31, 0, .rw, 0⟩]⟩,
  ⟨"STP_L_TRAJ_START_HI", 0x1013107C, [(0x10000, 4), (0x100, 32)], [⟨31, 0, .rw, 0⟩]⟩,
  ⟨"STP_L_CTRL", 0x10131080, [(0x10000, 4), (0x100, 32)], [⟨0, 0, .wo, 0⟩, ⟨1, 1, .wo, 0⟩]⟩,
  ⟨"STP_L_STATUS", 0x10131084, [(0x10000, 4), (0x100, 32)], [⟨1, 0, .ro, 0⟩, ⟨5, 2, .ro, 0⟩, ⟨6, 6, .ro, 0⟩, ⟨7, 7, .ro, 0⟩, ⟨8, 8, .ro, 0⟩, ⟨9, 9, .ro, 0⟩, ⟨10, 10, .w1c, 0⟩, ⟨11, 11, .w1c, 0⟩, ⟨12, 12, .w1c, 0⟩]⟩,
  ⟨"STP_L_OUT", 0x10131088, [(0x10000, 4), (0x100, 32)], [⟨31, 0, .ro, 0⟩]⟩,
  ⟨"STP_L_I", 0x1013108C, [(0x10000, 4), (0x100, 32)], [⟨31, 0, .ro, 0⟩]⟩,
  ⟨"STP_L_D", 0x10131090, [(0x10000, 4), (0x100, 32)], [⟨31, 0, .ro, 0⟩]⟩,
  ⟨"STP_L_ERR", 0x10131094, [(0x10000, 4), (0x100, 32)], [⟨31, 0, .ro, 0⟩]⟩,
  ⟨"STP_L_FBV", 0x10131098, [(0x10000, 4), (0x100, 32)], [⟨31, 0, .ro, 0⟩]⟩,
  ⟨"STP_L_SAMPLES", 0x1013109C, [(0x10000, 4), (0x100, 32)], [⟨31, 0, .ro, 0⟩]⟩,
  ⟨"STP_L_MISSES", 0x101310A0, [(0x10000, 4), (0x100, 32)], [⟨31, 0, .rc, 0⟩]⟩,
  ⟨"STP_L_SKIPPED", 0x101310A4, [(0x10000, 4), (0x100, 32)], [⟨31, 0, .rc, 0⟩]⟩,
  ⟨"STP_L_LAST_BEAT_LO", 0x101310A8, [(0x10000, 4), (0x100, 32)], [⟨31, 0, .ro, 0⟩]⟩,
  ⟨"STP_L_LAST_BEAT_HI", 0x101310AC, [(0x10000, 4), (0x100, 32)], [⟨31, 0, .ro, 0⟩]⟩,
  ⟨"STP_WALTZ", 0x10138000, [(0x10000, 4), (0x4, 8192)], [⟨31, 0, .rw, 0⟩]⟩]
/-- Registers of the STP_ block (14_stirrup_control.md). -/
def tabStp : List RegRow := tabStp0 ++ tabStp1 ++ tabStp2 ++ tabStp3

def tabMio0 : List RegRow := [
  ⟨"MIO_STATUS", 0x10180000, [], [⟨1, 0, .ro, 1⟩, ⟨4, 4, .w1c, 0⟩, ⟨5, 5, .w1c, 0⟩, ⟨6, 6, .ro, 0⟩, ⟨7, 7, .w1c, 0⟩]⟩,
  ⟨"MIO_CTRL", 0x10180004, [], [⟨0, 0, .rw, 1⟩, ⟨12, 8, .rw, 20⟩]⟩,
  ⟨"MIO_INT_EN", 0x10180008, [], [⟨7, 4, .rw, 0⟩]⟩,
  ⟨"MIO_LIM_RAW", 0x10180010, [], [⟨31, 0, .ro, 0⟩]⟩,
  ⟨"MIO_LIM_STATE", 0x10180014, [], [⟨31, 0, .ro, 0⟩]⟩,
  ⟨"MIO_ENC_CFG", 0x10180100, [(0x20, 16)], [⟨0, 0, .rw, 0⟩, ⟨1, 1, .rw, 0⟩, ⟨5, 2, .rw, 0⟩, ⟨6, 6, .rw, 0⟩, ⟨8, 7, .rw, 0⟩, ⟨10, 9, .rw, 0⟩, ⟨11, 11, .rw, 0⟩, ⟨27, 16, .rw, 0⟩]⟩,
  ⟨"MIO_ENC_COUNT", 0x10180104, [(0x20, 16)], [⟨31, 0, .rw, 0⟩]⟩,
  ⟨"MIO_ENC_RAW", 0x10180108, [(0x20, 16)], [⟨31, 0, .ro, 0⟩]⟩,
  ⟨"MIO_ENC_CPR", 0x1018010C, [(0x20, 16)], [⟨23, 0, .rw, 0⟩]⟩,
  ⟨"MIO_ENC_INDEX_REF", 0x10180110, [(0x20, 16)], [⟨31, 0, .rw, 0⟩]⟩,
  ⟨"MIO_ENC_INDEX_POS", 0x10180114, [(0x20, 16)], [⟨31, 0, .ro, 0⟩]⟩,
  ⟨"MIO_ENC_INDEX_DEV", 0x10180118, [(0x20, 16)], [⟨31, 0, .ro, 0⟩]⟩,
  ⟨"MIO_ENC_STATUS", 0x1018011C, [(0x20, 16)], [⟨0, 0, .w1c, 0⟩, ⟨1, 1, .w1c, 0⟩, ⟨2, 2, .w1c, 0⟩, ⟨3, 3, .w1c, 0⟩, ⟨31, 16, .ro, 0⟩]⟩,
  ⟨"MIO_ABS_CFG", 0x10180300, [(0x20, 8)], [⟨0, 0, .rw, 0⟩, ⟨5, 1, .rw, 7⟩, ⟨6, 6, .rw, 0⟩, ⟨7, 7, .rw, 0⟩, ⟨8, 8, .rw, 0⟩, ⟨18, 9, .rw, 6⟩, ⟨24, 19, .rw, 0⟩, ⟨31, 25, .rw, 3⟩]⟩,
  ⟨"MIO_ABS_PERIOD", 0x10180304, [(0x20, 8)], [⟨23, 0, .rw, 0x1E848⟩]⟩,
  ⟨"MIO_ABS_PHASE", 0x10180308, [(0x20, 8)], [⟨23, 0, .rw, 0⟩]⟩]
def tabMio1 : List RegRow := [
  ⟨"MIO_ABS_OFFSET", 0x1018030C, [(0x20, 8)], [⟨31, 0, .rw, 0⟩]⟩,
  ⟨"MIO_ABS_POS", 0x10180310, [(0x20, 8)], [⟨31, 0, .ro, 0⟩]⟩,
  ⟨"MIO_ABS_MAX_STEP", 0x10180314, [(0x20, 8)], [⟨31, 0, .rw, 0⟩]⟩,
  ⟨"MIO_ABS_STATUS", 0x10180318, [(0x20, 8)], [⟨0, 0, .w1c, 0⟩, ⟨1, 1, .ro, 0⟩]⟩,
  ⟨"MIO_ABS_ERR_COUNT", 0x1018031C, [(0x20, 8)], [⟨31, 0, .rc, 0⟩]⟩,
  ⟨"MIO_PWM_CFG", 0x10180400, [(0x40, 24)], [⟨1, 0, .rw, 0⟩, ⟨2, 2, .rw, 0⟩, ⟨3, 3, .rw, 0⟩, ⟨4, 4, .rw, 0⟩, ⟨5, 5, .rw, 0⟩, ⟨6, 6, .rw, 0⟩, ⟨12, 8, .rw, 0⟩]⟩,
  ⟨"MIO_PWM_PERIOD", 0x10180404, [(0x40, 24)], [⟨16, 0, .rw, 0x30D4⟩]⟩,
  ⟨"MIO_PWM_TIMING", 0x10180408, [(0x40, 24)], [⟨9, 0, .rw, 100⟩, ⟨31, 15, .rw, 0⟩]⟩,
  ⟨"MIO_PWM_DUTY", 0x1018040C, [(0x40, 24)], [⟨31, 0, .rw, 0⟩]⟩,
  ⟨"MIO_PWM_HI_ON", 0x10180410, [(0x40, 24)], [⟨19, 0, .rw, 0⟩]⟩,
  ⟨"MIO_PWM_HI_OFF", 0x10180414, [(0x40, 24)], [⟨19, 0, .rw, 0⟩]⟩,
  ⟨"MIO_PWM_LO_ON", 0x10180418, [(0x40, 24)], [⟨19, 0, .rw, 0⟩]⟩,
  ⟨"MIO_PWM_LO_OFF", 0x1018041C, [(0x40, 24)], [⟨19, 0, .rw, 0⟩]⟩,
  ⟨"MIO_PWM_STATUS", 0x10180420, [(0x40, 24)], [⟨0, 0, .w1c, 0⟩, ⟨1, 1, .ro, 0⟩, ⟨2, 2, .ro, 0⟩]⟩,
  ⟨"MIO_PWM_REFUSED_COUNT", 0x10180424, [(0x40, 24)], [⟨31, 0, .rc, 0⟩]⟩,
  ⟨"MIO_LIM_CFG", 0x10180A00, [(0x4, 32)], [⟨0, 0, .rw, 0⟩, ⟨8, 1, .rw, 1⟩, ⟨12, 9, .rw, 0⟩, ⟨14, 13, .rw, 0⟩, ⟨15, 15, .rw, 0⟩, ⟨20, 16, .rw, 0⟩, ⟨21, 21, .rw, 0⟩, ⟨29, 22, .rw, 0⟩]⟩]
def tabMio2 : List RegRow := [
  ⟨"MIO_LIM_STATUS", 0x10180A80, [(0x4, 32)], [⟨0, 0, .ro, 0⟩, ⟨1, 1, .w1c, 0⟩, ⟨2, 2, .w1c, 0⟩, ⟨15, 8, .ro, 0⟩]⟩,
  ⟨"MIO_AX_CFG", 0x10180B00, [(0x8, 32)], [⟨1, 0, .rw, 0⟩, ⟨5, 2, .rw, 0⟩]⟩,
  ⟨"MIO_AX_STATUS", 0x10180B04, [(0x8, 32)], [⟨0, 0, .ro, 0⟩, ⟨5, 1, .w1c, 0⟩]⟩,
  ⟨"MIO_HOME_CFG", 0x10180C00, [], [⟨4, 0, .rw, 0⟩, ⟨12, 8, .rw, 0⟩, ⟨17, 16, .rw, 0⟩, ⟨18, 18, .rw, 0⟩, ⟨19, 19, .rw, 1⟩, ⟨30, 24, .rw, 0⟩]⟩,
  ⟨"MIO_HOME_STEP", 0x10180C04, [], [⟨31, 0, .rw, 0⟩]⟩,
  ⟨"MIO_HOME_ISTEP", 0x10180C08, [], [⟨31, 0, .rw, 0⟩]⟩,
  ⟨"MIO_HOME_TRAVEL", 0x10180C0C, [], [⟨31, 0, .rw, 0⟩]⟩,
  ⟨"MIO_HOME_POS", 0x10180C10, [], [⟨31, 0, .rw, 0⟩]⟩,
  ⟨"MIO_HOME_CTRL", 0x10180C14, [], [⟨0, 0, .wo, 0⟩, ⟨1, 1, .wo, 0⟩]⟩,
  ⟨"MIO_HOME_STATUS", 0x10180C18, [], [⟨2, 0, .ro, 0⟩, ⟨7, 4, .ro, 0⟩, ⟨8, 8, .w1c, 0⟩, ⟨9, 9, .w1c, 0⟩]⟩,
  ⟨"MIO_UART_CFG", 0x10180D00, [(0x20, 4)], [⟨15, 0, .rw, 434⟩, ⟨16, 16, .rw, 1⟩, ⟨17, 17, .rw, 0⟩, ⟨18, 18, .rw, 0⟩, ⟨19, 19, .rw, 0⟩, ⟨20, 20, .rw, 0⟩]⟩,
  ⟨"MIO_UART_RX", 0x10180D04, [(0x20, 4)], [⟨7, 0, .ro, 0⟩, ⟨8, 8, .ro, 0⟩, ⟨9, 9, .ro, 0⟩, ⟨31, 31, .ro, 0⟩]⟩,
  ⟨"MIO_UART_POP", 0x10180D08, [(0x20, 4)], [⟨0, 0, .wo, 0⟩]⟩,
  ⟨"MIO_UART_TX", 0x10180D0C, [(0x20, 4)], [⟨7, 0, .wo, 0⟩]⟩,
  ⟨"MIO_UART_STATUS", 0x10180D10, [(0x20, 4)], [⟨6, 0, .ro, 0⟩, ⟨14, 8, .ro, 0⟩, ⟨16, 16, .w1c, 0⟩]⟩,
  ⟨"MIO_UART_ERR_COUNT", 0x10180D14, [(0x20, 4)], [⟨31, 0, .rc, 0⟩]⟩]
/-- Registers of the MIO_ block (15_motion_io.md). -/
def tabMio : List RegRow := tabMio0 ++ tabMio1 ++ tabMio2

def tabSsu0 : List RegRow := [
  ⟨"SSU_STATUS", 0x10190000, [], [⟨1, 0, .ro, 0⟩, ⟨4, 2, .ro, 0⟩, ⟨5, 5, .w1c, 0⟩, ⟨6, 6, .w1c, 0⟩, ⟨7, 7, .w1c, 0⟩]⟩,
  ⟨"SSU_CTRL", 0x10190004, [], [⟨0, 0, .rw, 1⟩]⟩,
  ⟨"SSU_INT_EN", 0x10190008, [], [⟨7, 5, .rw, 0⟩]⟩,
  ⟨"SSU_LAST_ERR", 0x1019000C, [], [⟨7, 0, .ro, 0⟩, ⟨10, 8, .ro, 0⟩]⟩,
  ⟨"SSU_SOLVE_COUNT", 0x10190010, [], [⟨31, 0, .ro, 0⟩]⟩,
  ⟨"SSU_FAIL_COUNT", 0x10190014, [], [⟨31, 0, .rc, 0⟩]⟩,
  ⟨"SSU_OVERLAP_COUNT", 0x10190018, [], [⟨31, 0, .rc, 0⟩]⟩,
  ⟨"SSU_P_DESC", 0x10190100, [(0x20, 8)], [⟨22, 0, .rw, 0⟩]⟩,
  ⟨"SSU_P_START", 0x10190104, [(0x20, 8)], [⟨0, 0, .rw, 0⟩, ⟨4, 1, .rw, 0⟩]⟩,
  ⟨"SSU_P_CTRL", 0x10190108, [(0x20, 8)], [⟨0, 0, .wo, 0⟩, ⟨1, 1, .wo, 0⟩]⟩,
  ⟨"SSU_P_STATUS", 0x1019010C, [(0x20, 8)], [⟨1, 0, .ro, 0⟩, ⟨2, 2, .ro, 0⟩, ⟨3, 3, .w1c, 0⟩, ⟨15, 8, .ro, 0⟩]⟩,
  ⟨"SSU_P_SEQ", 0x10190110, [(0x20, 8)], [⟨31, 0, .ro, 0⟩]⟩,
  ⟨"SSU_P_LAST", 0x10190114, [(0x20, 8)], [⟨7, 0, .ro, 0⟩, ⟨20, 8, .ro, 0⟩]⟩]
/-- Registers of the SSU_ block (16_sparse_solver.md). -/
def tabSsu : List RegRow := tabSsu0

def tabCin0 : List RegRow := [
  ⟨"CIN_STATUS", 0x10200000, [], [⟨1, 0, .ro, 0⟩, ⟨2, 2, .ro, 1⟩, ⟨3, 3, .ro, 1⟩, ⟨4, 4, .w1c, 0⟩, ⟨5, 5, .w1c, 0⟩, ⟨6, 6, .w1c, 0⟩, ⟨7, 7, .w1c, 0⟩, ⟨8, 8, .w1c, 0⟩, ⟨9, 9, .w1c, 0⟩, ⟨10, 10, .ro, 0⟩, ⟨11, 11, .ro, 0⟩]⟩,
  ⟨"CIN_CTRL", 0x10200004, [], [⟨0, 0, .wo, 0⟩, ⟨1, 1, .wo, 0⟩, ⟨2, 2, .wo, 0⟩, ⟨3, 3, .wo, 0⟩, ⟨15, 8, .wo, 0⟩]⟩,
  ⟨"CIN_REQ", 0x10200008, [], [⟨0, 0, .w1s, 0⟩, ⟨1, 1, .w1s, 0⟩, ⟨2, 2, .rw, 0⟩]⟩,
  ⟨"CIN_INT_EN", 0x1020000C, [], [⟨11, 4, .rw, 0⟩]⟩,
  ⟨"CIN_FAULT", 0x10200010, [], [⟨7, 0, .ro, 0⟩, ⟨15, 8, .ro, 0⟩, ⟨26, 16, .ro, 0⟩]⟩,
  ⟨"CIN_FAULT_BEAT_LO", 0x10200014, [], [⟨31, 0, .ro, 0⟩]⟩,
  ⟨"CIN_FAULT_BEAT_HI", 0x10200018, [], [⟨31, 0, .ro, 0⟩]⟩,
  ⟨"CIN_WDOG_CFG", 0x1020001C, [], [⟨15, 0, .rw, 0⟩, ⟨31, 16, .rw, 0x3E8⟩]⟩,
  ⟨"CIN_WDOG_KICK", 0x10200020, [], [⟨15, 0, .wo, 0⟩]⟩,
  ⟨"CIN_OUT_CFG", 0x10200024, [], [⟨0, 0, .rw, 0⟩, ⟨31, 16, .rw, 0xFFFF⟩]⟩,
  ⟨"CIN_OUT_STATUS", 0x10200028, [], [⟨0, 0, .ro, 0⟩, ⟨1, 1, .ro, 0⟩, ⟨2, 2, .ro, 0⟩, ⟨3, 3, .ro, 0⟩, ⟨4, 4, .ro, 0⟩, ⟨5, 5, .ro, 0⟩]⟩,
  ⟨"CIN_BEAT_MON", 0x1020002C, [], [⟨7, 0, .rw, 6⟩]⟩,
  ⟨"CIN_VREQ", 0x10200030, [], [⟨5, 0, .ro, 0⟩, ⟨9, 9, .ro, 0⟩, ⟨10, 10, .ro, 0⟩, ⟨11, 11, .ro, 0⟩, ⟨24, 16, .ro, 0⟩, ⟨31, 31, .ro, 0⟩]⟩,
  ⟨"CIN_VERDICT", 0x10200034, [], [⟨5, 0, .wo, 0⟩, ⟨8, 8, .wo, 0⟩, ⟨23, 16, .wo, 0⟩]⟩,
  ⟨"CIN_VETO_LAST", 0x10200038, [], [⟨5, 0, .ro, 0⟩, ⟨11, 8, .ro, 0⟩, ⟨23, 16, .ro, 0⟩, ⟨31, 24, .ro, 0⟩]⟩,
  ⟨"CIN_VOUCH_COUNT", 0x1020003C, [], [⟨31, 0, .ro, 0⟩]⟩]
def tabCin1 : List RegRow := [
  ⟨"CIN_VETO_COUNT", 0x10200040, [], [⟨31, 0, .ro, 0⟩]⟩,
  ⟨"CIN_BYPASS_COUNT", 0x10200044, [], [⟨31, 0, .ro, 0⟩]⟩,
  ⟨"CIN_FRAME_CFG", 0x10200050, [], [⟨1, 0, .rw, 0⟩, ⟨3, 2, .rw, 0⟩, ⟨4, 4, .rw, 0⟩]⟩,
  ⟨"CIN_FRAME_PERIOD", 0x10200054, [], [⟨23, 0, .rw, 0x4C4B40⟩]⟩,
  ⟨"CIN_FRAME_PHASE", 0x10200058, [], [⟨23, 0, .rw, 0⟩]⟩,
  ⟨"CIN_FRAME_DEADLINE", 0x1020005C, [], [⟨23, 0, .rw, 0x487AB0⟩]⟩,
  ⟨"CIN_FRAME_STATUS", 0x10200060, [], [⟨0, 0, .ro, 0⟩, ⟨1, 1, .ro, 0⟩, ⟨2, 2, .ro, 0⟩, ⟨3, 3, .ro, 0⟩, ⟨4, 4, .ro, 0⟩, ⟨15, 8, .ro, 0⟩, ⟨31, 16, .ro, 0⟩]⟩,
  ⟨"CIN_FRAME_NUM", 0x10200064, [], [⟨31, 0, .ro, 0⟩]⟩,
  ⟨"CIN_FRAME_MISS_COUNT", 0x10200068, [], [⟨31, 0, .ro, 0⟩]⟩,
  ⟨"CIN_GOLD_CFG", 0x1020006C, [], [⟨3, 0, .rw, 0⟩, ⟨19, 16, .rw, 0⟩]⟩,
  ⟨"CIN_GOLD_WIN", 0x10200070, [], [⟨13, 0, .rw, 0⟩, ⟨29, 16, .rw, 0⟩]⟩,
  ⟨"CIN_CHK_CFG", 0x10200074, [], [⟨15, 0, .rw, 1⟩, ⟨17, 16, .rw, 1⟩]⟩,
  ⟨"CIN_RP_BASE", 0x10200080, [], [⟨19, 6, .rw, 0⟩]⟩,
  ⟨"CIN_RP_SIZE", 0x10200084, [], [⟨19, 6, .rw, 0⟩]⟩,
  ⟨"CIN_RP_WR", 0x10200088, [], [⟨19, 6, .ro, 0⟩]⟩,
  ⟨"CIN_RP_RD", 0x1020008C, [], [⟨19, 6, .rw, 0⟩]⟩]
def tabCin2 : List RegRow := [
  ⟨"CIN_RP_DROP_COUNT", 0x10200090, [], [⟨31, 0, .ro, 0⟩]⟩,
  ⟨"CIN_GRID_CFG", 0x10200094, [], [⟨0, 0, .rw, 0⟩, ⟨19, 6, .rw, 0⟩, ⟨31, 20, .rw, 50⟩]⟩,
  ⟨"CIN_GRID_STATUS", 0x10200098, [], [⟨0, 0, .ro, 0⟩, ⟨1, 1, .ro, 0⟩, ⟨31, 8, .ro, 0⟩]⟩,
  ⟨"CIN_SEAL_BASE_LO", 0x10200400, [(0x10, 16)], [⟨31, 6, .rw, 0⟩]⟩,
  ⟨"CIN_SEAL_BASE_HI", 0x10200404, [(0x10, 16)], [⟨15, 0, .rw, 0⟩]⟩,
  ⟨"CIN_SEAL_SIZE", 0x10200408, [(0x10, 16)], [⟨24, 6, .rw, 0⟩]⟩,
  ⟨"CIN_SEAL_CTRL", 0x1020040C, [(0x10, 16)], [⟨0, 0, .rw, 0⟩, ⟨1, 1, .ro, 0⟩, ⟨2, 2, .wo, 0⟩, ⟨13, 8, .ro, 0⟩]⟩,
  ⟨"CIN_VD_ADDR", 0x10201000, [(0x20, 128)], [⟨31, 0, .rw, 0⟩]⟩,
  ⟨"CIN_VD_SHAPE", 0x10201004, [(0x20, 128)], [⟨7, 0, .rw, 0⟩, ⟨23, 8, .rw, 4⟩, ⟨25, 24, .rw, 0⟩, ⟨26, 26, .rw, 0⟩, ⟨27, 27, .rw, 0⟩, ⟨28, 28, .rw, 0⟩, ⟨29, 29, .rw, 0⟩]⟩,
  ⟨"CIN_VD_MIN", 0x10201008, [(0x20, 128)], [⟨31, 0, .rw, 0⟩]⟩,
  ⟨"CIN_VD_MAX", 0x1020100C, [(0x20, 128)], [⟨31, 0, .rw, 0⟩]⟩,
  ⟨"CIN_VD_STEP", 0x10201010, [(0x20, 128)], [⟨31, 0, .rw, 0⟩]⟩,
  ⟨"CIN_VD_CLASS", 0x10201014, [(0x20, 128)], [⟨7, 0, .rw, 0⟩, ⟨11, 8, .rw, 0⟩]⟩,
  ⟨"CIN_VE_ADDR_LO", 0x10202000, [(0x10, 256)], [⟨31, 0, .ro, 0⟩]⟩,
  ⟨"CIN_VE_ADDR_HI", 0x10202004, [(0x10, 256)], [⟨31, 0, .ro, 0⟩]⟩,
  ⟨"CIN_VE_DATA_LO", 0x10202008, [(0x10, 256)], [⟨31, 0, .ro, 0⟩]⟩]
def tabCin3 : List RegRow := [
  ⟨"CIN_VE_DATA_HI", 0x1020200C, [(0x10, 256)], [⟨31, 0, .ro, 0⟩]⟩]
/-- Registers of the CIN_ block (17_cinch_safety.md). -/
def tabCin : List RegRow := tabCin0 ++ tabCin1 ++ tabCin2 ++ tabCin3

def tabHid0 : List RegRow := [
  ⟨"HID_STATUS", 0x10300000, [], [⟨1, 0, .ro, 0⟩, ⟨3, 2, .ro, 0⟩, ⟨4, 4, .ro, 0⟩, ⟨7, 5, .ro, 0⟩, ⟨8, 8, .w1c, 0⟩, ⟨9, 9, .w1c, 0⟩, ⟨10, 10, .w1c, 0⟩, ⟨11, 11, .w1c, 0⟩]⟩,
  ⟨"HID_CTRL", 0x10300004, [], [⟨0, 0, .rw, 1⟩]⟩,
  ⟨"HID_INT_EN", 0x10300008, [], [⟨11, 8, .rw, 0⟩]⟩,
  ⟨"HID_CUR_OP", 0x10300010, [], [⟨7, 0, .ro, 0⟩, ⟨31, 16, .ro, 0⟩]⟩,
  ⟨"HID_CUR_LAYER", 0x10300014, [], [⟨23, 0, .ro, 0⟩]⟩,
  ⟨"HID_CUR_TILE", 0x10300018, [], [⟨15, 0, .ro, 0⟩]⟩,
  ⟨"HID_OP_COUNT", 0x10300020, [], [⟨31, 0, .ro, 0⟩]⟩,
  ⟨"HID_TILE_COUNT", 0x10300024, [], [⟨31, 0, .ro, 0⟩]⟩,
  ⟨"HID_CYC_LO", 0x10300100, [(0x8, 7)], [⟨31, 0, .ro, 0⟩]⟩,
  ⟨"HID_CYC_HI", 0x10300104, [(0x8, 7)], [⟨31, 0, .ro, 0⟩]⟩,
  ⟨"HID_CYC_CLR", 0x10300140, [], [⟨0, 0, .wo, 0⟩]⟩,
  ⟨"HID_EDGE_SAT_COUNT", 0x10300200, [], [⟨31, 0, .rc, 0⟩]⟩,
  ⟨"HID_EDGE_NAN2INT_COUNT", 0x10300204, [], [⟨31, 0, .rc, 0⟩]⟩,
  ⟨"HID_EDGE_NAN_OUT_COUNT", 0x10300208, [], [⟨31, 0, .rc, 0⟩]⟩,
  ⟨"HID_EDGE_NAN_IN_COUNT", 0x1030020C, [], [⟨31, 0, .rc, 0⟩]⟩,
  ⟨"HID_PARITY_COUNT", 0x10300210, [], [⟨31, 0, .rc, 0⟩]⟩]
def tabHid1 : List RegRow := [
  ⟨"HID_CHK_CFG", 0x10300300, [(0x4, 2)], [⟨5, 0, .rw, 16⟩, ⟨15, 8, .rw, 0⟩]⟩,
  ⟨"HID_CHK_FORCE", 0x10300308, [], [⟨0, 0, .rw, 0⟩, ⟨1, 1, .rw, 0⟩]⟩,
  ⟨"HID_CHK_TILES", 0x10300310, [], [⟨31, 0, .rc, 0⟩]⟩,
  ⟨"HID_CHK_MISMATCH_COUNT", 0x10300314, [], [⟨31, 0, .rc, 0⟩]⟩,
  ⟨"HID_CHK_LAST_LAYER", 0x10300318, [], [⟨23, 0, .ro, 0⟩, ⟨24, 24, .ro, 0⟩]⟩,
  ⟨"HID_CHK_LAST_OPER", 0x1030031C, [], [⟨15, 0, .ro, 0⟩]⟩,
  ⟨"HID_CHK_LAST_TILE", 0x10300320, [], [⟨15, 0, .ro, 0⟩, ⟨23, 16, .ro, 0⟩, ⟨25, 24, .ro, 0⟩]⟩]
/-- Registers of the HID_ block (05_hide_array.md). -/
def tabHid : List RegRow := tabHid0 ++ tabHid1

def tabLat0 : List RegRow := [
  ⟨"LAT_STATUS", 0x10310000, [], [⟨1, 0, .ro, 0⟩, ⟨2, 2, .ro, 0⟩, ⟨4, 4, .w1c, 0⟩, ⟨5, 5, .w1c, 0⟩, ⟨6, 6, .w1c, 0⟩, ⟨7, 7, .w1c, 0⟩]⟩,
  ⟨"LAT_CTRL", 0x10310004, [], [⟨0, 0, .rw, 1⟩]⟩,
  ⟨"LAT_INT_EN", 0x10310008, [], [⟨7, 4, .rw, 0⟩]⟩,
  ⟨"LAT_LAST_ERR", 0x1031000C, [], [⟨7, 0, .ro, 0⟩, ⟨8, 8, .ro, 0⟩]⟩,
  ⟨"LAT_LAST_ERR_LAYER", 0x10310010, [], [⟨23, 0, .ro, 0⟩]⟩,
  ⟨"LAT_LAST_ERR_OPER", 0x10310014, [], [⟨15, 0, .ro, 0⟩]⟩,
  ⟨"LAT_DEC_SYMBOLS_LO", 0x10310020, [], [⟨31, 0, .ro, 0⟩]⟩,
  ⟨"LAT_DEC_SYMBOLS_HI", 0x10310024, [], [⟨31, 0, .ro, 0⟩]⟩,
  ⟨"LAT_DEC_BYTES_LO", 0x10310028, [], [⟨31, 0, .ro, 0⟩]⟩,
  ⟨"LAT_DEC_BYTES_HI", 0x1031002C, [], [⟨31, 0, .ro, 0⟩]⟩,
  ⟨"LAT_DEC_ERR_COUNT", 0x10310030, [], [⟨31, 0, .rc, 0⟩]⟩,
  ⟨"LAT_FETCH_COUNT", 0x10310034, [], [⟨31, 0, .ro, 0⟩]⟩,
  ⟨"LAT_WIN_BASE", 0x10310100, [(0x20, 2)], [⟨27, 16, .rw, 0⟩]⟩,
  ⟨"LAT_WIN_CFG", 0x10310104, [(0x20, 2)], [⟨0, 0, .rw, 0⟩, ⟨7, 4, .rw, 0⟩, ⟨15, 8, .rw, 15⟩, ⟨18, 16, .rw, 2⟩]⟩,
  ⟨"LAT_WIN_RATE", 0x10310108, [(0x20, 2)], [⟨7, 0, .rw, 0⟩]⟩,
  ⟨"LAT_WIN_STATUS", 0x1031010C, [(0x20, 2)], [⟨0, 0, .ro, 1⟩, ⟨1, 1, .w1c, 0⟩, ⟨2, 2, .ro, 0⟩, ⟨11, 8, .ro, 0⟩, ⟨24, 16, .ro, 16⟩]⟩]
def tabLat1 : List RegRow := [
  ⟨"LAT_WIN_LEAD", 0x10310110, [(0x20, 2)], [⟨22, 0, .ro, 0⟩]⟩,
  ⟨"LAT_WIN_FILL_LO", 0x10310114, [(0x20, 2)], [⟨31, 0, .ro, 0⟩]⟩,
  ⟨"LAT_WIN_FILL_HI", 0x10310118, [(0x20, 2)], [⟨31, 0, .ro, 0⟩]⟩,
  ⟨"LAT_WIN_RESTREAM", 0x1031011C, [(0x20, 2)], [⟨31, 0, .rc, 0⟩]⟩,
  ⟨"LAT_STALL_CYC_LO", 0x10310800, [(0x8, 6)], [⟨31, 0, .ro, 0⟩]⟩,
  ⟨"LAT_STALL_CYC_HI", 0x10310804, [(0x8, 6)], [⟨31, 0, .ro, 0⟩]⟩,
  ⟨"LAT_STALL_EVT", 0x10310840, [(0x4, 6)], [⟨31, 0, .ro, 0⟩]⟩,
  ⟨"LAT_STALL_CLR", 0x10310860, [], [⟨0, 0, .wo, 0⟩]⟩]
/-- Registers of the LAT_ block (06_latigo_streaming.md). -/
def tabLat : List RegRow := tabLat0 ++ tabLat1

def tabCal0 : List RegRow := [
  ⟨"CAL_VERSION", 0x10320000, [], [⟨3, 0, .ro, 1⟩, ⟨7, 4, .ro, 1⟩, ⟨11, 8, .ro, 0⟩]⟩,
  ⟨"CAL_OP_BOUND", 0x10320004, [], [⟨22, 0, .rw, 0x493E0⟩]⟩,
  ⟨"CAL_OVERRUN_LIMIT", 0x10320008, [], [⟨22, 0, .rw, 0x6DDD0⟩]⟩,
  ⟨"CAL_RING_CTRL", 0x10320100, [(0x80, 2)], [⟨0, 0, .rw, 0⟩, ⟨1, 1, .wo, 0⟩, ⟨2, 2, .wo, 0⟩]⟩,
  ⟨"CAL_RING_CFG", 0x10320104, [(0x80, 2)], [⟨3, 0, .rw, 1⟩, ⟨12, 8, .rw, 8⟩, ⟨13, 13, .rw, 0⟩, ⟨14, 14, .rw, 1⟩]⟩,
  ⟨"CAL_RING_BASE_LO", 0x10320108, [(0x80, 2)], [⟨31, 0, .rw, 0⟩]⟩,
  ⟨"CAL_RING_BASE_HI", 0x1032010C, [(0x80, 2)], [⟨15, 0, .rw, 0⟩]⟩,
  ⟨"CAL_RING_TAIL", 0x10320110, [(0x80, 2)], [⟨31, 0, .rw, 0⟩]⟩,
  ⟨"CAL_RING_HEAD", 0x10320114, [(0x80, 2)], [⟨31, 0, .rw, 0⟩]⟩,
  ⟨"CAL_RING_DONE", 0x10320118, [(0x80, 2)], [⟨31, 0, .ro, 0⟩]⟩,
  ⟨"CAL_RING_STATUS", 0x1032011C, [(0x80, 2)], [⟨2, 0, .ro, 0⟩, ⟨3, 3, .ro, 1⟩, ⟨4, 4, .w1c, 0⟩, ⟨5, 5, .w1c, 0⟩, ⟨6, 6, .w1c, 0⟩, ⟨7, 7, .w1c, 0⟩, ⟨8, 8, .w1c, 0⟩, ⟨9, 9, .w1c, 0⟩, ⟨19, 16, .ro, 0⟩]⟩,
  ⟨"CAL_RING_CPL_BASE_LO", 0x10320120, [(0x80, 2)], [⟨31, 0, .rw, 0⟩]⟩,
  ⟨"CAL_RING_CPL_BASE_HI", 0x10320124, [(0x80, 2)], [⟨15, 0, .rw, 0⟩]⟩,
  ⟨"CAL_RING_ERR_BKL", 0x10320128, [(0x80, 2)], [⟨13, 0, .rw, 0⟩, ⟨31, 31, .rw, 0⟩]⟩,
  ⟨"CAL_RING_LAST_ERR", 0x1032012C, [(0x80, 2)], [⟨7, 0, .ro, 0⟩, ⟨11, 8, .ro, 0⟩, ⟨23, 16, .ro, 0⟩]⟩,
  ⟨"CAL_RING_LAST_ERR_INDEX", 0x10320130, [(0x80, 2)], [⟨31, 0, .ro, 0⟩]⟩]
def tabCal1 : List RegRow := [
  ⟨"CAL_RING_LAST_ERR_LAYER", 0x10320134, [(0x80, 2)], [⟨23, 0, .ro, 0⟩]⟩,
  ⟨"CAL_RING_LAST_ERR_OPER", 0x10320138, [(0x80, 2)], [⟨15, 0, .ro, 0⟩]⟩,
  ⟨"CAL_RING_OP_COUNT", 0x1032013C, [(0x80, 2)], [⟨31, 0, .ro, 0⟩]⟩,
  ⟨"CAL_RING_ERR_COUNT", 0x10320140, [(0x80, 2)], [⟨31, 0, .rc, 0⟩]⟩,
  ⟨"CAL_RING_OVERRUN_COUNT", 0x10320144, [(0x80, 2)], [⟨31, 0, .rc, 0⟩]⟩,
  ⟨"CAL_RING_WAIT_CYC_LO", 0x10320148, [(0x80, 2)], [⟨31, 0, .ro, 0⟩]⟩,
  ⟨"CAL_RING_WAIT_CYC_HI", 0x1032014C, [(0x80, 2)], [⟨31, 0, .ro, 0⟩]⟩,
  ⟨"CAL_RING_INT_EN", 0x10320150, [(0x80, 2)], [⟨9, 4, .rw, 0⟩]⟩,
  ⟨"CAL_GOLDEN_CFG", 0x10320200, [], [⟨0, 0, .rw, 0⟩, ⟨7, 4, .rw, 0⟩, ⟨13, 8, .rw, 0⟩, ⟨31, 16, .rw, 0⟩]⟩,
  ⟨"CAL_GOLDEN_FRAME", 0x10320204, [], [⟨13, 0, .rw, 0⟩]⟩,
  ⟨"CAL_GOLDEN_BASE_LO", 0x10320208, [], [⟨31, 0, .rw, 0⟩]⟩,
  ⟨"CAL_GOLDEN_BASE_HI", 0x1032020C, [], [⟨15, 0, .rw, 0⟩]⟩,
  ⟨"CAL_GOLDEN_STATUS", 0x10320210, [], [⟨0, 0, .ro, 0⟩, ⟨1, 1, .w1c, 0⟩, ⟨2, 2, .w1c, 0⟩, ⟨13, 8, .ro, 0⟩]⟩,
  ⟨"CAL_GOLDEN_RUN_COUNT", 0x10320214, [], [⟨31, 0, .ro, 0⟩]⟩,
  ⟨"CAL_GOLDEN_MISSED_COUNT", 0x10320218, [], [⟨31, 0, .rc, 0⟩]⟩]
/-- Registers of the CAL_ block (07_caller_descriptors.md). -/
def tabCal : List RegRow := tabCal0 ++ tabCal1

def tabTng0 : List RegRow := [
  ⟨"TNG_STATUS", 0x10330000, [], [⟨1, 0, .ro, 0⟩, ⟨4, 4, .w1c, 0⟩, ⟨5, 5, .w1c, 0⟩, ⟨6, 6, .w1c, 0⟩, ⟨7, 7, .w1c, 0⟩]⟩,
  ⟨"TNG_CTRL", 0x10330004, [], [⟨0, 0, .rw, 1⟩]⟩,
  ⟨"TNG_INT_EN", 0x10330008, [], [⟨7, 4, .rw, 0⟩]⟩,
  ⟨"TNG_LAST_ERR", 0x1033000C, [], [⟨7, 0, .ro, 0⟩, ⟨8, 8, .ro, 0⟩, ⟨9, 9, .ro, 0⟩]⟩,
  ⟨"TNG_LAST_ERR_LAYER", 0x10330010, [], [⟨23, 0, .ro, 0⟩]⟩,
  ⟨"TNG_LAST_ERR_OPER", 0x10330014, [], [⟨15, 0, .ro, 0⟩]⟩,
  ⟨"TNG_LAST_ERR_SEQ", 0x10330018, [], [⟨9, 0, .ro, 0⟩]⟩,
  ⟨"TNG_XLAT_CFG", 0x10330020, [], [⟨6, 0, .rw, 32⟩]⟩,
  ⟨"TNG_LAST_SPLIT", 0x10330024, [], [⟨4, 0, .ro, 0⟩, ⟨10, 8, .ro, 0⟩, ⟨27, 16, .ro, 0⟩]⟩,
  ⟨"TNG_CHUNK_COUNT", 0x10330030, [], [⟨31, 0, .ro, 0⟩]⟩,
  ⟨"TNG_SKIP_COUNT", 0x10330034, [], [⟨31, 0, .rc, 0⟩]⟩,
  ⟨"TNG_EMPTY_ROW_COUNT", 0x10330038, [], [⟨31, 0, .rc, 0⟩]⟩,
  ⟨"TNG_NAN_ROW_COUNT", 0x1033003C, [], [⟨31, 0, .rc, 0⟩]⟩,
  ⟨"TNG_APPEND_COUNT", 0x10330040, [], [⟨31, 0, .ro, 0⟩]⟩,
  ⟨"TNG_XLAT_AHEAD_COUNT", 0x10330044, [], [⟨31, 0, .rc, 0⟩]⟩,
  ⟨"TNG_STALL_CYC_LO", 0x10330800, [(0x8, 6)], [⟨31, 0, .ro, 0⟩]⟩]
def tabTng1 : List RegRow := [
  ⟨"TNG_STALL_CYC_HI", 0x10330804, [(0x8, 6)], [⟨31, 0, .ro, 0⟩]⟩,
  ⟨"TNG_STALL_EVT", 0x10330840, [(0x4, 6)], [⟨31, 0, .ro, 0⟩]⟩,
  ⟨"TNG_STALL_CLR", 0x10330860, [], [⟨0, 0, .wo, 0⟩]⟩,
  ⟨"TNG_SEQ_CFG", 0x10332000, [(0x8, 1024)], [⟨16, 0, .rw, 0⟩, ⟨31, 31, .rw, 0⟩]⟩,
  ⟨"TNG_SEQ_LEN", 0x10332004, [(0x8, 1024)], [⟨20, 0, .rw, 0⟩]⟩]
/-- Registers of the TNG_ block (08_tango_attention.md). -/
def tabTng : List RegRow := tabTng0 ++ tabTng1

def tabRel0 : List RegRow := [
  ⟨"REL_STATUS", 0x10340000, [], [⟨1, 0, .ro, 0⟩, ⟨4, 4, .w1c, 0⟩, ⟨5, 5, .w1c, 0⟩, ⟨6, 6, .w1c, 0⟩, ⟨7, 7, .w1c, 0⟩]⟩,
  ⟨"REL_CTRL", 0x10340004, [], [⟨0, 0, .rw, 1⟩]⟩,
  ⟨"REL_INT_EN", 0x10340008, [], [⟨7, 4, .rw, 0⟩]⟩,
  ⟨"REL_LAST_ERR", 0x1034000C, [], [⟨7, 0, .ro, 0⟩, ⟨8, 8, .ro, 0⟩, ⟨9, 9, .ro, 0⟩]⟩,
  ⟨"REL_LAST_ERR_LAYER", 0x10340010, [], [⟨23, 0, .ro, 0⟩]⟩,
  ⟨"REL_LAST_ERR_OPER", 0x10340014, [], [⟨15, 0, .ro, 0⟩]⟩,
  ⟨"REL_LAST_ERR_STREAM", 0x10340018, [], [⟨7, 0, .ro, 0⟩]⟩,
  ⟨"REL_ELT_COUNT", 0x10340020, [], [⟨31, 0, .ro, 0⟩]⟩,
  ⟨"REL_SCAN_COUNT", 0x10340024, [], [⟨31, 0, .ro, 0⟩]⟩,
  ⟨"REL_FUSED_ROWS", 0x10340028, [], [⟨31, 0, .ro, 0⟩]⟩,
  ⟨"REL_NAN_OUT_COUNT", 0x10340030, [], [⟨31, 0, .rc, 0⟩]⟩,
  ⟨"REL_SAT_COUNT", 0x10340034, [], [⟨31, 0, .rc, 0⟩]⟩,
  ⟨"REL_RESET_COUNT", 0x10340038, [], [⟨31, 0, .rc, 0⟩]⟩,
  ⟨"REL_STR_CFG", 0x10341000, [(0x10, 256)], [⟨15, 0, .rw, 0⟩, ⟨16, 16, .rw, 0⟩, ⟨17, 17, .rw, 0⟩, ⟨18, 18, .w1s, 0⟩, ⟨19, 19, .ro, 0⟩, ⟨20, 20, .w1c, 0⟩, ⟨21, 21, .ro, 0⟩]⟩,
  ⟨"REL_STR_ADDR", 0x10341004, [(0x10, 256)], [⟨27, 6, .rw, 0⟩]⟩,
  ⟨"REL_STR_POS", 0x10341008, [(0x10, 256)], [⟨31, 0, .ro, 0⟩]⟩]
/-- Registers of the REL_ block (10_reel_recurrent.md). -/
def tabRel : List RegRow := tabRel0

def tabVis0 : List RegRow := [
  ⟨"VIS_STATUS", 0x10350000, [], [⟨1, 0, .ro, 0⟩, ⟨4, 4, .w1c, 0⟩, ⟨5, 5, .w1c, 0⟩, ⟨6, 6, .w1c, 0⟩]⟩,
  ⟨"VIS_CTRL", 0x10350004, [], [⟨0, 0, .rw, 1⟩]⟩,
  ⟨"VIS_INT_EN", 0x10350008, [], [⟨6, 4, .rw, 0⟩]⟩,
  ⟨"VIS_LAST_ERR", 0x1035000C, [], [⟨7, 0, .ro, 0⟩, ⟨8, 8, .ro, 0⟩, ⟨9, 9, .ro, 0⟩]⟩,
  ⟨"VIS_LAST_ERR_LAYER", 0x10350010, [], [⟨23, 0, .ro, 0⟩]⟩,
  ⟨"VIS_LAST_ERR_OPER", 0x10350014, [], [⟨15, 0, .ro, 0⟩]⟩,
  ⟨"VIS_CONV_COUNT", 0x10350020, [], [⟨31, 0, .ro, 0⟩]⟩,
  ⟨"VIS_CROP_COUNT", 0x10350024, [], [⟨31, 0, .ro, 0⟩]⟩,
  ⟨"VIS_PAD_ELEM_LO", 0x10350028, [], [⟨31, 0, .ro, 0⟩]⟩,
  ⟨"VIS_PAD_ELEM_HI", 0x1035002C, [], [⟨31, 0, .ro, 0⟩]⟩,
  ⟨"VIS_BOX_COUNT", 0x10350030, [], [⟨31, 0, .ro, 0⟩]⟩,
  ⟨"VIS_BAD_BOX_COUNT", 0x10350034, [], [⟨31, 0, .rc, 0⟩]⟩,
  ⟨"VIS_EXTRAP_COUNT", 0x10350038, [], [⟨31, 0, .rc, 0⟩]⟩]
/-- Registers of the VIS_ block (09_vision_operations.md). -/
def tabVis : List RegRow := tabVis0

def tabIom0 : List RegRow := [
  ⟨"IOM_CAPABILITIES_LO", 0x10360000, [], [⟨31, 0, .ro, 0x40000410⟩]⟩,
  ⟨"IOM_CAPABILITIES_HI", 0x10360004, [], [⟨31, 0, .ro, 240⟩]⟩,
  ⟨"IOM_FCTL", 0x10360008, [], [⟨2, 0, .ro, 0⟩]⟩,
  ⟨"IOM_DDTP_LO", 0x10360010, [], [⟨3, 0, .rw, 0⟩, ⟨4, 4, .ro, 0⟩, ⟨31, 10, .rw, 0⟩]⟩,
  ⟨"IOM_DDTP_HI", 0x10360014, [], [⟨21, 0, .rw, 0⟩]⟩,
  ⟨"IOM_CQB_LO", 0x10360018, [], [⟨4, 0, .rw, 0⟩, ⟨31, 10, .rw, 0⟩]⟩,
  ⟨"IOM_CQB_HI", 0x1036001C, [], [⟨21, 0, .rw, 0⟩]⟩,
  ⟨"IOM_CQH", 0x10360020, [], [⟨31, 0, .ro, 0⟩]⟩,
  ⟨"IOM_CQT", 0x10360024, [], [⟨31, 0, .rw, 0⟩]⟩,
  ⟨"IOM_FQB_LO", 0x10360028, [], [⟨4, 0, .rw, 0⟩, ⟨31, 10, .rw, 0⟩]⟩,
  ⟨"IOM_FQB_HI", 0x1036002C, [], [⟨21, 0, .rw, 0⟩]⟩,
  ⟨"IOM_FQH", 0x10360030, [], [⟨31, 0, .rw, 0⟩]⟩,
  ⟨"IOM_FQT", 0x10360034, [], [⟨31, 0, .ro, 0⟩]⟩,
  ⟨"IOM_CQCSR", 0x10360048, [], [⟨0, 0, .rw, 0⟩, ⟨1, 1, .rw, 0⟩, ⟨8, 8, .w1c, 0⟩, ⟨9, 9, .w1c, 0⟩, ⟨10, 10, .w1c, 0⟩, ⟨11, 11, .w1c, 0⟩, ⟨16, 16, .ro, 0⟩, ⟨17, 17, .ro, 0⟩]⟩,
  ⟨"IOM_FQCSR", 0x1036004C, [], [⟨0, 0, .rw, 0⟩, ⟨1, 1, .rw, 0⟩, ⟨8, 8, .w1c, 0⟩, ⟨9, 9, .w1c, 0⟩, ⟨16, 16, .ro, 0⟩, ⟨17, 17, .ro, 0⟩]⟩,
  ⟨"IOM_IPSR", 0x10360054, [], [⟨0, 0, .w1c, 0⟩, ⟨1, 1, .w1c, 0⟩, ⟨2, 2, .w1c, 0⟩]⟩]
def tabIom1 : List RegRow := [
  ⟨"IOM_IOCOUNTOVF", 0x10360058, [], [⟨8, 0, .ro, 0⟩]⟩,
  ⟨"IOM_IOCOUNTINH", 0x1036005C, [], [⟨8, 0, .rw, 0⟩]⟩,
  ⟨"IOM_IOHPMCYCLES_LO", 0x10360060, [], [⟨31, 0, .rw, 0⟩]⟩,
  ⟨"IOM_IOHPMCYCLES_HI", 0x10360064, [], [⟨31, 0, .rw, 0⟩]⟩,
  ⟨"IOM_IOHPMCTR_LO", 0x10360068, [(0x8, 8)], [⟨31, 0, .rw, 0⟩]⟩,
  ⟨"IOM_IOHPMCTR_HI", 0x1036006C, [(0x8, 8)], [⟨31, 0, .rw, 0⟩]⟩,
  ⟨"IOM_IOHPMEVT_LO", 0x10360160, [(0x8, 8)], [⟨31, 0, .rw, 0⟩]⟩,
  ⟨"IOM_IOHPMEVT_HI", 0x10360164, [(0x8, 8)], [⟨31, 0, .rw, 0⟩]⟩,
  ⟨"IOM_ICVEC_LO", 0x103602F8, [], [⟨11, 0, .rw, 0⟩]⟩,
  ⟨"IOM_MSI_ADDR_LO", 0x10360300, [(0x10, 16)], [⟨31, 2, .rw, 0⟩]⟩,
  ⟨"IOM_MSI_ADDR_HI", 0x10360304, [(0x10, 16)], [⟨23, 0, .rw, 0⟩]⟩,
  ⟨"IOM_MSI_DATA", 0x10360308, [(0x10, 16)], [⟨31, 0, .rw, 0⟩]⟩,
  ⟨"IOM_MSI_CTL", 0x1036030C, [(0x10, 16)], [⟨0, 0, .rw, 0⟩]⟩,
  ⟨"IOM_EXT_STATUS", 0x10361000, [], [⟨12, 0, .ro, 0⟩, ⟨20, 16, .ro, 0⟩]⟩,
  ⟨"IOM_MISS_COUNT", 0x10361004, [], [⟨31, 0, .rc, 0⟩]⟩,
  ⟨"IOM_SWAP_ID", 0x10361100, [(0x10, 8)], [⟨16, 0, .rw, 0⟩, ⟨20, 20, .rw, 0⟩, ⟨21, 21, .rw, 0⟩]⟩]
def tabIom2 : List RegRow := [
  ⟨"IOM_SWAP_ROOT_LO", 0x10361104, [(0x10, 8)], [⟨31, 0, .rw, 0⟩]⟩,
  ⟨"IOM_SWAP_ROOT_HI", 0x10361108, [(0x10, 8)], [⟨3, 0, .rw, 0⟩]⟩,
  ⟨"IOM_SWAP_STATUS", 0x1036110C, [(0x10, 8)], [⟨0, 0, .ro, 0⟩, ⟨1, 1, .w1c, 0⟩, ⟨2, 2, .w1c, 0⟩, ⟨11, 8, .ro, 0⟩]⟩]
/-- Registers of the IOM_ block (02_memory_tiers.md). -/
def tabIom : List RegRow := tabIom0 ++ tabIom1 ++ tabIom2

def tabCan0 : List RegRow := [
  ⟨"CAN_STATUS", 0x10370000, [], [⟨0, 0, .ro, 1⟩, ⟨1, 1, .w1c, 0⟩, ⟨2, 2, .w1c, 0⟩, ⟨3, 3, .w1c, 0⟩, ⟨4, 4, .w1c, 0⟩, ⟨5, 5, .w1c, 0⟩]⟩,
  ⟨"CAN_POCKET_COMMIT", 0x10370004, [], [⟨0, 0, .wo, 0⟩]⟩,
  ⟨"CAN_INT_EN", 0x10370008, [], [⟨5, 1, .rw, 0⟩]⟩,
  ⟨"CAN_POCKET0_CFG", 0x10370010, [], [⟨0, 0, .rw, 1⟩, ⟨7, 4, .rw, 0⟩, ⟨10, 8, .rw, 4⟩, ⟨16, 16, .rw, 1⟩, ⟨17, 17, .rw, 1⟩, ⟨18, 18, .rw, 1⟩, ⟨19, 19, .rw, 1⟩, ⟨20, 20, .rw, 1⟩]⟩,
  ⟨"CAN_POCKET_CFG", 0x10370014, [(0x4, 7)], [⟨0, 0, .rw, 0⟩, ⟨7, 4, .rw, 0⟩, ⟨10, 8, .rw, 0⟩, ⟨16, 16, .rw, 0⟩, ⟨17, 17, .rw, 0⟩, ⟨18, 18, .rw, 0⟩, ⟨19, 19, .rw, 0⟩, ⟨20, 20, .rw, 0⟩]⟩,
  ⟨"CAN_POCKET0_ACTIVE", 0x10370030, [], [⟨0, 0, .ro, 1⟩, ⟨7, 4, .ro, 0⟩, ⟨10, 8, .ro, 4⟩, ⟨16, 16, .ro, 1⟩, ⟨17, 17, .ro, 1⟩, ⟨18, 18, .ro, 1⟩, ⟨19, 19, .ro, 1⟩, ⟨20, 20, .ro, 1⟩]⟩,
  ⟨"CAN_POCKET_ACTIVE", 0x10370034, [(0x4, 7)], [⟨0, 0, .ro, 0⟩, ⟨7, 4, .ro, 0⟩, ⟨10, 8, .ro, 0⟩, ⟨16, 16, .ro, 0⟩, ⟨17, 17, .ro, 0⟩, ⟨18, 18, .ro, 0⟩, ⟨19, 19, .ro, 0⟩, ⟨20, 20, .ro, 0⟩]⟩,
  ⟨"CAN_ECC_CE_COUNT", 0x10370050, [], [⟨31, 0, .rc, 0⟩]⟩,
  ⟨"CAN_ECC_UE_COUNT", 0x10370054, [], [⟨31, 0, .rc, 0⟩]⟩,
  ⟨"CAN_ECC_ADDR", 0x10370058, [], [⟨27, 3, .ro, 0⟩]⟩,
  ⟨"CAN_SCRUB_CFG", 0x1037005C, [], [⟨15, 0, .rw, 0x3E8⟩]⟩,
  ⟨"CAN_PERM_FAULTS", 0x10370060, [], [⟨31, 0, .rc, 0⟩]⟩]
/-- Registers of the CAN_ block (02_memory_tiers.md). -/
def tabCan : List RegRow := tabCan0

def tabTrb0 : List RegRow := [
  ⟨"TRB_STATUS", 0x10400000, [], [⟨0, 0, .ro, 0⟩, ⟨4, 1, .ro, 0⟩, ⟨5, 5, .load, 0⟩, ⟨8, 8, .w1c, 0⟩, ⟨9, 9, .w1c, 0⟩, ⟨10, 10, .ro, 0⟩, ⟨14, 11, .ro, 0⟩]⟩,
  ⟨"TRB_INT_EN", 0x10400004, [], [⟨0, 0, .rw, 0⟩, ⟨1, 1, .rw, 0⟩, ⟨2, 2, .rw, 0⟩, ⟨3, 3, .rw, 0⟩]⟩,
  ⟨"TRB_SEED_LO", 0x10400008, [], [⟨31, 0, .load, 0⟩]⟩,
  ⟨"TRB_SEED_HI", 0x1040000C, [], [⟨31, 0, .load, 0⟩]⟩,
  ⟨"TRB_IMB_CFG", 0x10400010, [], [⟨9, 0, .rw, 100⟩, ⟨23, 16, .rw, 16⟩, ⟨31, 24, .rw, 4⟩]⟩,
  ⟨"TRB_IMBALANCE", 0x10400014, [], [⟨0, 0, .w1c, 0⟩, ⟨14, 8, .ro, 0⟩, ⟨25, 16, .ro, 0⟩]⟩,
  ⟨"TRB_IMB_COUNT", 0x10400018, [], [⟨31, 0, .rc, 0⟩]⟩,
  ⟨"TRB_CE_COUNT", 0x10400020, [], [⟨31, 0, .rc, 0⟩]⟩,
  ⟨"TRB_UE_COUNT", 0x10400024, [], [⟨31, 0, .rc, 0⟩]⟩,
  ⟨"TRB_ERR_ADDR_LO", 0x10400028, [], [⟨31, 0, .ro, 0⟩]⟩,
  ⟨"TRB_ERR_ADDR_HI", 0x1040002C, [], [⟨15, 0, .ro, 0⟩]⟩,
  ⟨"TRB_RETRY_COUNT", 0x10400030, [], [⟨31, 0, .rc, 0⟩]⟩,
  ⟨"TRB_SCRUB_CFG", 0x10400034, [], [⟨15, 0, .rw, 0xE10⟩]⟩,
  ⟨"TRB_PC_LOAD", 0x10400100, [(0x4, 128)], [⟨31, 0, .ro, 0⟩]⟩]
/-- Registers of the TRB_ block (02_memory_tiers.md). -/
def tabTrb : List RegRow := tabTrb0

def tabShz0 : List RegRow := [
  ⟨"SHZ_STATUS", 0x10500000, [], [⟨1, 0, .ro, 0⟩, ⟨2, 2, .ro, 0⟩, ⟨3, 3, .ro, 0⟩, ⟨4, 4, .w1c, 0⟩, ⟨5, 5, .w1c, 0⟩, ⟨6, 6, .w1c, 0⟩, ⟨7, 7, .ro, 0⟩]⟩,
  ⟨"SHZ_CTRL", 0x10500004, [], [⟨0, 0, .rw, 1⟩, ⟨1, 1, .wo, 0⟩, ⟨2, 2, .wo, 0⟩]⟩,
  ⟨"SHZ_CFG", 0x10500008, [], [⟨0, 0, .load, 0⟩, ⟨1, 1, .rw, 1⟩, ⟨2, 2, .rw, 1⟩, ⟨31, 16, .rw, 100⟩]⟩,
  ⟨"SHZ_INT_EN", 0x1050000C, [], [⟨6, 4, .rw, 0⟩]⟩,
  ⟨"SHZ_NODE", 0x10500010, [], [⟨2, 0, .ro, 0⟩, ⟨3, 3, .ro, 0⟩, ⟨7, 4, .ro, 0⟩, ⟨11, 8, .ro, 0⟩, ⟨12, 12, .ro, 0⟩, ⟨23, 16, .ro, 0⟩, ⟨31, 24, .ro, 0⟩]⟩,
  ⟨"SHZ_SYNC_CFG", 0x10500014, [], [⟨15, 0, .rw, 0x3E8⟩, ⟨16, 16, .rw, 1⟩]⟩,
  ⟨"SHZ_LINK_LEAD", 0x10500018, [], [⟨15, 0, .rw, 50⟩]⟩,
  ⟨"SHZ_RD_TIMEOUT", 0x1050001C, [], [⟨15, 0, .rw, 100⟩]⟩,
  ⟨"SHZ_EPOCH", 0x10500020, [(0x4, 8)], [⟨15, 0, .ro, 0⟩]⟩,
  ⟨"SHZ_STALE_COUNT", 0x10500040, [], [⟨31, 0, .rc, 0⟩]⟩,
  ⟨"SHZ_DUP_COUNT", 0x10500044, [], [⟨31, 0, .rc, 0⟩]⟩,
  ⟨"SHZ_REFUSED_COUNT", 0x10500048, [], [⟨31, 0, .rc, 0⟩]⟩,
  ⟨"SHZ_ERR_COUNT", 0x1050004C, [], [⟨31, 0, .rc, 0⟩]⟩,
  ⟨"SHZ_UNREACH_COUNT", 0x10500050, [], [⟨31, 0, .rc, 0⟩]⟩,
  ⟨"SHZ_BAD_COUNT", 0x10500054, [], [⟨31, 0, .rc, 0⟩]⟩,
  ⟨"SHZ_P_STATUS", 0x10500100, [(0x20, 2)], [⟨1, 0, .ro, 0⟩, ⟨3, 2, .ro, 0⟩, ⟨4, 4, .w1c, 0⟩, ⟨5, 5, .ro, 0⟩, ⟨10, 8, .ro, 0⟩, ⟨11, 11, .ro, 0⟩]⟩]
def tabShz1 : List RegRow := [
  ⟨"SHZ_P_DELAY", 0x10500104, [(0x20, 2)], [⟨15, 0, .ro, 0⟩]⟩,
  ⟨"SHZ_P_OFFSET", 0x10500108, [(0x20, 2)], [⟨31, 0, .ro, 0⟩]⟩,
  ⟨"SHZ_P_ASYM", 0x1050010C, [(0x20, 2)], [⟨15, 0, .rw, 0⟩]⟩,
  ⟨"SHZ_P_CRC_COUNT", 0x10500110, [(0x20, 2)], [⟨31, 0, .rc, 0⟩]⟩,
  ⟨"SHZ_P_REPLAY_COUNT", 0x10500114, [(0x20, 2)], [⟨31, 0, .rc, 0⟩]⟩,
  ⟨"SHZ_P_DOWN_COUNT", 0x10500118, [(0x20, 2)], [⟨31, 0, .rc, 0⟩]⟩,
  ⟨"SHZ_LINK_CFG", 0x10500200, [(0x10, 8)], [⟨0, 0, .rw, 0⟩, ⟨1, 1, .rw, 0⟩, ⟨7, 2, .rw, 0⟩, ⟨10, 8, .rw, 0⟩, ⟨23, 16, .rw, 0⟩]⟩,
  ⟨"SHZ_LINK_GROUP", 0x10500204, [(0x10, 8)], [⟨15, 0, .rw, 0⟩]⟩,
  ⟨"SHZ_LINK_STATUS", 0x10500208, [(0x10, 8)], [⟨2, 0, .ro, 0⟩, ⟨3, 3, .w1c, 0⟩, ⟨11, 4, .ro, 0⟩, ⟨19, 12, .ro, 0⟩, ⟨22, 20, .ro, 0⟩]⟩]
/-- Registers of the SHZ_ block (18_shauz_chain.md). -/
def tabShz : List RegRow := tabShz0 ++ tabShz1

def tabPci0 : List RegRow := [
  ⟨"PCI_STATUS", 0x10600000, [], [⟨0, 0, .w1c, 0⟩, ⟨1, 1, .w1c, 0⟩, ⟨2, 2, .w1c, 0⟩]⟩,
  ⟨"PCI_CTRL", 0x10600004, [], [⟨0, 0, .rw, 1⟩]⟩,
  ⟨"PCI_INT_EN", 0x10600008, [], [⟨2, 0, .rw, 0⟩]⟩,
  ⟨"PCI_CFG", 0x1060000C, [], [⟨0, 0, .load, 0⟩]⟩,
  ⟨"PCI_P_LINK", 0x10600100, [(0x100, 2)], [⟨0, 0, .ro, 0⟩, ⟨3, 1, .ro, 0⟩, ⟨7, 4, .ro, 0⟩]⟩,
  ⟨"PCI_P_CTRL", 0x10600104, [(0x100, 2)], [⟨0, 0, .rw, 0⟩, ⟨1, 1, .wo, 0⟩, ⟨4, 2, .rw, 5⟩]⟩,
  ⟨"PCI_P_OUT_BASE_LO", 0x10600108, [(0x100, 2)], [⟨31, 0, .rw, 0⟩]⟩,
  ⟨"PCI_P_OUT_BASE_HI", 0x1060010C, [(0x100, 2)], [⟨31, 0, .rw, 0⟩]⟩,
  ⟨"PCI_P_MSI_LO", 0x10600110, [(0x100, 2)], [⟨31, 0, .rw, 0⟩]⟩,
  ⟨"PCI_P_MSI_HI", 0x10600114, [(0x100, 2)], [⟨31, 0, .rw, 0⟩]⟩,
  ⟨"PCI_P_MSI", 0x10600118, [(0x100, 2)], [⟨3, 0, .rw, 0⟩]⟩,
  ⟨"PCI_INW_BASE_LO", 0x10600120, [(0x100, 2), (0x10, 4)], [⟨31, 0, .rw, 0⟩]⟩,
  ⟨"PCI_INW_BASE_HI", 0x10600124, [(0x100, 2), (0x10, 4)], [⟨31, 0, .rw, 0⟩]⟩,
  ⟨"PCI_INW_SIZE", 0x10600128, [(0x100, 2), (0x10, 4)], [⟨24, 0, .rw, 0⟩]⟩,
  ⟨"PCI_INW_CTRL", 0x1060012C, [(0x100, 2), (0x10, 4)], [⟨0, 0, .rw, 0⟩]⟩,
  ⟨"PCI_P_UR_COUNT", 0x10600160, [(0x100, 2)], [⟨31, 0, .rc, 0⟩]⟩]
def tabPci1 : List RegRow := [
  ⟨"PCI_P_DROP_COUNT", 0x10600164, [(0x100, 2)], [⟨31, 0, .rc, 0⟩]⟩,
  ⟨"PCI_P_TIMEOUT_COUNT", 0x10600168, [(0x100, 2)], [⟨31, 0, .rc, 0⟩]⟩,
  ⟨"PCI_P_DOWN_COUNT", 0x1060016C, [(0x100, 2)], [⟨31, 0, .rc, 0⟩]⟩,
  ⟨"PCI_P_CPL_ERR_COUNT", 0x10600170, [(0x100, 2)], [⟨31, 0, .rc, 0⟩]⟩]
/-- Registers of the PCI_ block (21_host_interfaces.md). -/
def tabPci : List RegRow := tabPci0 ++ tabPci1

def tabEth0 : List RegRow := [
  ⟨"ETH_STATUS", 0x10610000, [], [⟨0, 0, .w1c, 0⟩, ⟨31, 1, .w1c, 0⟩]⟩,
  ⟨"ETH_CTRL", 0x10610004, [], [⟨31, 0, .rw, 0⟩]⟩,
  ⟨"ETH_INT_EN", 0x10610008, [], [⟨31, 0, .rw, 0⟩]⟩,
  ⟨"ETH_P_CFG", 0x10611000, [(0x1000, 4)], [⟨0, 0, .rw, 0⟩, ⟨3, 1, .rw, 0⟩, ⟨11, 4, .rw, 255⟩, ⟨12, 12, .rw, 0⟩]⟩,
  ⟨"ETH_P_STATUS", 0x10611004, [(0x1000, 4)], [⟨0, 0, .ro, 0⟩, ⟨1, 1, .w1c, 0⟩, ⟨2, 2, .ro, 0⟩]⟩,
  ⟨"ETH_P_MAC_LO", 0x10611008, [(0x1000, 4)], [⟨31, 0, .rw, 0⟩]⟩,
  ⟨"ETH_P_MAC_HI", 0x1061100C, [(0x1000, 4)], [⟨15, 0, .rw, 0⟩]⟩,
  ⟨"ETH_P_TS_LAT_TX", 0x10611010, [(0x1000, 4)], [⟨31, 0, .rw, 88⟩]⟩,
  ⟨"ETH_P_TS_LAT_RX", 0x10611014, [(0x1000, 4)], [⟨31, 0, .rw, 104⟩]⟩,
  ⟨"ETH_GCL_CTRL", 0x10611020, [(0x1000, 4)], [⟨0, 0, .wo, 0⟩, ⟨1, 1, .rw, 0⟩, ⟨9, 2, .rw, 0⟩]⟩,
  ⟨"ETH_GCL_CYCLE", 0x10611024, [(0x1000, 4)], [⟨29, 0, .rw, 0xF4240⟩]⟩,
  ⟨"ETH_GCL_BASE_NS", 0x10611028, [(0x1000, 4)], [⟨29, 0, .rw, 0⟩]⟩,
  ⟨"ETH_GCL_BASE_SEC_LO", 0x1061102C, [(0x1000, 4)], [⟨31, 0, .rw, 0⟩]⟩,
  ⟨"ETH_GCL_BASE_SEC_HI", 0x10611030, [(0x1000, 4)], [⟨31, 0, .rw, 0⟩]⟩,
  ⟨"ETH_GCL_STATUS", 0x10611034, [(0x1000, 4)], [⟨0, 0, .ro, 0⟩, ⟨1, 1, .ro, 0⟩]⟩,
  ⟨"ETH_TXQ_BASE_LO", 0x10611040, [(0x1000, 4), (0x20, 8)], [⟨31, 0, .rw, 0⟩]⟩]
def tabEth1 : List RegRow := [
  ⟨"ETH_TXQ_BASE_HI", 0x10611044, [(0x1000, 4), (0x20, 8)], [⟨15, 0, .rw, 0⟩]⟩,
  ⟨"ETH_TXQ_CFG", 0x10611048, [(0x1000, 4), (0x20, 8)], [⟨3, 0, .rw, 4⟩, ⟨4, 4, .rw, 0⟩, ⟨5, 5, .rw, 0⟩, ⟨29, 16, .rw, 0⟩]⟩,
  ⟨"ETH_TXQ_TAIL", 0x1061104C, [(0x1000, 4), (0x20, 8)], [⟨31, 0, .rw, 0⟩]⟩,
  ⟨"ETH_TXQ_HEAD", 0x10611050, [(0x1000, 4), (0x20, 8)], [⟨31, 0, .ro, 0⟩]⟩,
  ⟨"ETH_RXQ_BASE_LO", 0x10611140, [(0x1000, 4), (0x20, 8)], [⟨31, 0, .rw, 0⟩]⟩,
  ⟨"ETH_RXQ_BASE_HI", 0x10611144, [(0x1000, 4), (0x20, 8)], [⟨15, 0, .rw, 0⟩]⟩,
  ⟨"ETH_RXQ_CFG", 0x10611148, [(0x1000, 4), (0x20, 8)], [⟨3, 0, .rw, 4⟩, ⟨4, 4, .rw, 0⟩, ⟨5, 5, .rw, 0⟩, ⟨29, 16, .rw, 0⟩]⟩,
  ⟨"ETH_RXQ_TAIL", 0x1061114C, [(0x1000, 4), (0x20, 8)], [⟨31, 0, .rw, 0⟩]⟩,
  ⟨"ETH_RXQ_HEAD", 0x10611150, [(0x1000, 4), (0x20, 8)], [⟨31, 0, .ro, 0⟩]⟩,
  ⟨"ETH_RX_FRAMES", 0x10611300, [(0x1000, 4)], [⟨31, 0, .rc, 0⟩]⟩,
  ⟨"ETH_TX_FRAMES", 0x10611304, [(0x1000, 4)], [⟨31, 0, .rc, 0⟩]⟩,
  ⟨"ETH_FCS_COUNT", 0x10611308, [(0x1000, 4)], [⟨31, 0, .rc, 0⟩]⟩,
  ⟨"ETH_RX_DROP", 0x1061130C, [(0x1000, 4)], [⟨31, 0, .rc, 0⟩]⟩,
  ⟨"ETH_FRER_DISCARD", 0x10611310, [(0x1000, 4)], [⟨31, 0, .rc, 0⟩]⟩,
  ⟨"ETH_FRER_ROGUE", 0x10611314, [(0x1000, 4)], [⟨31, 0, .rc, 0⟩]⟩,
  ⟨"ETH_GCLA", 0x10611400, [(0x1000, 4), (0x4, 256)], [⟨7, 0, .rw, 0⟩, ⟨31, 8, .rw, 0⟩]⟩]
def tabEth2 : List RegRow := [
  ⟨"ETH_GCLB", 0x10611800, [(0x1000, 4), (0x4, 256)], [⟨7, 0, .rw, 0⟩, ⟨31, 8, .rw, 0⟩]⟩,
  ⟨"ETH_FRER_DMAC_LO", 0x10611C00, [(0x1000, 4), (0x10, 64)], [⟨31, 0, .rw, 0⟩]⟩,
  ⟨"ETH_FRER_DMAC_HI", 0x10611C04, [(0x1000, 4), (0x10, 64)], [⟨31, 0, .rw, 0⟩]⟩,
  ⟨"ETH_FRER_CFG", 0x10611C08, [(0x1000, 4), (0x10, 64)], [⟨31, 0, .rw, 0⟩]⟩,
  ⟨"ETH_FRER_SEQ", 0x10611C0C, [(0x1000, 4), (0x10, 64)], [⟨31, 0, .rw, 0⟩]⟩,
  ⟨"ETH_CSI_CFG", 0x10618000, [(0x40, 8)], [⟨1, 0, .rw, 2⟩, ⟨7, 4, .rw, 0⟩, ⟨8, 8, .rw, 0⟩]⟩,
  ⟨"ETH_CSI_STATUS", 0x10618004, [(0x40, 8)], [⟨0, 0, .w1c, 0⟩, ⟨1, 1, .w1c, 0⟩]⟩,
  ⟨"ETH_CSI_ERR_COUNT", 0x10618008, [(0x40, 8)], [⟨31, 0, .rc, 0⟩]⟩,
  ⟨"ETH_TDM", 0x10618400, [(0x40, 2), (0x4, 16)], [⟨31, 0, .rw, 0⟩]⟩,
  ⟨"ETH_PDM_CFG", 0x10618500, [(0x20, 4)], [⟨31, 0, .rw, 0⟩]⟩,
  ⟨"ETH_CAN_CFG", 0x10618800, [(0x400, 2), (0x4, 128)], [⟨31, 0, .rw, 0⟩]⟩,
  ⟨"ETH_CAN_FILTER", 0x10618A00, [(0x400, 2), (0x4, 128)], [⟨31, 0, .rw, 0⟩]⟩,
  ⟨"ETH_SPI_CFG", 0x10619000, [(0x40, 6)], [⟨31, 0, .rw, 0⟩]⟩,
  ⟨"ETH_SPI_GO", 0x10619004, [(0x40, 6)], [⟨31, 0, .wo, 0⟩]⟩,
  ⟨"ETH_SPI_DATA", 0x10619008, [(0x40, 6)], [⟨31, 0, .rw, 0⟩]⟩,
  ⟨"ETH_SPI_STATUS", 0x1061900C, [(0x40, 6)], [⟨0, 0, .ro, 0⟩, ⟨1, 1, .w1c, 0⟩, ⟨2, 2, .w1c, 0⟩]⟩]
def tabEth3 : List RegRow := [
  ⟨"ETH_I2C", 0x10619400, [(0x40, 4), (0x4, 16)], [⟨31, 0, .rw, 0⟩]⟩]
/-- Registers of the ETH_ block (21_host_interfaces.md). -/
def tabEth : List RegRow := tabEth0 ++ tabEth1 ++ tabEth2 ++ tabEth3

def tabTlg0 : List RegRow := [
  ⟨"TLG_STATUS", 0x10700000, [], [⟨1, 0, .ro, 0⟩, ⟨4, 2, .ro, 0⟩, ⟨5, 5, .w1c, 0⟩, ⟨6, 6, .w1c, 0⟩, ⟨7, 7, .w1c, 0⟩, ⟨8, 8, .w1c, 0⟩, ⟨9, 9, .ro, 0⟩]⟩,
  ⟨"TLG_ENG_CTRL", 0x10700004, [], [⟨0, 0, .rw, 0⟩, ⟨1, 1, .rw, 1⟩]⟩,
  ⟨"TLG_INT_EN", 0x10700008, [], [⟨9, 5, .rw, 0⟩]⟩,
  ⟨"TLG_AUTH", 0x1070000C, [], [⟨0, 0, .rw, 0⟩]⟩,
  ⟨"TLG_SMP_CFG", 0x10700010, [], [⟨0, 0, .rw, 0⟩, ⟨1, 1, .rw, 0⟩, ⟨15, 7, .rw, 0⟩]⟩,
  ⟨"TLG_SMP_INTERVAL", 0x10700014, [], [⟨26, 0, .rw, 0x1E848⟩]⟩,
  ⟨"TLG_SMP_PHASE", 0x10700018, [], [⟨26, 0, .rw, 0⟩]⟩,
  ⟨"TLG_SMP_BASE_LO", 0x1070001C, [], [⟨31, 0, .rw, 0⟩]⟩,
  ⟨"TLG_SMP_BASE_HI", 0x10700020, [], [⟨15, 0, .rw, 0⟩]⟩,
  ⟨"TLG_SMP_SIZE", 0x10700024, [], [⟨19, 0, .rw, 0⟩]⟩,
  ⟨"TLG_SMP_WR", 0x10700028, [], [⟨31, 0, .ro, 0⟩]⟩,
  ⟨"TLG_SMP_RD", 0x1070002C, [], [⟨31, 0, .rw, 0⟩]⟩,
  ⟨"TLG_SMP_LOST", 0x10700030, [], [⟨31, 0, .rc, 0⟩]⟩,
  ⟨"TLG_TRC_CFG", 0x10700040, [], [⟨0, 0, .rw, 0⟩, ⟨1, 1, .rw, 0⟩, ⟨2, 2, .rw, 0⟩, ⟨3, 3, .rw, 0⟩, ⟨15, 8, .rw, 16⟩]⟩,
  ⟨"TLG_TRC_BASE_LO", 0x10700044, [], [⟨31, 0, .rw, 0⟩]⟩,
  ⟨"TLG_TRC_BASE_HI", 0x10700048, [], [⟨15, 0, .rw, 0⟩]⟩]
def tabTlg1 : List RegRow := [
  ⟨"TLG_TRC_SIZE", 0x1070004C, [], [⟨19, 0, .rw, 0⟩]⟩,
  ⟨"TLG_TRC_WR", 0x10700050, [], [⟨31, 0, .ro, 0⟩]⟩,
  ⟨"TLG_TRC_RD", 0x10700054, [], [⟨31, 0, .rw, 0⟩]⟩,
  ⟨"TLG_TRC_LOST", 0x10700058, [], [⟨31, 0, .rc, 0⟩]⟩,
  ⟨"TLG_CNT_CLR", 0x1070005C, [], [⟨0, 0, .wo, 0⟩]⟩,
  ⟨"TLG_OBP_CFG", 0x10700080, [(0x10, 4)], [⟨0, 0, .rw, 0⟩, ⟨1, 1, .rw, 0⟩, ⟨3, 2, .rw, 0⟩, ⟨4, 4, .rw, 1⟩, ⟨15, 8, .rw, 0⟩]⟩,
  ⟨"TLG_OBP_LAYER", 0x10700084, [(0x10, 4)], [⟨23, 0, .rw, 0⟩]⟩,
  ⟨"TLG_OBP_OPER", 0x10700088, [(0x10, 4)], [⟨15, 0, .rw, 0⟩, ⟨16, 16, .rw, 0⟩, ⟨17, 17, .rw, 0⟩]⟩,
  ⟨"TLG_OBP_STATUS", 0x1070008C, [(0x10, 4)], [⟨0, 0, .w1c, 0⟩, ⟨1, 1, .ro, 0⟩, ⟨15, 8, .ro, 0⟩, ⟨31, 16, .ro, 0⟩]⟩,
  ⟨"TLG_CNT_SEL", 0x10701000, [(0x4, 512)], [⟨9, 0, .rw, 0⟩, ⟨21, 16, .rw, 63⟩]⟩,
  ⟨"TLG_CNT_LO", 0x10702000, [(0x8, 512)], [⟨31, 0, .ro, 0⟩]⟩,
  ⟨"TLG_CNT_HI", 0x10702004, [(0x8, 512)], [⟨31, 0, .ro, 0⟩]⟩]
/-- Registers of the TLG_ block (20_tooling_debug.md). -/
def tabTlg : List RegRow := tabTlg0 ++ tabTlg1

def tabCfg0 : List RegRow := [
  ⟨"CFG_STATUS", 0x10800000, [], [⟨0, 0, .ro, 0⟩, ⟨2, 1, .ro, 0⟩, ⟨3, 3, .ro, 0⟩, ⟨4, 4, .ro, 0⟩, ⟨5, 5, .ro, 0⟩, ⟨6, 6, .ro, 0⟩, ⟨12, 8, .ro, 0⟩, ⟨19, 16, .ro, 0⟩, ⟨23, 20, .ro, 0⟩]⟩,
  ⟨"CFG_BOOT_SEL", 0x10800004, [], [⟨4, 0, .load, 0⟩]⟩,
  ⟨"CFG_IMAGE_VER", 0x10800008, [], [⟨31, 0, .load, 0⟩]⟩,
  ⟨"CFG_SEC_VER", 0x1080000C, [], [⟨31, 0, .load, 0⟩]⟩,
  ⟨"CFG_FUSE", 0x10800010, [], [⟨0, 0, .ro, 0⟩, ⟨2, 1, .ro, 0⟩, ⟨3, 3, .ro, 0⟩, ⟨22, 16, .ro, 0⟩]⟩,
  ⟨"CFG_UID_LO", 0x10800014, [], [⟨31, 0, .ro, 0⟩]⟩,
  ⟨"CFG_UID_HI", 0x10800018, [], [⟨31, 0, .ro, 0⟩]⟩,
  ⟨"CFG_FUSE_UNLOCK", 0x1080001C, [], [⟨31, 0, .wo, 0⟩]⟩,
  ⟨"CFG_SLOT_VER", 0x10800020, [(0x4, 8)], [⟨15, 0, .load, 0⟩, ⟨16, 16, .load, 0⟩, ⟨17, 17, .ro, 0⟩]⟩,
  ⟨"CFG_CAP0", 0x10800040, [], [⟨31, 0, .ro, 0x96011⟩]⟩,
  ⟨"CFG_CAP1", 0x10800044, [], [⟨31, 0, .ro, 0xFFF001F⟩]⟩,
  ⟨"CFG_CAP2", 0x10800048, [], [⟨31, 0, .ro, 0x4014077F⟩]⟩,
  ⟨"CFG_CAP3", 0x1080004C, [], [⟨31, 0, .ro, 0x600100⟩]⟩,
  ⟨"CFG_CAP4", 0x10800050, [], [⟨31, 0, .ro, 0x5801028⟩]⟩,
  ⟨"CFG_CAP5", 0x10800054, [], [⟨31, 0, .ro, 0x84182⟩]⟩,
  ⟨"CFG_CAP6", 0x10800058, [], [⟨31, 0, .ro, 0x400B⟩]⟩]
def tabCfg1 : List RegRow := [
  ⟨"CFG_CAP7", 0x1080005C, [], [⟨31, 0, .ro, 0⟩]⟩]
/-- Registers of the CFG_ block (19_boot_config_update.md). -/
def tabCfg : List RegRow := tabCfg0 ++ tabCfg1

/-- The register blocks of R53, by 64 KiB index from 0x1000_0000. -/
def blockTable (k : Nat) : Option (List RegRow) :=
  if k = 0x00 then some (tabSys ++ tabStw)
  else if k ≤ 0x04 then some tabBkl
  else if k = 0x05 then some tabTxn
  else if k = 0x10 then some tabTmb
  else if k = 0x11 then some tabIng
  else if k = 0x12 then some tabQdr
  else if 0x13 ≤ k ∧ k ≤ 0x17 then some tabStp
  else if k = 0x18 then some tabMio
  else if k = 0x19 then some tabSsu
  else if k = 0x20 then some tabCin
  else if k = 0x30 then some tabHid
  else if k = 0x31 then some tabLat
  else if k = 0x32 then some tabCal
  else if k = 0x33 then some tabTng
  else if k = 0x34 then some tabRel
  else if k = 0x35 then some tabVis
  else if k = 0x36 then some tabIom
  else if k = 0x37 then some tabCan
  else if k = 0x40 then some tabTrb
  else if k = 0x50 then some tabShz
  else if k = 0x60 then some tabPci
  else if k = 0x61 then some tabEth
  else if k = 0x70 then some tabTlg
  else if k = 0x80 then some tabCfg
  else none

/-- Does the address lie in register space (R44). -/
def inRegSpace (a : Nat) : Bool := Nat.ble 0x10000000 a && Nat.ble a 0x1FFFFFFF

/-- The 64 KiB block index of a register-space address; 0x1000, which is no block, elsewhere. -/
def blockIndex (a : Nat) : Nat := if inRegSpace a then a / 0x10000 % 0x1000 else 0x1000

/-- R53: does the address lie in a register block. -/
def inBlock (a : Nat) : Bool := inRegSpace a && (blockTable (blockIndex a)).isSome

/-- The register at address `a`, if the map has one. -/
def regRow (a : Nat) : Option RegRow :=
  match blockTable (blockIndex a) with
  | none => none
  | some t => t.find? (fun r => r.hits a)

/-- What register address `a` holds after a power-on reset (R13). -/
def resetOf (a : Nat) : Word :=
  match regRow a with
  | none => 0
  | some r => r.resetWord

end Sys2Proof.Machine
end

