-- ==== Sys2Proof/Machine/State.lean ====
section
/-!
DEFINITION. Machine/State.lean: the state of the block, its faults and refusals, and what it holds after reset.
Every visible register has one home, `State.regs`; what no register shows stands in the structures below.
-/

namespace Sys2Proof.Machine

/-- Faults of the model. The block answers a bad access with a response (`Resp`), so none stops it. -/
inductive Fault where
  /-- Raised by no command: kept so that the type names its one unused reason. Safe. -/
  | unreachable
  deriving DecidableEq, Repr

/-- Refusals of the model. -/
inductive Refusal where
  /-- Raised by the dispatcher for a command that has no meaning yet. Safe. -/
  | notModelled (mnemonic : String)
  deriving DecidableEq, Repr

/-- The response of the last access of an initiator (R6, R7, R45, R647). -/
inductive Resp where
  | none
  /-- a load completed with this value -/
  | data (v : Nat)
  /-- a store completed -/
  | done
  /-- an access fault (a load or store access fault at a processor) -/
  | accessFault
  /-- Unsupported Request of an inbound PCIe access (R647) -/
  | unsupported
  /-- the access waits for another device -/
  | waiting
  deriving DecidableEq, Repr

/-- A store that waits in its processor's store buffer (R105, R107). -/
structure BufStore where
  who : Initiator
  addr : Nat
  bytes : List Byte
  deriving DecidableEq, Repr

/-- The copy of a 64-bit word of Tier B that the application cluster caches (R49): its bytes, and the core that wrote them
last, while the copy is newer than memory. -/
structure CacheWord where
  bytes : List Byte
  dirty : Option Nat
  deriving DecidableEq, Repr

/-- One staged entry of a transaction (R112). -/
structure TxnEntry where
  kind : Nat
  addr : Nat
  lo : Word
  hi : Word
  deriving DecidableEq, Repr

/-- What a transaction holds beside its registers (R108 to R127, R539 to R547). -/
structure Txn where
  entries : List TxnEntry
  /-- position among the arms (R121) -/
  armOrder : Nat
  /-- MODE of the ARM command (R115) -/
  timestamp : Bool
  openBeat : Nat
  armBeat : Nat
  /-- beat at which the vouch was recorded (R125, R541) -/
  vouchBeat : Option Nat
  /-- it waits for a verdict (R539) -/
  queued : Bool
  /-- frame in which it was armed (R547) -/
  armFrame : Nat
  /-- the health gate at the end of that frame, once it has ended (R547) -/
  gateThen : Option Bool
  /-- a golden or checksum failure was reported since the arm (R547) -/
  failSince : Bool
  /-- ranges that its vouch request sealed (R537) -/
  seals : List Nat
  deriving DecidableEq, Repr

/-- A transaction in IDLE. -/
def Txn.idle : Txn := ⟨[], 0, false, 0, 0, none, false, 0, none, false, []⟩

/-- A snapshot slot between its GO and its completion (R128, R129). -/
structure SnapRun where
  slot : Nat
  word : Nat
  len : Nat
  latchBeat : Nat
  latched : Option (List Word)
  deriving DecidableEq, Repr

/-- One IOTLB entry (R81). -/
structure TlbEntry where
  dev : Nat
  pscid : Nat
  iova : Nat
  /-- log2 of the page size: 12, 16, 21, 30 or 39 -/
  size : Nat
  pa : Nat
  canRead : Bool
  canWrite : Bool
  isGlobal : Bool
  deriving DecidableEq, Repr

/-- One entry of the non-leaf cache (R81): the table below the non-leaf PTE of level `level` (1 to 3) that translates
addresses with this prefix, their bits above 12 + 9 × level. -/
structure DirEntry where
  dev : Nat
  pscid : Nat
  level : Nat
  tag : Nat
  ppn : Nat
  deriving DecidableEq, Repr

/-- A root swap whose old walks have not all ended (R84), with the roots that they walk: device and page number. -/
structure SwapRun where
  slot : Nat
  walksLeft : Nat
  roots : List (Nat × Nat)
  deriving DecidableEq, Repr

/-- Signals that reached buckle `b` together in this beat (R98): the value that the buckle had before them, and the wait
slots that they made hit, with what their STATUS held before; and where they armed a golden run, what CAL_GOLDEN_STATUS,
CAL_GOLDEN_MISSED_COUNT and the arming held before. -/
structure Landed where
  b : Nat
  sigs : List Signal
  before : Word
  hits : List (Nat × Word)
  gold : Option (Word × Word × Nat × Bool)
  deriving DecidableEq, Repr

/-- A cached device context of the tensor IOMMU (R77, RISC-V IOMMU 1.0 base format). -/
structure DevCtx where
  tc : Nat
  ta : Nat
  fsc : Nat
  deriving DecidableEq, Repr

/-- A cached process context of the tensor IOMMU. -/
structure ProcCtx where
  dev : Nat
  pid : Nat
  ta : Nat
  fsc : Nat
  deriving DecidableEq, Repr


/-- An op descriptor that a Caller has read (R243, R263). -/
structure OpEntry where
  index : Word
  desc : List Byte
  /-- the eight tensor descriptor slots; an absent slot is empty -/
  tds : List (List Byte)
  /-- why it was rejected (completion code, unit, unit code); 0 where it passed -/
  code : Nat
  unit : Nat
  ucode : Nat
  /-- the sequence entry latched for an attention op (R283) -/
  seqCfg : Word
  seqLen : Word
  /-- bit k: breakpoint k has fired on it (R631) -/
  broke : Nat
  deriving DecidableEq, Repr

/-- One line of an operand: its codes, and the scale codes of its blocks of 32. -/
structure Line where
  codes : List Nat
  scales : List (Option Nat)
  deriving DecidableEq, Repr

/-- What decides which keys a token sees (R301). -/
structure Mask where
  mode : Nat
  len : Nat
  pos : List Nat
  /-- candidate rows -/
  rows : List Nat
  /-- by query tile and key tile: tag word and bitmap -/
  tiles : List ((Nat × Nat) × Nat × List Byte)
  deriving DecidableEq, Repr

/-- A partial (O, m, l) (R305). -/
structure AttnPart where
  o : List Nat
  m : Nat
  l : Nat
  deriving DecidableEq, Repr

/-- One accumulator set of a product cell (R174): the 44-bit block accumulator, the FP32 chunk partial, and the merge
stack, its top first, each entry with the number of chunks that it covers (R146, R147). -/
structure AccSet where
  block : Int
  part : Nat
  stack : List (Nat × Nat)
  deriving DecidableEq, Repr

/-- An empty set (R175). -/
def AccSet.empty : AccSet := ⟨0, 0, []⟩

/-- The accumulator sets of a tile (R174, R192): those of its used rows and columns, row by row; `cols` of them make a row;
and the checksum column, the checksum row and the corner in binary64 (exact integers on the integer path). -/
structure TileData where
  cells : List AccSet
  cols : Nat
  chkRows : List Int
  chkCols : List Int
  corner : Int
  deriving DecidableEq, Repr

/-- A set that is empty in every cell. -/
def TileData.empty : TileData := ⟨[], 0, [], [], 0⟩

/-- A tile of an attention op (R292, R295, R303, R310): the pass it belongs to (0 scores of ATTN_SCORE, 1 values, and of
ATTN_BWD 2 scores, 3 dP, 4 dQ, 5 dV, 6 dK), its group, its M-tile and its number among the key tiles of a strip. -/
structure AttnTile where
  pass : Nat
  grp : Nat
  mt : Nat
  idx : Nat
  deriving DecidableEq, Repr

/-- Tango's own work on an attention op (R288 to R311). -/
structure TangoRun where
  mask : Mask
  bias : List (List Nat)
  /-- prepared queries, dO, O and lse, by token and head -/
  qs : List (List Line)
  dos : List (List Line)
  os : List (List (List Nat))
  lse : List (List Nat)
  /-- the tiles, in the order of their K passes -/
  plan : List AttnTile
  /-- chunks that no row sees (R302) -/
  skipped : List Nat
  /-- 64 KiB pages of the cache in the order of their first access, with whether that writes, and how many were
  requested (R288) -/
  pages : List (Nat × Bool)
  asked : Nat
  /-- drained scores, and p and dS of the backward pass: by pass, group and row, then key -/
  vals : List ((Nat × Nat × Nat) × List (Nat × Nat))
  /-- drained partials: by group, row and chunk -/
  parts : List ((Nat × Nat × Nat) × AttnPart)
  deriving DecidableEq, Repr

/-- Part of an output that an op has written (R279, R324): whether it holds scales, the slot, the place of its first
element in the tensor, its process and address, and the bytes. -/
structure OutPart where
  scales : Bool
  slot : Nat
  pos : Nat
  pid : Nat
  addr : Nat
  bytes : List Byte
  deriving DecidableEq, Repr

/-- The op that occupies the Tensor Plane (R244). -/
structure RunOp where
  ring : Nat
  /-- set and position of a golden op -/
  golden : Option (Nat × Nat)
  op : OpEntry
  code : Nat
  unit : Nat
  ucode : Nat
  mismatch : Bool
  overrun : Bool
  issueBeat : Nat
  mhz : Nat
  /-- HID_CHK_CFG of its ring as the op started, where its tiles are checked (R191, R196) -/
  chk : Option Word
  /-- tiles whose K pass has ended, and tiles drained -/
  passes : Nat
  drained : Nat
  /-- its stall cycles so far, by cause (R266) -/
  stalls : List Nat
  /-- the live set, and whether it holds a complete tile that waits for its swap (R174, R176) -/
  live : TileData
  held : Bool
  /-- the shadow set: the tile that drains (R177); none: every cell is empty -/
  shadow : Option TileData
  /-- Tango's work on an attention op -/
  tango : Option TangoRun
  /-- what the op has written, the last first -/
  outs : List OutPart
  /-- cycles of the op that R184 has put into a category -/
  counted : Nat
  /-- window bytes of the current K pass whose slots are free again (R206); or the stream state that a REEL_SCAN writes
  back at its end (R357) -/
  fed : List Byte
  /-- what remains is to end it -/
  finished : Bool
  deriving DecidableEq, Repr

/-- One window record (R217): its op, its pass through an N-tile (R211), its place in the stream of bytes written, and
the Latigo code of an error found while filling (R215). -/
structure WinRec where
  op : Word
  pass : Nat
  pos : Nat
  len : Nat
  err : Nat
  deriving DecidableEq, Repr

/-- What the fill engine holds of an op whose records it reads (R205, R215, R223): how many records it has begun; the code
lengths and the segment index of a coded array once it has read them; the code of an error, which every later record of
the op carries; and the segment read last, with the Latigo code of its failure, or 0, and its symbols. -/
structure FillOp where
  op : Word
  done : Nat
  table : Option (List Nat × List Nat)
  err : Nat
  seg : Option (Nat × Nat × List Nat)
  deriving DecidableEq, Repr

/-- An op that the fill engine has not begun. -/
def FillOp.fresh (op : Word) : FillOp := ⟨op, 0, none, 0, none⟩

/-- A window of Latigo (R203 to R214): records, bytes written and first read, slots freed; what the fill engine holds of
each op; and the bytes of the last record that no free slot had room for. -/
structure Window where
  recs : List WinRec
  wr : Nat
  rd : Nat
  freed : Nat
  fills : List FillOp
  rest : List Byte
  deriving DecidableEq, Repr

/-- An empty window. -/
def Window.idle : Window := ⟨[], 0, 0, 0, [], []⟩

/-- A change of memory by the host, kept while an op that may read it runs (R324): where, and the TAIL registers of ring 0
and ring 1 then. -/
structure HostWrite where
  addr : Nat
  len : Nat
  tail0 : Word
  tail1 : Word
  deriving DecidableEq, Repr

/-- The Callers and the Tensor Plane beside their registers. -/
structure Plane where
  /-- ops read and not ended, the first unfinished first, of ring 0 and ring 1 -/
  q0 : List OpEntry
  q1 : List OpEntry
  run : Option RunOp
  wins : List (Nat × Window)
  /-- beat at which the pending golden run was armed, and whether its insertion point has come (R276, R277) -/
  goldBeat : Nat
  goldDue : Bool
  /-- the golden run that holds the issue slot: its set and its next op -/
  goldRun : Option (Nat × Nat)
  /-- golden runs inserted since reset: the number r of the next one (R278) -/
  goldRuns : Nat
  /-- a tensor clock that the Steward has asked for, in MHz, and the beat (R41, R43) -/
  clockReq : Option (Nat × Nat)
  /-- the power throttle of R43 is on, and the share of issue cycles that it holds back, per mille -/
  throttled : Option Nat
  /-- the last CLK_TEN cycle was a stall of Latigo, of Tango (R89) -/
  latStall : Bool
  tngStall : Bool
  /-- host writes since the rings were last empty, the last first (R324) -/
  hostWrites : List HostWrite
  deriving DecidableEq, Repr

/-- The Tensor Plane after reset. -/
def Plane.idle : Plane := ⟨[], [], none, [], 0, false, none, 0, none, none, false, false, []⟩

/-- A frame that ingress receives or has received (R398, R399). -/
structure RawFrame where
  /-- frame stamp in ns of the time base, and its beat -/
  startNs : Nat
  startBeat : Nat
  /-- instant of the last unit received, and the beat in which it was received -/
  lastNs : Nat
  lastBeat : Nat
  units : Nat
  errUnits : Nat
  bytes : Nat
  incomplete : Bool
  /-- edge time of the linked trigger -/
  trig : Option Nat
  /-- dropped or discarded: its remaining units are not stored (R402, R403) -/
  dead : Bool
  /-- index of its buffer in the ring it lands in -/
  index : Nat
  doneBeat : Nat
  deriving DecidableEq, Repr

/-- A SPI read that has started (R398, R402): its start time and beat, and for the first read of a frame whether a buffer
was free for it. -/
structure SpiRead where
  ns : Nat
  beat : Nat
  free : Option Bool
  deriving DecidableEq, Repr

/-- A stream beside its registers. -/
structure StreamRun where
  open? : Option RawFrame
  /-- complete frames that wait for the conditioner or for delivery -/
  done : List RawFrame
  /-- next buffer of the raw ring of a conditioned stream -/
  rawNext : Nat
  /-- frames lost since the last delivered one (DROPPED_BEFORE) -/
  dropped : Nat
  /-- SPI reads that have not completed, the oldest first -/
  spiStarts : List SpiRead
  /-- the command bytes that the last completed SPI read sent first (R398) -/
  mosi : List Byte
  deriving DecidableEq, Repr

/-- A stream that is OFF. -/
def StreamRun.idle : StreamRun := ⟨none, [], 0, 0, [], []⟩

/-- Ingress beside its registers: the streams, and the frame in the conditioner with its stream. -/
structure Ingress where
  streams : List (Nat × StreamRun)
  cond : Option (Nat × RawFrame)
  deriving DecidableEq, Repr

/-- A step of the time base that waits for its beat (R382, R700). -/
structure StepReq where
  mode : Nat
  sec : Nat
  ns : Nat
  due : Nat
  deriving DecidableEq, Repr

/-- What a trigger holds beside its registers (R390 to R394). -/
structure Trig where
  /-- TARGET in force, in ns (R9: its registers' lower words are held until the highest is written) -/
  target : Nat
  armBeat : Nat
  /-- a pulse's inactive edge is still to come: its instant in ns of CLK_EVT, 8 ns to a beat (R391) -/
  pulse : Option Nat
  /-- pin edges of its matches in ns of the time base, the last first (R399) -/
  edges : List Nat
  /-- TGT_NS, TGT_SEC_LO were written and wait for TGT_SEC_HI (R9) -/
  heldNs : Bool
  heldLo : Bool
  deriving DecidableEq, Repr

/-- A trigger that has never been armed. -/
def Trig.idle : Trig := ⟨0, 0, none, [], false, false⟩

/-- One capture stamp (R395): time in ns, the edge's kind, and how far into its beat the edge came, in units of 2^-45 ns. -/
structure Stamp where
  ns : Nat
  falling : Bool
  after : Nat
  deriving DecidableEq, Repr

/-- What a capture input holds: the queue, the stamps on their way with the beats at whose end they appear (R397), and
the beats of the last stamped rising and falling edges (R396). -/
structure Capture where
  queue : List Stamp
  flight : List (Stamp × Nat)
  lastRise : Option Nat
  lastFall : Option Nat
  deriving DecidableEq, Repr

/-- An empty capture input. -/
def Capture.idle : Capture := ⟨[], [], none, none⟩

/-- What the time base holds beside its registers (R379 to R386). -/
structure TimeBase where
  /-- beat 0 has begun (R381) -/
  started : Bool
  /-- the beat has stopped (R384) -/
  stopped : Bool
  /-- bits [28:0] of the 45-bit fraction -/
  fracLow : Nat
  /-- RATE in force, clamped (R380) -/
  rate : Int
  steps : List StepReq
  /-- the beat in which PPS_OUT rose, while it is high -/
  ppsHigh : Option Nat
  /-- how far into this beat a PPS_IN edge was stamped, in units of 2^-45 ns -/
  ppsIn : Option Nat
  trigs : List (Nat × Trig)
  caps : List (Nat × Capture)
  deriving DecidableEq, Repr


/-- One cell of Quadrille's feature accumulator, in FP32 codes (R421). -/
structure AccCell where
  n : Nat
  zmin : Nat
  zsum : Nat
  asum : Nat
  deriving DecidableEq, Repr

/-- One axis of a track: position, velocity and acceleration, and the upper triangle of its covariance, in FP32
codes (R429 to R431). -/
structure TrackAxis where
  pos : Nat
  vel : Nat
  acc : Nat
  p00 : Nat
  p01 : Nat
  p02 : Nat
  p11 : Nat
  p12 : Nat
  p22 : Nat
  deriving DecidableEq, Repr

/-- A live track (R429). -/
structure Track where
  id : Word
  /-- 1 TENTATIVE, 2 CONFIRMED, 3 COASTING -/
  life : Nat
  /-- the model is CA -/
  ca : Bool
  hits : Nat
  misses : Nat
  cls : Nat
  sources : Nat
  score : Nat
  x : TrackAxis
  y : TrackAxis
  z : TrackAxis
  len : Nat
  wid : Nat
  hei : Nat
  sec : Nat
  ns : Nat
  det : Nat
  deriving DecidableEq, Repr

/-- The job in progress (R412 to R415): its ring index, type, code so far, and what it applies at its end (R435). -/
structure QdrJob where
  index : Word
  kind : Nat
  code : Nat
  desc : List Byte
  tracks : Option (List (Nat × Track) × Word)
  /-- tracks deleted, detections refused, tracks excluded -/
  deleted : Nat
  refused : Nat
  /-- the beat in which it started, and the CLK_RFX cycles that it takes without stalls (R438) -/
  start : Nat
  cycles : Nat
  deriving DecidableEq, Repr

/-- Quadrille beside its registers. -/
structure Quad where
  job : Option QdrJob
  acc : List (Nat × AccCell)
  /-- vote words, and N_LOG2 and CELL_MM as GRID_CLEAR latched them (R424, R428) -/
  votes : List (Nat × Word)
  nLog2 : Nat
  cellMm : Nat
  tracks : List (Nat × Track)
  nextId : Word
  pubSeq : Word
  /-- TRK_CLEAR waits for the job in progress (R435) -/
  clear : Bool
  deriving DecidableEq, Repr

/-- Quadrille after reset. -/
def Quad.idle : Quad := ⟨none, [], [], 8, 200, [], 1, 0, false⟩


/-- What one sample computed and is to take effect at beat b + 100 (R447, R453). -/
structure RunStep where
  sample : Nat
  u : Int
  d : Int
  i : Int
  x : Int
  sp : Int
  fbv : Int
  /-- fb_prev after the sample -/
  fb : Int
  err : Int
  osat : Bool
  isat : Bool
  /-- the Waltz word learned, by its number in the group -/
  waltz : Option (Nat × Int)
  /-- WALTZ_IDX after the sample -/
  idx : Option Nat
  deriving DecidableEq, Repr

/-- A step that waits for its beat: a sample's (R447), or a safe step with its output, if any, and whether it sets
SAFE_DONE (R460). -/
inductive LoopStep where
  | run (due : Nat) (r : RunStep)
  | safe (due : Nat) (u : Option Int) (finish : Bool)
  deriving DecidableEq, Repr

/-- A loop beside its registers (R447 to R465). -/
structure LoopRun where
  xPrev : Int
  spPrev : Int
  fbPrev : Int
  /-- the bumpless preset is still to be made (R464) -/
  preset : Bool
  miss : Nat
  freeze : Nat
  /-- beat of an accepted return to RUN that waits for the next sample beat -/
  returning : Option Nat
  /-- beat of the last write of RESTART or ENABLE = 1, and STP_Lj_CFG before it (R465) -/
  asked : Option (Nat × Word)
  /-- RAW, sequence and frame count at the previous sample (R448) -/
  prevRaw : Word
  prevSeq : Word
  prevFrames : Nat
  /-- the safe action taken (R460) -/
  act : Nat
  /-- the first safe step has been made -/
  stepped : Bool
  /-- on its way to OFF (R463) -/
  off : Bool
  /-- beat of the last entry to SAFE, and of SAFE_DONE -/
  entry : Option Nat
  doneBeat : Option Nat
  steps : List LoopStep
  /-- TRAJ_BASE, TRAJ_LEN and TRAJ_START in force (R449) -/
  trajBase : Nat
  trajLen : Nat
  trajStart : Nat
  deriving DecidableEq, Repr

/-- A loop that has never run. -/
def LoopRun.idle : LoopRun where
  xPrev := 0
  spPrev := 0
  fbPrev := 0
  preset := false
  miss := 0
  freeze := 0
  returning := none
  asked := none
  prevRaw := 0
  prevSeq := 0
  prevFrames := 0
  act := 0
  stepped := false
  off := false
  entry := none
  doneBeat := none
  steps := []
  trajBase := 0
  trajLen := 1
  trajStart := 0

/-- The Stirrup engines beside their registers. -/
structure Stirrup where
  loops : List (Nat × LoopRun)
  /-- a hand-over that waits: the word written, and its beat H (R468) -/
  handover : Option (Word × Nat)
  /-- the last beat in which a group was sampled -/
  sampled : List (Nat × Nat)
  /-- the beat of the last SHADOW_START (R467) -/
  shadowFrom : Nat
  /-- an ENABLE = 1 written while the engine was DRAINING (R470) -/
  wakeUp : List Nat
  deriving DecidableEq, Repr

/-- The engines after reset. -/
def Stirrup.idle : Stirrup := ⟨[], none, [], 0, []⟩


/-- An absolute encoder input beside its registers (R481 to R483). -/
structure AbsIn where
  /-- beat of the frame in progress, and the data line in it -/
  start : Option (Nat × Bool)
  /-- the last valid code -/
  last : Option Nat
  /-- valid frames so far -/
  frames : Nat
  /-- consecutive invalid frames -/
  badRun : Nat
  deriving DecidableEq, Repr

/-- An absolute input that has seen no frame. -/
def AbsIn.idle : AbsIn := ⟨none, none, 0, 0⟩

/-- A PWM pair beside its registers: the period in progress and the on-intervals of its two switches in ns (R485). -/
structure PwmRun where
  start : Nat
  hi : List (Nat × Nat)
  lo : List (Nat × Nat)
  deriving DecidableEq, Repr

/-- A pair with both switches off. -/
def PwmRun.idle : PwmRun := ⟨0, [], []⟩

/-- A UART beside its registers (R497): a received byte with its framing and parity errors; bytes to send; the byte
on the line. -/
structure Uart where
  rx : List (Byte × Bool × Bool)
  tx : List Byte
  sending : Option Byte
  deriving DecidableEq, Repr

/-- A UART with empty queues. -/
def Uart.idle : Uart := ⟨[], [], none⟩

/-- An input with its filter (R475): the level sampled last, the beat from which it has held, and the filtered level. -/
structure PinFilter where
  raw : Bool
  since : Nat
  level : Bool
  deriving DecidableEq, Repr

/-- The three inputs of a quadrature encoder. -/
structure EncPins where
  a : PinFilter
  b : PinFilter
  z : PinFilter
  deriving DecidableEq, Repr

/-- An input that has been low (log entry 9). -/
def PinFilter.low : PinFilter := ⟨false, 0, false⟩

/-- An encoder whose inputs have been low. -/
def EncPins.low : EncPins := ⟨.low, .low, .low⟩

/-- Motion inputs and outputs beside their registers. -/
structure Motion where
  /-- inputs A, B and Z of the encoders (R475) -/
  encs : List (Nat × EncPins)
  abss : List (Nat × AbsIn)
  pwms : List (Nat × PwmRun)
  /-- the PWM pairs are forced off (R529) -/
  killed : Bool
  /-- the beat of the last raw change of a limit input (R488) -/
  limSince : List (Nat × Nat)
  /-- bounces of the limit inputs in the current window (R489) -/
  limBounce : List (Nat × Nat)
  /-- homing: counter at GO, counter at entry to INDEX, first beat of INDEX, beat of the abort (R491 to R496) -/
  homeStart : Int
  homeEntry : Int
  homeIndexFrom : Nat
  homeAbort : Option Nat
  uarts : List (Nat × Uart)
  deriving DecidableEq, Repr

/-- Motion inputs and outputs after reset. -/
def Motion.idle : Motion where
  encs := []
  abss := []
  pwms := []
  killed := false
  limSince := []
  limBounce := []
  homeStart := 0
  homeEntry := 0
  homeIndexFrom := 0
  homeAbort := none
  uarts := []


/-- A start of a problem of the sparse solver (R501): its beat, and once latched the descriptor and the bytes of the
arrays that it names (R504). -/
structure SsuStart where
  beat : Nat
  desc : Option (List Byte)
  inputs : List (Nat × List Byte)
  /-- the warm vector that the solve started from (R510) -/
  warm : Option (List Word)
  deriving DecidableEq, Repr

/-- The sparse solver unit beside its registers. -/
structure Ssu where
  pending : List (Nat × SsuStart)
  running : Option (Nat × SsuStart)
  /-- the warm vectors as the SSU wrote them (R510), by problem -/
  warm : List (Nat × List Word)
  /-- one more than the beat of a problem's last start: starts of one beat count as one (R501) -/
  starts : List (Nat × Nat)
  deriving DecidableEq, Repr

/-- The solver after reset. -/
def Ssu.idle : Ssu := ⟨[], none, [], []⟩


/-- One frame of the deadline watch (R549 to R551). -/
structure FrameWatch where
  start : Nat
  deadline : Nat
  result : Bool
  deriving DecidableEq, Repr

/-- What Cinch holds beside its registers (R521 to R557). -/
structure Cinch where
  /-- beat of a RUN write that waits for a restart edge (R524) -/
  runReq : Option Nat
  /-- beat in which RUN is to be entered (R524) -/
  entry : Option Nat
  /-- beat of the accepted REARM (R526) -/
  rearmBeat : Nat
  /-- WDOG and FIRMWARE causes that stand until a REARM write (R526) -/
  held : List Nat
  /-- the last beat check failed, or EVT_LOCK was lost (R534) -/
  beatBad : Bool
  /-- loss of VIN_MAIN reported and not ended (R526) -/
  vinLost : Bool
  /-- CIN_DEMAND_N is low (R528) -/
  demand : Bool
  /-- beat of the last fault (R532) -/
  faultBeat : Option Nat
  /-- beat in which the hand-off request rose (R532) -/
  handoffBeat : Option Nat
  /-- the watchdog runs; beat of its start or last kick (R533) -/
  wdog : Option Nat
  /-- a safe-state command waits for its beat (R529) -/
  command : Bool
  /-- beat from which PWM_KILL_US counts (R529) -/
  killBase : Option Nat
  /-- the PWM pairs are to be forced off when PWM_KILL_US has passed -/
  killArmed : Bool
  /-- a BEAT fault: the pairs are to be forced off at once (R530) -/
  killNow : Bool
  /-- 10 µs checks since the last toggle of the safety outputs (R522) -/
  phase : Nat
  /-- transactions that wait for a verdict, the head first (R539) -/
  queue : List Nat
  /-- start of the current frame (R549) -/
  frameStart : Option Nat
  /-- frames whose deadline beat has not ended (R551) -/
  watch : List FrameWatch
  /-- the golden run in progress: its set, its reports so far, all of them good (R545) -/
  golden : Option (Nat × Nat × Bool)
  /-- unit records that ingress copied since the frame start, before the close (R556) -/
  gridRecs : List (List Byte)
  deriving DecidableEq, Repr

/-- Cinch after VAON has come up. -/
def Cinch.boot : Cinch where
  runReq := none
  entry := none
  rearmBeat := 0
  held := []
  beatBad := false
  vinLost := false
  demand := false
  faultBeat := none
  handoffBeat := none
  wdog := none
  command := false
  killBase := none
  killArmed := false
  killNow := false
  phase := 0
  queue := []
  frameStart := none
  watch := []
  golden := none
  gridRecs := []


/-- One Shauz port beside its registers (R562, R566, R582). -/
structure ShzPort where
  /-- SEQ of the last flit that it numbered -/
  txSeq : Nat
  /-- flits sent and not acknowledged, the oldest first; those beyond 256 wait -/
  out : List Flit
  /-- SEQ of the last flit that it accepted -/
  rxSeq : Nat
  /-- it asks for a replay -/
  nak : Bool
  /-- replays of the oldest flit -/
  replays : Nat
  /-- the NAKs until the first resent flit is settled are ignored -/
  replaying : Bool
  /-- flits with a bad CRC in a row; at 4 the lock is lost, and good flits count on from there to 12 (R562) -/
  badRun : Nat
  /-- own send stamp t1 of the exchange in progress -/
  t1 : Option Nat
  /-- beat from which the oldest flit that is not acknowledged waits (R566) -/
  waits : Nat
  /-- beat of the last fall or training (R562) -/
  trained : Option Nat
  /-- beat of the last exchange that the port began (R582) -/
  synced : Option Nat
  deriving DecidableEq, Repr

/-- A port that is DOWN. -/
def ShzPort.down : ShzPort := ⟨0, [], 0, false, 0, false, 0, none, 0, none, none⟩

/-- What a node keeps of one other node (R573, R574). -/
structure ShzPeer where
  /-- E2E_SEQ of the last message numbered -/
  sent : Nat
  /-- messages that the destination has not acknowledged, the oldest first; those beyond 256 wait -/
  held : List Flit
  /-- E2E_SEQ of the last message accepted -/
  accepted : Nat
  /-- messages accepted since the last E2E_ACK -/
  fresh : Nat
  deriving DecidableEq, Repr

/-- A peer with no message either way. -/
def ShzPeer.fresh0 : ShzPeer := ⟨0, [], 0, 0⟩

/-- A READ that waits for its RDATA (R577). -/
structure ShzRead where
  tag : Nat
  node : Nat
  /-- offset of the first byte wanted in the words read -/
  off : Nat
  len : Nat
  start : Nat
  deriving DecidableEq, Repr

/-- A READY recorded by a coordinator slot (R580). -/
structure ShzReady where
  slot : Nat
  node : Nat
  sec : Nat
  ns : Nat
  deriving DecidableEq, Repr

/-- The Shauz link beside its registers. -/
structure Shauz where
  ports : List (Nat × ShzPort)
  peers : List (Nat × ShzPeer)
  ready : List ShzReady
  reads : List ShzRead
  nextTag : Nat
  /-- node 0 has enumerated since it booted (R569) -/
  enumerated : Bool
  /-- the holders of the eight numbers as node 0 knows them: unique identifiers (R569) -/
  holders : List (Nat × Nat)
  /-- an enumeration is in progress at node 0: what the walk through port 0 reached -/
  walk : Option (List WalkEntry)
  /-- the enumeration walks through port 1 -/
  secondWalk : Bool
  /-- beat of a leave in progress (R590) -/
  leaving : Option Nat
  /-- CTRL.ENABLE = 0 took the ports DOWN (R590) -/
  stayDown : Bool
  /-- beat of the last beacon (R585) -/
  beacon : Nat
  /-- beat of the last beacon that node 0 sent -/
  beaconSent : Nat
  /-- the numbers of the last assignment in line order through port 0, and whether its ends meet (R568) -/
  order : List Nat
  ring : Bool
  /-- ports (node, port) that the last beacon reported DOWN -/
  broken : List (Nat × Nat)
  deriving DecidableEq, Repr

/-- The link after reset. -/
def Shauz.idle : Shauz where
  ports := []
  peers := []
  ready := []
  reads := []
  nextTag := 0
  enumerated := false
  holders := []
  walk := none
  secondWalk := false
  leaving := none
  stayDown := false
  beacon := 0
  beaconSent := 0
  order := []
  ring := false
  broken := []


/-- A firmware image in a runtime slot (R611, R612). -/
structure Firmware where
  image : List Byte
  version : Nat
  entry : Nat
  /-- 0 A, 1 B -/
  slot : Nat
  deriving DecidableEq, Repr

/-- A command to the Steward (R618): what STW_CMD and the arguments held as it was written. -/
structure StwCmd where
  op : Nat
  cls : Nat
  index : Nat
  arg0 : Nat
  arg1 : Nat
  pkg : Nat
  trusted : Bool
  beat : Nat
  /-- its failure code, once the Steward has carried it out -/
  code : Option Nat
  deriving DecidableEq, Repr

/-- The Steward beside its registers (R592 to R621). Instances are numbered 0 the Steward, 1 and 2 the Callers, 3 to 6 the
Reflex cores, 7 Cinch, 8 to 12 the Stirrup engines. -/
structure Steward where
  /-- the firmware that each instance runs -/
  active : List (Nat × Firmware)
  /-- the pending slots -/
  waiting : List (Nat × Firmware)
  /-- the command in progress, and commands written during a restart (R614, R615) -/
  cmd : Option StwCmd
  queue : List StwCmd
  /-- beat of the last write of the key to CFG_FUSE_UNLOCK (R609) -/
  unlock : Option Nat
  /-- no image has booted since VAON came up (R604, R606) -/
  vaonLost : Bool
  /-- the main stage has begun and the Steward has not booted yet (R593, R594) -/
  toBoot : Bool
  /-- Tier B training is in progress (R594) -/
  training : Bool
  /-- where the boot hart started (R594) -/
  bootHart : Option Nat
  /-- key slot that signed the running image (R609) -/
  signedBy : Option Nat
  deriving DecidableEq, Repr

/-- The Steward before its first boot. -/
def Steward.idle : Steward where
  active := []
  waiting := []
  cmd := none
  queue := []
  unlock := none
  vaonLost := true
  toBoot := false
  training := false
  bootHart := none
  signedBy := none

/-- The fuse array (R607 ff., table of fuses). Key hashes as numbers, first byte most significant. -/
structure Fuses where
  secureBoot : Bool
  keyHash0 : Nat
  keyHash1 : Nat
  keyRevoke : Nat
  /-- 64 bits; the count of blown bits is the lowest SEC_VERSION accepted -/
  rollback : Nat
  debugLock : Bool
  uid : Nat
  deriving DecidableEq, Repr

/-- A fuse array with nothing blown (log entry 8). -/
def Fuses.blank : Fuses := ⟨false, 0, 0, 0, 0, false, 0⟩

/-- The configuration flash (R597): the bytes that are not erased, the 64 KiB blocks that a failed erase or write left
unknown, and the image regions that hold a verified image (R621). -/
structure Flash where
  cells : List (Nat × Byte)
  unknown : List (Nat × Nat)
  verified : List Nat
  deriving DecidableEq, Repr

/-- An erased flash (log entry 8). -/
def Flash.erased : Flash := ⟨[], [], []⟩


/-- The test access port (R626, R668): the two-pin form is selected; the instruction; the data register as it was last
captured and shifted out; and the update latches of the boundary cells. -/
structure Tap where
  twoPin : Bool
  ir : TapInstr
  out : Nat
  cells : Nat
  deriving DecidableEq, Repr

/-- The port after TRST_N. -/
def Tap.idle : Tap := ⟨false, .idcode, 0, 0⟩

/-- A record of the op trace that waits for the end of its beat (R389): its place (0 golden op, 1 ring 0, 2 ring 1), its
bytes but for SEQ, and the completion code. -/
structure TrcRec where
  rank : Nat
  bytes : List Byte
  code : Nat
  deriving DecidableEq, Repr

/-- Tooling beside its registers. -/
structure Tooling where
  /-- halted harts, by initiator code (R622, R627) -/
  halted : List Nat
  /-- which stop of a hart it is in: registers that the debugger has not written hold what the hart left (R622) -/
  stops : List (Nat × Nat)
  /-- registers of halted harts that the debugger has written -/
  written : List (Nat × HartReg × Nat)
  /-- data of the last abstract command, and its error code -/
  data : Nat
  cmderr : Nat
  /-- SEQ of the next trace record, and records to go before FROZEN once an error was traced (R640) -/
  trcSeq : Word
  trcPost : Option Nat
  /-- records of the op trace of this beat -/
  trcBeat : List TrcRec
  /-- SEQ of the next sample, and samples not written since the last record (R636) -/
  smpSeq : Word
  smpLost : Nat
  /-- harts that halt on their next reset (R622) -/
  resetHalt : List Nat
  tap : Tap
  deriving DecidableEq, Repr

/-- Tooling after reset. -/
def Tooling.idle : Tooling := ⟨[], [], [], 0, 0, 0, none, [], 0, 0, [], .idle⟩


/-- Kinds of outbound PCIe requests that wait for a completion (R646, R650). -/
inductive PcieKind where
  | memRead | cfgRead | cfgWrite
  deriving DecidableEq, Repr

/-- An outbound request in flight. -/
structure PcieReq where
  port : Nat
  tag : Nat
  kind : PcieKind
  addr : Nat
  size : Nat
  beat : Nat
  deriving DecidableEq, Repr

/-- The PCIe controller beside its registers (R644 to R651). -/
structure Pcie where
  reqs : List PcieReq
  /-- pending interrupt identities: core and identity (R648) -/
  imsic : List (Nat × Nat)
  /-- error messages that the root ports have logged, the last first: port and severity (R650) -/
  aer : List (Nat × Nat)
  /-- ports whose link retrains (R644) -/
  retrain : List Nat
  deriving DecidableEq, Repr

/-- PCIe after reset. -/
def Pcie.idle : Pcie := ⟨[], [], [], []⟩

/-- The gate lists of a port in time (R656): the operational list's cycle start, cycle and length, the entry in force and
the instant of its end; and the administrative list that waits: its start, cycle and length. Times in ns. -/
structure GateRun where
  start : Nat
  cycle : Nat
  len : Nat
  entry : Nat
  until_ : Nat
  swap : Option (Nat × Nat × Nat)
  deriving DecidableEq, Repr

/-- A port that has never had a gate list. -/
def GateRun.idle : GateRun := ⟨0, 0, 0, 0, 0, none⟩

/-- A CAN FD port (R662): its two receive FIFOs in order of arrival with the stamps, its transmit buffers, and the error
counters of ISO 11898-1. -/
structure CanPort where
  fifo0 : List (CanFrame × Nat)
  fifo1 : List (CanFrame × Nat)
  tx : List CanFrame
  tec : Nat
  rec_ : Nat
  deriving DecidableEq, Repr

/-- A CAN FD port after reset. -/
def CanPort.idle : CanPort := ⟨[], [], [], 0, 0⟩

/-- An I²C controller (R666): the status of its last transfer, the bytes it read, and how many recoveries it sent. -/
structure I2cRun where
  status : Nat
  data : List Byte
  recoveries : Nat
  deriving DecidableEq, Repr

/-- An I²C controller after reset. -/
def I2cRun.idle : I2cRun := ⟨0, [], 0⟩

/-- Ethernet, CAN FD, SPI and I²C beside their registers (R652 to R666). -/
structure Field where
  gates : List (Nat × GateRun)
  /-- histories of the recovery entries, by 64 × port + entry: the last number accepted and a mask of those before it -/
  histories : List (Nat × Nat × Nat)
  can : List (Nat × CanPort)
  /-- direct SPI transfers in progress: master, and the word written to GO -/
  spi : List (Nat × Word)
  i2c : List (Nat × I2cRun)
  /-- the last frame that each Ethernet port sent, as it left (R385, R657) -/
  sent : List (Nat × List Byte)
  deriving DecidableEq, Repr

/-- The field ports after reset. -/
def Field.idle : Field := ⟨[], [], [], [], [], []⟩


/-- Power, clocks and reset beside their registers (R673 to R691). -/
structure Power where
  /-- level of RESET_N -/
  resetN : Bool
  /-- main resets that SYS_RESET.MAIN or ndmreset requested: the beat, and the bit of SYS_RESET_CAUSE (R686) -/
  asked : List (Nat × Nat)
  /-- beat in which the last main reset of that kind started (R683) -/
  softBeat : Option Nat
  /-- beat since which every rail has been within tolerance -/
  goodSince : Nat
  /-- beat in which the last main reset ended (R685) -/
  endBeat : Option Nat
  /-- THERM_TRIP_N is low (R691) -/
  tripLow : Bool
  /-- clocks that the cap allows, and clocks that the temperature allows, in MHz: tensor and cluster (R40, R690) -/
  capTen : Nat
  capApp : Nat
  thermTen : Nat
  thermApp : Nat
  /-- beat of the last thermal step -/
  stepBeat : Option Nat
  /-- the system reference is lost, and CLK_RFX stands still (R688) -/
  refLost : Bool
  deriving DecidableEq, Repr

/-- Power and reset after VAON has come up. -/
def Power.idle : Power where
  resetN := false
  asked := []
  softBeat := none
  goodSince := 0
  endBeat := none
  tripLow := false
  capTen := 600
  capApp := 0
  thermTen := 1500
  thermApp := 2600
  stepBeat := none
  refLost := false

/-- The state of the block. -/
structure State where
  /-- the commands that wait, first in first out -/
  pending : List Instr
  /-- the model's own counter: draws the free values of Config (log entry 4) -/
  freeCtr : Nat
  /-- the response of the last access (log entry 3) -/
  resp : Resp
  /-- every register that does not hold its reset value, by physical address -/
  regs : List (Nat × Word)
  /-- every byte of memory that does not read as an unlisted one (log entries 2 and 15) -/
  mem : List Host.Cell
  /-- how often the contents of a unit of memory have become undefined (R63, R679) -/
  lost : List (Nat × Nat)
  /-- addresses of the 64-bit words that hold an uncorrectable error (R66, R75) -/
  bad : List Nat
  /-- errors that stand in stored words, or that the next reads of them meet, and that no read has found yet (R66, R75) -/
  upsets : List ErrFinding
  /-- the highest place of R387 and R700 reached in this beat (log entry 34) -/
  order : Nat
  /-- register bits that events of order 1 to 6 changed in this beat (R388) -/
  touched : List (Nat × Word)
  /-- registers that a transaction wrote in this beat (R122) -/
  committed : List Nat
  /-- the signals that reached buckles in this beat, the last first (R98) -/
  landed : List Landed
  /-- load reservations: initiator code and address (R50) -/
  reservations : List (Nat × Nat)
  /-- stores that wait in the processors' buffers, the oldest first (R105, R107) -/
  buffers : List BufStore
  /-- the words of Tier B that the caches of the application cluster hold (R49, R51) -/
  cache : List (Nat × Option CacheWord)
  /-- cores that an imprecise bus-error interrupt was raised at, the first first (R537) -/
  busErrors : List Nat
  /-- the transactions that are not IDLE, by number -/
  txns : List (Nat × Txn)
  /-- how many ARM commands have been accepted (R121) -/
  armCount : Nat
  /-- memory entries of committed transactions still to be written (R118) -/
  memPending : List TxnEntry
  /-- snapshot slots in progress (R128) -/
  snaps : List SnapRun
  /-- the IOTLB (R81) -/
  tlb : List TlbEntry
  /-- the non-leaf cache (R81) -/
  dirs : List DirEntry
  /-- cached device contexts (R77) -/
  devCtxs : List (Nat × DevCtx)
  /-- cached process contexts (R77) -/
  procCtxs : List ProcCtx
  /-- interrupt vectors of the tensor IOMMU that keep a message while masked (R77) -/
  iomHeld : List Nat
  /-- root swaps with walks of the old root in flight (R84) -/
  swapRuns : List SwapRun
  /-- standing throttle requests of the stacks (R76) -/
  throttles : List (Nat × ThrottleCause)
  /-- the interrupt of TRB_INT_EN.THR_EN: THROTTLE rose while enabled -/
  throttleIrq : Bool
  /-- the time base, triggers and captures beside their registers -/
  tmb : TimeBase
  /-- sensor ingress and its conditioner beside their registers -/
  ing : Ingress
  /-- Cinch beside its registers -/
  cin : Cinch
  /-- the Shauz link beside its registers -/
  shz : Shauz
  /-- the Stirrup engines beside their registers -/
  stp : Stirrup
  /-- motion inputs and outputs beside their registers -/
  mio : Motion
  /-- the sparse solver beside its registers -/
  ssu : Ssu
  /-- Quadrille beside its registers -/
  qdr : Quad
  /-- the Callers and the Tensor Plane beside their registers -/
  ten : Plane
  /-- Tooling beside its registers -/
  tlg : Tooling
  /-- PCIe beside its registers -/
  pcie : Pcie
  /-- Ethernet and the field ports beside their registers -/
  field : Field
  /-- the Steward beside its registers -/
  stw : Steward
  /-- the fuse array (log entry 8) -/
  fuses : Fuses
  /-- the configuration flash (log entry 8) -/
  flash : Flash
  /-- power, clocks and reset beside their registers -/
  pwr : Power
  deriving DecidableEq, Repr

/-- The block right after a power-on reset, with the main domain still in reset (log entry 6). -/
def State.reset : State where
  pending := []
  freeCtr := 0
  resp := .none
  regs := []
  mem := []
  lost := []
  bad := []
  upsets := []
  order := 0
  touched := []
  committed := []
  landed := []
  reservations := []
  buffers := []
  cache := []
  busErrors := []
  txns := []
  armCount := 0
  memPending := []
  snaps := []
  tlb := []
  dirs := []
  devCtxs := []
  procCtxs := []
  iomHeld := []
  swapRuns := []
  throttles := []
  throttleIrq := false
  tmb := ⟨false, false, 0, 0, [], none, none, [], []⟩
  ing := ⟨[], none⟩
  cin := Cinch.boot
  shz := Shauz.idle
  stp := Stirrup.idle
  mio := Motion.idle
  ssu := Ssu.idle
  qdr := Quad.idle
  ten := Plane.idle
  tlg := Tooling.idle
  pcie := Pcie.idle
  field := Field.idle
  stw := Steward.idle
  fuses := Fuses.blank
  flash := Flash.erased
  pwr := Power.idle

end Sys2Proof.Machine
end

