-- ==== Sys2Proof/Machine/Ops.lean ====
section
/-!
DEFINITION. Machine/Ops.lean: the named operations over registers, time, free values and memory that the meanings
of the commands share.
-/

namespace Sys2Proof.Machine

/-- What a command answers. -/
abbrev Out := Host.Outcome State Fault Refusal

/-! ### Registers -/

/-- The value of the register at address `a`. -/
def State.rget (s : State) (a : Nat) : Word := spGet resetOf s.regs a

/-- The state with the register at `a` holding `v`. -/
def State.rset (s : State) (a : Nat) (v : Word) : State :=
  { s with regs := spSet resetOf s.regs a v }

/-- Field [hi:lo] of the register at `a`. -/
def State.fget (s : State) (a hi lo : Nat) : Nat := fieldOf (s.rget a) hi lo

/-- The state with field [hi:lo] of the register at `a` holding `v`. -/
def State.fset (s : State) (a hi lo v : Nat) : State := s.rset a (withField (s.rget a) hi lo v)

/-- Bit `i` of the register at `a`. -/
def State.bit (s : State) (a i : Nat) : Bool := bitOf (s.rget a) i

/-- The state with bit `i` of the register at `a` set to `b`. -/
def State.bput (s : State) (a i : Nat) (b : Bool) : State := s.fset a i i (b2n b)

/-- The state with bit `i` of the register at `a` set. -/
def State.flag (s : State) (a i : Nat) : State := s.bput a i true

/-- A 64-bit value in two consecutive registers, low word first (R8). -/
def State.get64 (s : State) (a : Nat) : Nat := (s.rget a).toNat + 2 ^ 32 * (s.rget (a + 4)).toNat

/-- Write a 64-bit value into two consecutive registers, modulo 2^64. -/
def State.set64 (s : State) (a v : Nat) : State :=
  (s.rset a (toWord v)).rset (a + 4) (toWord (v / 2 ^ 32))

/-- Does TLG_CNTc_SEL = `sel` select event e of instance i; `i` 64 where the event has no instances (R633, R634). -/
def selects (sel : Word) (e i : Nat) : Bool :=
  decide (fieldOf sel 9 0 = e) && (decide (fieldOf sel 21 16 = 63) || decide (fieldOf sel 21 16 = i))

/-- The numbers of the event counters that count event e of instance i. -/
def State.counting (s : State) (e i : Nat) : List Nat :=
  s.regs.filterMap fun r =>
    if 0x10701000 ≤ r.1 ∧ r.1 < 0x10701800 ∧ selects r.2 e i then some ((r.1 - 0x10701000) / 4) else none

/-- The event counters count n times event e of instance i (R633): 64 bits, wrapping. -/
def State.tally (s : State) (e i n : Nat) : State :=
  if e = 0 ∨ n = 0 then s
  else (s.counting e i).foldl (fun s c => s.set64 (Reg.tlgCntLo c) (s.get64 (Reg.tlgCntLo c) + n)) s

/-- The unit counters whose counting is an event of the catalogue (R634): the first one's address, the stride, how many,
the first event, and whether the members are instances of one event (else of consecutive
events without instances). -/
def eventRows : List (Nat × Nat × Nat × Nat × Bool) := [
  (Reg.tmbBeatLo, 1, 1, 0x001, false), (Reg.hidCycLo 0, 8, 7, 0x010, false), (Reg.hidTileCount, 1, 1, 0x018, false),
  (Reg.hidChkTiles, 1, 1, 0x019, false), (Reg.hidChkMismatchCount, 1, 1, 0x01A, false),
  (Reg.latStallCycLo 0, 8, 6, 0x020, false), (Reg.tngStallCycLo 0, 8, 6, 0x028, false),
  (Reg.calRingErrCount 0, 0x80, 2, 0x031, true), (Reg.calRingWaitCycLo 0, 0x80, 2, 0x032, true),
  (Reg.calGoldenRunCount, 1, 1, 0x033, false), (Reg.calRingOverrunCount 0, 0x80, 2, 0x034, false),
  (Reg.latWinFillLo 0, 0x20, 2, 0x038, true), (Reg.tngChunkCount, 1, 1, 0x058, false),
  (Reg.tngSkipCount, 1, 1, 0x059, false), (Reg.tngAppendCount, 1, 1, 0x05A, false),
  (Reg.relFusedRows, 1, 1, 0x060, false), (Reg.ingStrSeq 0, 0x40, 40, 0x070, true),
  (Reg.ingStrDropCount 0, 8, 40, 0x071, true), (Reg.ingStrErrCount 0, 8, 40, 0x072, true),
  (Reg.qdrJobCount, 1, 1, 0x078, false), (Reg.qdrTrackRefusedCount, 1, 1, 0x079, false),
  (Reg.txnAbortCount, 1, 1, 0x091, false), (Reg.shzPReplayCount 0, 0x20, 2, 0x099, true),
  (Reg.shzPCrcCount 0, 0x20, 2, 0x09A, true), (Reg.ethRxFrames 0, 0x1000, 4, 0x0A0, true),
  (Reg.ethTxFrames 0, 0x1000, 4, 0x0A1, true)]

/-- The event and the instance that the unit counter at `a` stands for; event 0 where it stands for none. CAL_RINGn
overruns count as one event without instances. -/
def eventOf (a : Nat) : Nat × Nat :=
  match eventRows.find? fun r => decide (r.1 ≤ a ∧ (a - r.1) % r.2.1 = 0 ∧ (a - r.1) / r.2.1 < r.2.2.1) with
  | none => (0, 64)
  | some (b, st, _, e, byInst) =>
    if byInst then (e, (a - b) / st) else if e = 0x034 then (e, 64) else (e + (a - b) / st, 64)

/-- A unit counter at `a` has counted from `old` by n: the event counters follow. Window bytes count in 64 B. -/
def State.follow (s : State) (a old n : Nat) : State :=
  let (e, i) := eventOf a
  s.tally e i (if e = 0x038 then (old + n) / 64 - old / 64 else n)

/-- A counter that saturates at 0xFFFF_FFFF counts `n` events. -/
def State.count (s : State) (a n : Nat) : State := (s.rset a (satAdd (s.rget a) n)).follow a (s.rget a).toNat n

/-- A counter that wraps at 2^32 counts `n` events. -/
def State.bump (s : State) (a n : Nat) : State := (s.rset a (s.rget a + toWord n)).follow a (s.rget a).toNat n

/-- A 64-bit counter that wraps counts `n`. -/
def State.bump64 (s : State) (a n : Nat) : State := (s.set64 a (s.get64 a + n)).follow a (s.get64 a) n

/-- Answer the access with response `r`. -/
def State.respond (s : State) (r : Resp) : State := { s with resp := r }

/-! ### Free values (log entry 4) -/

/-- Draw a free bit. -/
def State.drawBit (s : State) : Bool × State :=
  (Config.freeBit s.freeCtr, { s with freeCtr := s.freeCtr + 1 })

/-- Draw a free number. -/
def State.drawNat (s : State) : Nat × State :=
  (Config.freeNat s.freeCtr, { s with freeCtr := s.freeCtr + 1 })

/-! ### Time (R379, R381) -/

/-- The beat count. -/
def State.beat (s : State) : Nat := s.get64 Reg.tmbBeatLo

/-- The whole seconds of the time base. -/
def State.secs (s : State) : Nat := s.get64 Reg.tmbTimeSecLo

/-- The nanoseconds of the time base. -/
def State.nanos (s : State) : Nat := s.fget Reg.tmbTimeNs 29 0

/-- The time base as one number of nanoseconds. -/
def State.timeNs (s : State) : Nat := s.secs * 1000000000 + s.nanos

/-- One microsecond in beats of 8 ns. -/
def beatsPerUs : Nat := 125

/-! ### Same-beat order (R387, R388, R700; log entry 34) -/

/-- Is an action at the start of this beat still to come (R700): a step, a snapshot latch or a hand-over. -/
def State.startDue (s : State) : Bool :=
  s.tmb.steps.any (fun r => decide (r.due = s.beat)) ||
    s.snaps.any (fun r => decide (r.latchBeat = s.beat) && r.latched.isNone) ||
    s.stp.handover.any fun h => decide (h.2 = s.beat)

/-- May an event of place k take effect now: no event of a later place has taken effect in this beat, and no action at its
start is still to come. The places: 0 the start of the beat (R700); 1 to 8 the orders of R387, with Stirrup outputs at 7
after the trigger matches at 6 and transaction commits at 8; 9 after an external reset, when no lower event acts (R388). -/
def State.placeOpen (s : State) (k : Nat) : Bool := decide (s.order ≤ k) && !s.startDue

/-- An event of place k takes effect. -/
def State.atPlace (s : State) (k : Nat) : State := { s with order := max s.order k }

/-! ### Initiators -/

/-- R17: the untrusted initiators. -/
def isTrusted : Initiator → Bool
  | .app _ | .caller _ | .pcie | .shauz | .tensor _ => false
  | .steward | .reflex _ | .cinch | .ingress | .quadrille | .ssu | .timebase | .ethernet | .tooling => true

/-- The initiator code table. Engines own no transaction; they have the code 0xFF, which no initiator has. -/
def initCode : Initiator → Nat
  | .app n => n % 12
  | .steward => 0x10
  | .caller n => 0x18 + n % 2
  | .reflex n => 0x20 + n % 4
  | .cinch => 0x30
  | .pcie => 0x40
  | .shauz => 0x48
  | _ => 0xFF

/-- R680: the initiators of the always-on domain. -/
def isAlwaysOn : Initiator → Bool
  | .reflex _ | .cinch | .ingress | .quadrille | .ssu | .timebase => true
  | _ => false

/-! ### Domains and regions -/

/-- Is the main domain out of reset and powered (SYS_STATUS.MAIN_ON). -/
def State.mainOn (s : State) : Bool := s.bit Reg.sysStatus 0

/-- The ranges of R44. -/
inductive Region where
  | bootRom | registers | reflexSram | cinchSram | tierA | tierB | pcieWindow | shauzWindow | unmapped
  deriving DecidableEq, Repr

def reflexBase : Nat := 0x40000000
def cinchBase : Nat := 0x50000000
def tierABase : Nat := 0x100000000
def tierBBase : Nat := 0x10000000000

/-- R44: the range an address lies in. -/
def regionOf (a : Nat) : Region :=
  if a ≤ 0x3FFFF then .bootRom
  else if 0x10000000 ≤ a ∧ a ≤ 0x1FFFFFFF then .registers
  else if 0x40000000 ≤ a ∧ a ≤ 0x407FFFFF then .reflexSram
  else if 0x50000000 ≤ a ∧ a ≤ 0x500FFFFF then .cinchSram
  else if 0x100000000 ≤ a ∧ a ≤ 0x10FFFFFFF then .tierA
  else if 0x10000000000 ≤ a ∧ a ≤ 0x117FFFFFFFF then .tierB
  else if 0x400000000000 ≤ a ∧ a ≤ 0x7FFFFFFFFFFF then .pcieWindow
  else if 0x800000000000 ≤ a ∧ a ≤ 0xBFFFFFFFFFFF then .shauzWindow
  else .unmapped

/-- R680, R681: is the address in the main domain. The list of R681 does not name the boot ROM. -/
def mainAddress (a : Nat) : Bool :=
  match regionOf a with
  | .tierA | .tierB | .pcieWindow | .shauzWindow => true
  | .registers =>
    let k := blockIndex a
    if k = 0x00 then decide (0x100 ≤ a % 0x10000)
    else if 0x10 ≤ k ∧ k ≤ 0x19 then false
    else if k = 0x20 then false
    else if k = 0x61 then decide (a % 0x10000 < 0x8000)
    else if k = 0x80 then decide (a % 0x10000 ≠ 4)
    else true
  | _ => false

/-- R681: can the address be reached now. -/
def State.reachable (s : State) (a : Nat) : Bool := s.mainOn || !mainAddress a

/-! ### Vouched destinations and sealed ranges (R535 to R538) -/

/-- The destinations of the table of R535. -/
def vouchable (a : Nat) : Bool :=
  let k := blockIndex a
  let o := a % 0x10000
  (decide (0x10000000 ≤ a ∧ 0x13 ≤ k ∧ k ≤ 0x16 ∧ 0x1000 ≤ o ∧ o < 0x3000) &&
    decide (o % 0x100 = 0x18 ∨ o % 0x100 = 0x1C ∨ o % 0x100 = 0x70 ∨ o % 0x100 = 0x74 ∨
      o % 0x100 = 0x78 ∨ o % 0x100 = 0x7C)) ||
  (decide (0x10180400 ≤ a ∧ a < 0x10180A00) &&
    decide (0x0C ≤ (a - 0x10180400) % 0x40 ∧ (a - 0x10180400) % 0x40 ≤ 0x1C ∧ a % 4 = 0)) ||
  decide (0x10180C00 ≤ a ∧ a ≤ 0x10180C14 ∧ a % 4 = 0) ||
  decide (0x40000000 ≤ a ∧ a ≤ 0x407FFFFC ∧ a % 4 = 0)

/-- Vouched-destination entry k covers these addresses (R535). -/
def State.vdAddresses (s : State) (k : Nat) : List Nat :=
  (List.range (s.fget (Reg.cinVdShape k) 7 0 + 1)).map fun i =>
    (s.rget (Reg.cinVdAddr k)).toNat + s.fget (Reg.cinVdShape k) 23 8 * i

/-- Is entry k in use: KIND 1 or 2 (3 acts as 0) and every address in the table (R535). -/
def State.vdInUse (s : State) (k : Nat) : Bool :=
  let kind := s.fget (Reg.cinVdShape k) 25 24
  (kind = 1 || kind = 2) && (s.vdAddresses k).all vouchable

/-- The lowest entry in use that covers the 32-bit word at `a`. -/
def State.vdHit (s : State) (a : Nat) : Option Nat :=
  (List.range 128).find? fun k => s.vdInUse k && (s.vdAddresses k).contains a

/-- Is the 32-bit word at `a` a vouched destination. -/
def State.vouched (s : State) (a : Nat) : Bool := (s.vdHit a).isSome

/-- The word addresses that `n` bytes at `a` touch. -/
def wordsOf (a n : Nat) : List Nat :=
  (List.range ((a % 4 + n + 3) / 4)).map fun i => a / 4 * 4 + 4 * i

/-- Do `n` bytes at `a` touch sealed range r (R537). -/
def State.inSeal (s : State) (r a n : Nat) : Bool :=
  let base := s.fget (Reg.cinSealBaseLo r) 31 6 * 64 + s.fget (Reg.cinSealBaseHi r) 15 0 * 2 ^ 32
  let size := s.fget (Reg.cinSealSize r) 24 6 * 64
  decide (a < base + size ∧ base < a + n)

/-- Do `n` bytes at `a` touch a SEALED range (R537). -/
def State.sealedAt (s : State) (a n : Nat) : Bool :=
  (List.range 16).any fun r =>
    s.bit (Reg.cinSealCtrl r) 0 && s.bit (Reg.cinSealCtrl r) 1 && s.inSeal r a n

/-- R20, R536: count a vouching bypass attempt. -/
def State.countBypass (s : State) : State :=
  (s.bump Reg.cinBypassCount 1).flag Reg.cinStatus 6

/-! ### Memory bytes -/

/-- The unit of memory that an address lies in: bank groups 0 to 15 of Tier A, 16 Tier B, 17 Reflex SRAM, 18 Cinch SRAM,
19 the rest. Contents become undefined by units (R63, R679). -/
def memUnit (a : Nat) : Nat :=
  match regionOf a with
  | .tierA => (a - tierABase) / 0x1000000
  | .tierB => 16
  | .reflexSram => 17
  | .cinchSram => 18
  | _ => 19

/-- What an unlisted byte reads as: 0 while its unit has never lost its contents (log entry 2), and a free byte after the
contents became undefined for the e-th time (R63, R679, log entry 15). The boot ROM's contents are the part's own. -/
def memDefault (lost : List (Nat × Nat)) (a : Nat) : Byte :=
  if regionOf a = .bootRom then Config.romByte a
  else
    match spGet (fun _ => 0) lost (memUnit a) with
    | 0 => 0
    | e + 1 => Config.freeByte e a

/-- The bytes that a memory entry writes (R112). -/
def TxnEntry.bytes (e : TxnEntry) : List Byte :=
  if e.kind = 0 then natToBytes 4 e.lo.toNat
  else if e.kind = 1 then natToBytes 4 e.lo.toNat ++ natToBytes 4 e.hi.toNat
  else []

/-- Do `n` bytes at `a` touch the word that a memory entry names. -/
def TxnEntry.touches (e : TxnEntry) (a n : Nat) : Bool := decide (a < e.addr + e.bytes.length ∧ e.addr < a + n)

/-- What the committed memory entries that are still to be written hold for the byte at `a`: the last one in staging
order. -/
def pendingByte : List TxnEntry → Nat → Option Byte
  | [], _ => none
  | e :: es, a =>
    match pendingByte es a with
    | some b => some b
    | none => if e.addr ≤ a then e.bytes[a - e.addr]? else none

/-- One byte of memory. An access to a word that a committed transaction names waits for its write, and so sees the new
value (R118). -/
def State.readByte (s : State) (a : Nat) : Byte :=
  match pendingByte s.memPending a with
  | some b => b
  | none => spGet (memDefault s.lost) s.mem a

/-- `n` bytes of memory from `a`. -/
def State.readBytes (s : State) (a n : Nat) : List Byte := (List.range n).map fun i => s.readByte (a + i)

/-- A little-endian number of `n` bytes at `a` (R3). -/
def State.readNat (s : State) (a n : Nat) : Nat := bytesToNat (s.readBytes a n)

/-- The memory with one byte written. -/
def memPut (lost : List (Nat × Nat)) (m : List Host.Cell) (a : Nat) (b : Byte) : List Host.Cell :=
  spSet (memDefault lost) m a b

/-- The memory with these bytes written from `a`. -/
def memPutAll (lost : List (Nat × Nat)) : List Host.Cell → Nat → List Byte → List Host.Cell
  | m, _, [] => m
  | m, a, b :: bs => memPutAll lost (memPut lost m a b) (a + 1) bs

/-- The canonical form of the memory. -/
abbrev Memory.wf (lost : List (Nat × Nat)) (m : List Host.Cell) : Prop := SpWf (memDefault lost) m

/-- The contents of the units of memory that `f` selects become undefined. -/
def State.loseMemory (s : State) (f : Nat → Bool) : State :=
  { s with
    mem := s.mem.filter fun c => !f (memUnit c.1)
    bad := s.bad.filter fun w => !f (memUnit w)
    upsets := s.upsets.filter fun e => !f (memUnit e.word)
    lost := ((List.range 19).filter f).foldl
      (fun l u => spSet (fun _ => 0) l u (spGet (fun _ => 0) l u + 1)) s.lost }

/-- Remove from `bad` the words that `n` bytes at `a` cover whole: a full write stores a fresh code (R67). -/
def freshWords (bad : List Nat) (a n : Nat) : List Nat :=
  bad.filter fun w => !decide (a ≤ w ∧ w + 8 ≤ a + n)

/-- The errors that stand after `n` bytes at `a` are written: those of the words covered whole are gone (R67). -/
def freshErrors (es : List ErrFinding) (a n : Nat) : List ErrFinding :=
  es.filter fun e => !decide (a ≤ e.word ∧ e.word + 8 ≤ a + n)

/-- Store bytes from `a`. -/
def State.rawBytes (s : State) (a : Nat) (bs : List Byte) : State :=
  { s with mem := memPutAll s.lost s.mem a bs, bad := freshWords s.bad a bs.length,
           upsets := freshErrors s.upsets a bs.length }

/-! ### Tier A: pockets (R56 to R59) -/

/-- Does the pocket with register value `w` (CFG or ACTIVE layout) cover bank group g. -/
def pocketCovers (w : Word) (g : Nat) : Bool :=
  bitOf w 0 && decide (fieldOf w 7 4 ≤ g ∧ g < fieldOf w 7 4 + 2 ^ fieldOf w 10 8)

/-- The enabled pocket in effect over bank group g. -/
def State.pocketOf (s : State) (g : Nat) : Option Nat :=
  (List.range 8).find? fun n => pocketCovers (s.rget (Reg.canPocketActiveN n)) g

/-- The bank group of a Tier A address. -/
def bankGroup (a : Nat) : Nat := (a - tierABase) / 0x1000000

/-- The banks of bank group g (R54): 128 banks of 2 MiB, 8 to a group. -/
def banksOf (g : Nat) : List Nat := (List.range 8).map fun i => 8 * g + i

/-- The bank of a Tier A address within the pocket over it, of register value `w`: consecutive granules of 64 bytes rotate
across every bank of the pocket (R56). -/
def pocketBank (w : Word) (a : Nat) : Nat :=
  (a - tierABase - fieldOf w 7 4 * 0x1000000) / 64 % (8 * 2 ^ fieldOf w 10 8)

/-- The global bank that holds a Tier A address (R54, R56): none where no enabled pocket covers it (R58). -/
def State.globalBank (s : State) (a : Nat) : Option Nat :=
  (s.pocketOf (bankGroup a)).map fun n =>
    let w := s.rget (Reg.canPocketActiveN n)
    8 * fieldOf w 7 4 + pocketBank w a

/-- R59: the permission bit that a writer's class needs; none: always accepted. Ethernet, Tooling, the SSU and the
time base stand in no class of R59; Ethernet and Tooling take WR_EXTERNAL, the others WR_REFLEX (log entry 13). -/
def writeClass : Initiator → Option Nat
  | .steward => none
  | .tensor r | .caller r => some (16 + r % 2)
  | .app _ => some 18
  | .reflex _ | .cinch | .ingress | .quadrille | .ssu | .timebase => some 19
  | .pcie | .shauz | .ethernet | .tooling => some 20

/-- May `who` write bank group g now (R58, R59). -/
def State.pocketWritable (s : State) (who : Initiator) (g : Nat) : Bool :=
  match s.pocketOf g with
  | none => false
  | some n =>
    match writeClass who with
    | none => true
    | some b => s.bit (Reg.canPocketActiveN n) b

/-! ### Access checks -/

/-- R411: do `n` bytes at `a` touch Quadrille's job ring. -/
def State.inQdrRing (s : State) (a n : Nat) : Bool :=
  let base := reflexBase + s.fget Reg.qdrRingCfg 22 6 * 64
  decide (a < base + 64 * 2 ^ s.fget Reg.qdrRingCfg 27 24 ∧ base < a + n)

/-- May a byte at `a` be read from memory now (R45, R58, R74, R681). Registers and windows are no memory. -/
def State.readable (s : State) (a : Nat) : Bool :=
  s.reachable a &&
  match regionOf a with
  | .bootRom | .reflexSram | .cinchSram => true
  | .tierA => (s.pocketOf (bankGroup a)).isSome
  | .tierB => s.bit Reg.trbStatus 0
  | _ => false

/-- Why a write is refused. -/
inductive Denied where
  | fault
  /-- the pocket's permission bit is clear (R59) -/
  | permission
  /-- a vouched destination (R20, R536) -/
  | vouched
  /-- a sealed range (R537) -/
  | sealed
  deriving DecidableEq, Repr

/-- Is a write of `n` bytes at `a` by `who` refused, and why (R45 to R47, R58, R59, R74, R536, R537, R681).
The `n` bytes lie in one region and one bank group. -/
def State.writeDenied (s : State) (who : Initiator) (a n : Nat) : Option Denied :=
  if !s.reachable a then some .fault
  else
    match regionOf a with
    | .reflexSram =>
      if isTrusted who then none
      else if s.inQdrRing a n then some .fault
      else if (wordsOf a n).any s.vouched then some .vouched
      else if s.sealedAt a n then some .sealed
      else none
    | .cinchSram => if who = .cinch then none else some .fault
    | .tierA =>
      if (s.pocketOf (bankGroup a)).isNone then some .fault
      else if s.pocketWritable who (bankGroup a) then none else some .permission
    | .tierB =>
      if !s.bit Reg.trbStatus 0 then some .fault
      else if !isTrusted who && s.sealedAt a n then some .sealed
      else none
    | _ => some .fault

/-- Count a refused write where its rule says so. -/
def State.noteDenied (s : State) : Denied → State
  | .fault => s
  | .permission => (s.count Reg.canPermFaults 1).flag Reg.canStatus 5
  | .vouched | .sealed => s.countBypass

/-! ### Error codes of Tiers A and B (R66, R75) -/

/-- The aligned 64-bit words that `n` bytes at `a` touch. -/
def dwordsOf (a n : Nat) : List Nat :=
  (List.range ((a % 8 + n + 7) / 8)).map fun i => a / 8 * 8 + 8 * i

/-- What the code finds in word `w`: what the state holds, else what was observed. -/
def State.findingAt (s : State) (w : Nat) (found : List ErrFinding) : Option ErrKind :=
  if s.bad.contains w && !s.memPending.any (fun e => e.kind = 1 && e.addr = w) then some .uncorrectable
  else ((found ++ s.upsets).find? fun f => f.word = w).map (·.kind)

/-- The error that stands in word `w` has been found. -/
def State.settleUpset (s : State) (w : Nat) : State := { s with upsets := s.upsets.filter fun e => e.word ≠ w }

/-- Record an uncorrectable word of Tier A (R66) or Tier B (R75). -/
def State.noteUncorrectable (s : State) (w : Nat) : State :=
  let s := { s with bad := if s.bad.contains w then s.bad else w :: s.bad }
  match regionOf w with
  | .tierA =>
    ((s.count Reg.canEccUeCount 1).flag Reg.canStatus 3).fset Reg.canEccAddr 27 3 ((w - tierABase) / 8)
  | .tierB =>
    (((s.count Reg.trbUeCount 1).flag Reg.trbStatus 9).rset Reg.trbErrAddrLo (toWord w)).rset
      Reg.trbErrAddrHi (toWord (w / 2 ^ 32))
  | _ => s

/-- R70: the pseudo-channel of a Tier B address. -/
def pseudoChannel (seed pa : Nat) : Nat :=
  let g := (pa - tierBBase) / 256
  let low := g % 128
  let h := g / 128
  let m := h * (seed % 2 ^ 32 ||| 1) % 2 ^ 32
  let x := m / 2 ^ 25 % 128 ^^^ m / 2 ^ 18 % 128 ^^^ seed / 2 ^ 32 % 128
  low ^^^ x

/-- R70: the granule of a Tier B address within its pseudo-channel. -/
def granuleOf (pa : Nat) : Nat := (pa - tierBBase) / 256 / 128

/-- R70: the channel of a pseudo-channel number within its stack, and the half of the channel. -/
def channelOf (pc : Nat) : Nat × Nat := (pc / 2 % 16, pc % 2)

/-- The seed of the interleave hash (R71). -/
def State.seed (s : State) : Nat := s.get64 Reg.trbSeedLo

/-- The stack that holds the Tier B word `w` (R70): 32 pseudo-channels to a stack. -/
def State.stackOf (s : State) (w : Nat) : Nat := pseudoChannel s.seed w / 32

/-- Record a corrected error. -/
def State.noteCorrected (s : State) (w : Nat) : State :=
  match regionOf w with
  | .tierA => (s.count Reg.canEccCeCount 1).flag Reg.canStatus 2
  | .tierB => ((s.count Reg.trbCeCount 1).flag Reg.trbStatus 8).tally 0x04A (s.stackOf w) 1
  | _ => s

/-- Read word `w` through its code: the state with the errors counted, and whether the data is good. -/
def State.checkWord (s : State) (w : Nat) (found : List ErrFinding) : State × Bool :=
  if regionOf w ≠ .tierA ∧ regionOf w ≠ .tierB then (s, true)
  else
    let t := s.settleUpset w
    match s.findingAt w found with
    | none => (s, true)
    | some .correctable => (t.noteCorrected w, true)
    | some .uncorrectable => (t.noteUncorrectable w, false)
    | some (.retried n) =>
      if regionOf w = .tierB then ((t.count Reg.trbRetryCount (min n 3)).tally 0x04B (s.stackOf w) (min n 3), true) else (t, true)
    | some .retryFailed =>
      if regionOf w = .tierB then
        (((t.count Reg.trbRetryCount 3).tally 0x04B (s.stackOf w) 3).noteUncorrectable w, false)
      else (t.noteUncorrectable w, false)

/-- Read several words through their codes. -/
def State.checkWords (s : State) : List Nat → List ErrFinding → State × Bool
  | [], _ => (s, true)
  | w :: ws, found =>
    let (s, ok) := s.checkWord w found
    let (s, oks) := s.checkWords ws found
    (s, ok && oks)

/-- Store bytes by the read-modify-write rule (R65): words that the bytes do not cover whole are read first. -/
def State.storeRaw (s : State) (a : Nat) (bs : List Byte) (found : List ErrFinding) : State × Bool :=
  let part := (dwordsOf a bs.length).filter fun w => !decide (a ≤ w ∧ w + 8 ≤ a + bs.length)
  let (s, ok) := s.checkWords part found
  if ok then (s.rawBytes a bs, true) else (s, false)

/-- A change of memory by the host is kept while a ring holds an op that may read there (R324). -/
def State.noteHost (s : State) (a n : Nat) : State :=
  let t0 := s.rget (Reg.calRingTail 0)
  let t1 := s.rget (Reg.calRingTail 1)
  let idle := t0 = s.rget (Reg.calRingDone 0) ∧ t1 = s.rget (Reg.calRingDone 1)
  { s with ten := { s.ten with hostWrites := if idle then [] else ⟨a, n, t0, t1⟩ :: s.ten.hostWrites } }

/-- One committed memory entry is written (R118). -/
def State.writeEntry (s : State) (e : TxnEntry) : State :=
  (s.noteHost e.addr e.bytes.length).storeRaw e.addr e.bytes [] |>.1

/-- Every committed memory entry is written, in staging order (R118). -/
def State.flushEntries (s : State) : State := s.memPending.foldl State.writeEntry { s with memPending := [] }

/-- A write that reaches a named word waits until the last entry is written (R118). -/
def State.settleAt (s : State) (a n : Nat) : State :=
  if s.memPending.any (fun e => e.touches a n) then s.flushEntries else s

/-- Write bytes from `a` without any check. -/
def State.writeBytes (s : State) (a : Nat) (bs : List Byte) : State := (s.settleAt a bs.length).rawBytes a bs

/-- Write the `n` little-endian bytes of `v` at `a`. -/
def State.writeNat (s : State) (a n v : Nat) : State := s.writeBytes a (natToBytes n v)

/-- Write bytes by the read-modify-write rule (R65). -/
def State.storeBytes (s : State) (a : Nat) (bs : List Byte) (found : List ErrFinding) : State × Bool :=
  (s.settleAt a bs.length).storeRaw a bs found

/-- Is a write of `n` bytes refused that may cross from one bank group into the next. -/
def State.longDenied (s : State) (who : Initiator) (a n : Nat) : Option Denied :=
  match s.writeDenied who a n with
  | some d => some d
  | none => s.writeDenied who (a + (n - 1)) 1

/-- A write by an engine: false when it was refused or met bad data (R65). -/
def State.engineStore (s : State) (who : Initiator) (a : Nat) (bs : List Byte) : State × Bool :=
  if bs.isEmpty then (s, true)
  else
    match s.longDenied who a bs.length with
    | some d => (s.noteDenied d, false)
    | none => s.storeBytes a bs []

/-- Does an error stand in word `w`. -/
def State.suspect (s : State) (w : Nat) : Bool := s.bad.contains w || s.upsets.any fun e => e.word = w

/-- A read by an engine: none when an address cannot be read or the data is uncorrectable (R67). -/
def State.engineLoad (s : State) (a n : Nat) : State × Option (List Byte) :=
  if n = 0 then (s, some [])
  else if !s.readable a || !s.readable (a + (n - 1)) then (s, none)
  else
    let (s, ok) := s.checkWords ((dwordsOf a n).filter s.suspect) []
    if ok then (s, some (s.readBytes a n)) else (s, none)

/-! ### Register writes -/

/-- The register's word after a write by its fields' types (R10, R11). -/
def writtenWord (r : RegRow) (old v hwSet : Word) : Word :=
  let rw := r.maskFor .rw
  let w1c := r.maskFor .w1c
  let w1s := r.maskFor .w1s
  (((old &&& ~~~ rw ||| v &&& rw) &&& ~~~ (v &&& w1c)) ||| (v &&& w1s)) ||| (hwSet &&& w1c)

/-- Write the register at `a` by its fields' types; an offset without a register ignores the write (R7). -/
def State.putTyped (s : State) (a : Nat) (v hwSet : Word) : State :=
  match regRow a with
  | none => s
  | some r => s.rset a (writtenWord r (s.rget a) v hwSet)

/-- Write only the RW fields of the register at `a`. -/
def State.putRw (s : State) (a : Nat) (v : Word) : State := s.putTyped a v 0

/-- R388: what a software write may still change in this beat: bits that events of order 1 to 6 changed keep their
value, and clear nothing. -/
def State.softValue (s : State) (a : Nat) (v : Word) : Word :=
  let t := spGet (fun _ => 0) s.touched a
  let keep := match regRow a with
    | none => 0
    | some r => s.rget a &&& r.maskFor .rw
  (v &&& ~~~ t) ||| (keep &&& t)

/-- The fields of the register at `a` that hold any bit of `d`, as one mask. -/
def fieldsHit (a : Nat) (d : Word) : Word :=
  match regRow a with
  | none => 0
  | some r => r.flds.foldl (fun w f => if maskOf f.hi f.lo &&& d = 0 then w else w ||| maskOf f.hi f.lo) 0

/-- Mark bits of the register at `a` as changed by an event of order 1 to 6 of this beat (R388). -/
def State.touchBits (s : State) (a : Nat) (d : Word) : State :=
  { s with touched := spSet (fun _ => (0 : Word)) s.touched a (spGet (fun _ => 0) s.touched a ||| d) }

/-- Mark a whole register as changed in this beat. -/
def State.touch (s : State) (a : Nat) : State := s.touchBits a 0xFFFFFFFF

/-- Mark the register fields that an event of order 1 to 6 changed (R388): those that differ from `before`. Buckles
are left out: their signals of one beat combine (R388, R98). -/
def State.markTouched (before after : State) : State :=
  let keys := ((after.regs.map (·.1)) ++ (before.regs.map (·.1))).filter fun a =>
    !decide (1 ≤ blockIndex a ∧ blockIndex a ≤ 4)
  keys.foldl (fun t a =>
    let d := before.rget a ^^^ after.rget a
    if d = 0 then t else t.touchBits a (fieldsHit a d)) after

end Sys2Proof.Machine
end

