-- ==== Sys2Proof/Machine/Cores.lean ====
section
/-!
DEFINITION. Machine/Cores.lean: how the processors see memory: the store buffers that RVWMO allows, the caches of the
application cluster, and LR, SC and AMO (R45, R49 to R51, R65, R67, R105 to R107, R537, R699).
-/

namespace Sys2Proof.Machine

/-- The processors (table of processors, chapter 1). -/
def isProcessor : Initiator → Bool
  | .app _ | .steward | .caller _ | .reflex _ | .cinch => true
  | _ => false

/-- The application cores. -/
def isApp : Initiator → Bool
  | .app _ => true
  | _ => false

/-- The access sizes in bytes: 1, 2, 4 and 8 (log entry 14). -/
def sizeOk (size : Nat) : Bool := decide (size = 1 ∨ size = 2 ∨ size = 4 ∨ size = 8)

/-- R699: an access to memory is aligned, or one of an application core to Tier B. -/
def alignedFor (who : Initiator) (a size : Nat) : Bool :=
  decide (a % size = 0) || (isApp who && decide (regionOf a = .tierB))

/-- R49: the regions that the application cluster caches. -/
def cacheable : Region → Bool
  | .bootRom | .tierB => true
  | _ => false

/-- R49: is an access of `who` at `a` served by the caches of the cluster. No other initiator looks into them (R51). The
boot ROM is cached too, but it never changes (R46), so its copies show nothing. -/
def cachedFor (who : Initiator) (a : Nat) : Bool := isApp who && cacheable (regionOf a) && decide (regionOf a = .tierB)

/-- The line of an address: 64 bytes (the block size of RVA23, PRESUMED, log entry 27). -/
def lineOf (a : Nat) : Nat := a / 64 * 64

/-- The 64-bit words of the line of `a`. -/
def lineWords (a : Nat) : List Nat := (List.range 8).map fun i => lineOf a + 8 * i

/-! ### The cluster's caches (R49, R51) -/

/-- The cached copy of the 64-bit word at `w`. -/
def State.cachedWord (s : State) (w : Nat) : Option CacheWord := spGet (fun _ => none) s.cache w

/-- Give the word at `w` another cached copy, or none. -/
def State.putCached (s : State) (w : Nat) (c : Option CacheWord) : State :=
  { s with cache := spSet (fun _ => none) s.cache w c }

/-- The byte at `a` as the application cluster sees it. -/
def State.clusterByte (s : State) (a : Nat) : Byte :=
  match s.cachedWord (a / 8 * 8) with
  | some c => c.bytes.getD (a % 8) 0
  | none => s.readByte a

/-- A copy of the word at `w` is fetched, unless the cluster holds one; false where the word cannot be corrected. -/
def State.fillWord (s : State) (w : Nat) (found : List ErrFinding) : State × Bool :=
  if (s.cachedWord w).isSome then (s, true)
  else
    let (s, ok) := s.checkWord w found
    if ok then (s.putCached w (some ⟨s.readBytes w 8, none⟩), true) else (s, false)

/-- Copies of several words are fetched. -/
def State.fillWords (s : State) : List Nat → List ErrFinding → State × Bool
  | [], _ => (s, true)
  | w :: ws, found =>
    let (s, ok) := s.fillWord w found
    let (s, oks) := s.fillWords ws found
    (s, ok && oks)

/-- A dirty copy is written back: a full word, which stores a fresh code (R67). A SEALED range refuses it: the word is
discarded and counted, and the core that wrote it takes an imprecise bus error (R537). -/
def State.writeBack (s : State) (w : Nat) : State :=
  match s.cachedWord w with
  | some ⟨bs, some core⟩ =>
    match s.writeDenied (.app core) w 8 with
    | some d => { (s.noteDenied d).putCached w none with busErrors := s.busErrors ++ [core] }
    | none => (s.writeBytes w bs).putCached w (some ⟨bs, none⟩)
  | _ => s

/-- The line of `a` is cleaned: its dirty words are written back (R51). -/
def State.cleanLine (s : State) (a : Nat) : State := (lineWords a).foldl State.writeBack s

/-- The line of `a` is invalidated: its copies go, written back or not (R51). -/
def State.dropLine (s : State) (a : Nat) : State := (lineWords a).foldl (fun s w => s.putCached w none) s

/-- The clean copies among some words may have left the caches at any time: a free bit says so. -/
def State.ageWords (s : State) (ws : List Nat) : State :=
  let (gone, s) := s.drawBit
  if gone then
    ws.foldl (fun s w => if (s.cachedWord w).all (·.dirty.isNone) then s.putCached w none else s) s
  else s

/-- A store of a byte to the cached copy of its word. -/
def State.cachePut (s : State) (core a : Nat) (b : Byte) : State :=
  let w := a / 8 * 8
  let old := (List.range 8).map fun i => s.clusterByte (w + i)
  s.putCached w (some ⟨old.set (a % 8) b, some core⟩)

/-- Stores of several bytes to the cached copies. -/
def State.cachePutAll (s : State) (core : Nat) : Nat → List Byte → State
  | _, [] => s
  | a, b :: bs => (s.cachePut core a b).cachePutAll core (a + 1) bs

/-- A store of an application core to Tier B ends in the caches (R49). The words that it does not cover whole are fetched
first. Whether the cluster writes the line back at once is a free bit: software that must know cleans it (R51). -/
def State.cacheStore (s : State) (core a : Nat) (bs : List Byte) (found : List ErrFinding) : State × Bool :=
  let part := (dwordsOf a bs.length).filter fun w => !decide (a ≤ w ∧ w + 8 ≤ a + bs.length)
  let (s, ok) := s.fillWords part found
  if ok then
    let (out, s) := (s.cachePutAll core a bs).drawBit
    (if out then (dwordsOf a bs.length).foldl State.writeBack s else s, true)
  else (s, false)

/-! ### Stores -/

/-- A store to bytes breaks the reservations of the other processors on their line of 64 bytes (log entry 27). -/
def State.breakReservations (s : State) (who : Initiator) (a n : Nat) : State :=
  { s with reservations := s.reservations.filter fun r =>
      r.1 = initCode who || !decide (r.2 < a + n ∧ a < r.2 + 64) }

/-- Why a processor's store cannot take place (R45 to R47, R58, R59, R74, R536, R537). A SEALED range refuses a cached
store only when the line is written back. -/
def State.storeDenied (s : State) (who : Initiator) (a n : Nat) : Option Denied :=
  match s.longDenied who a n with
  | some .sealed => if cachedFor who a then none else some .sealed
  | d => d

/-- A store takes place: false where it is refused, or a word that it covers in part cannot be corrected (R65). -/
def State.performStore (s : State) (who : Initiator) (a : Nat) (bs : List Byte) (found : List ErrFinding) : State × Bool :=
  match s.storeDenied who a bs.length with
  | some d => (s.noteDenied d, false)
  | none =>
    let (s, ok) := if cachedFor who a then s.cacheStore (initCode who) a bs found else s.storeBytes a bs found
    if ok then ((s.breakReservations who a bs.length).noteHost a bs.length, true) else (s, false)

/-! ### Store buffers (R105, R107) -/

/-- Do two ranges of bytes meet. -/
def bytesMeet (a n b m : Nat) : Bool := decide (a < b + m ∧ b < a + n)

/-- The buffered stores that `f` selects take place, the oldest first; one that is refused by now is dropped, and its core
takes an imprecise bus error. -/
def State.drainList (s : State) (f : BufStore → Bool) : List BufStore → State
  | [] => s
  | e :: es =>
    if f e then
      let t := { s with buffers := s.buffers.erase e }
      let (t, ok) := t.performStore e.who e.addr e.bytes []
      (if ok then t else { t with busErrors := t.busErrors ++ [initCode e.who] }).drainList f es
    else s.drainList f es

/-- The buffered stores that `f` selects take place. -/
def State.drain (s : State) (f : BufStore → Bool) : State := s.drainList f s.buffers

/-- A processor's own stores to the `n` bytes at `a` leave its buffer, and so do its older stores. -/
def State.drainOwn (s : State) (who : Initiator) (a n : Nat) : State :=
  if s.buffers.any fun e => e.who = who && bytesMeet e.addr e.bytes.length a n then s.drain fun e => e.who = who else s

/-- The stores of other processors to the `n` bytes at `a` that wait may have taken place by now: a free bit says so. -/
def State.drainOthers (s : State) (who : Initiator) (a n : Nat) : State :=
  if s.buffers.any fun e => e.who ≠ who && bytesMeet e.addr e.bytes.length a n then
    let (now, s) := s.drawBit
    if now then s.drain fun e => e.who ≠ who else s
  else s

/-- What a processor's own buffer holds for the byte at `a`: the youngest store. -/
def bufferedByte (who : Initiator) (a : Nat) : List BufStore → Option Byte
  | [] => none
  | e :: es =>
    match bufferedByte who a es with
    | some b => some b
    | none => if e.who = who ∧ e.addr ≤ a then e.bytes[a - e.addr]? else none

/-- The byte at `a` as initiator `who` sees it: its own waiting stores first (R107), then the cluster's caches for the
application cores (R49), then memory. -/
def State.seenByte (s : State) (who : Initiator) (a : Nat) : Byte :=
  match bufferedByte who a s.buffers with
  | some b => b
  | none => if cachedFor who a then s.clusterByte a else s.readByte a

/-- `n` bytes as `who` sees them. -/
def State.seenBytes (s : State) (who : Initiator) (a n : Nat) : List Byte := (List.range n).map fun i => s.seenByte who (a + i)

/-- The little-endian number that `who` sees. -/
def State.seenNat (s : State) (who : Initiator) (a n : Nat) : Nat := bytesToNat (s.seenBytes who a n)

/-! ### Loads and stores of memory -/

/-- A processor's load of memory (R45, R49, R67). -/
def State.loadMemory (s : State) (who : Initiator) (a size : Nat) (found : List ErrFinding) : State :=
  if !s.readable a || !s.readable (a + (size - 1)) then s.respond .accessFault
  else
    let s := s.drainOthers who a size
    let (s, ok) :=
      if cachedFor who a then (s.ageWords (dwordsOf a size)).fillWords (dwordsOf a size) found
      else s.checkWords (dwordsOf a size) found
    s.respond (if ok then .data (s.seenNat who a size) else .accessFault)

/-- A processor's store to memory (R45, R58, R59, R65, R536, R537). It takes place at once or waits in the processor's
buffer, as RVWMO allows (R105, R107): a free bit says which. -/
def State.storeMemory (s : State) (who : Initiator) (a size v : Nat) (found : List ErrFinding) : State :=
  match s.storeDenied who a size with
  | some d => (s.noteDenied d).respond .accessFault
  | none =>
    let bs := natToBytes size v
    let (wait, s) := (s.drainOwn who a size).drawBit
    if wait then
      let part := (dwordsOf a size).filter fun w => !decide (a ≤ w ∧ w + 8 ≤ a + size)
      let (s, ok) := if cachedFor who a then s.fillWords part found else s.checkWords part found
      if ok then { s with buffers := s.buffers ++ [BufStore.mk who a bs] }.respond .done else s.respond .accessFault
    else
      let (s, ok) := s.performStore who a bs found
      s.respond (if ok then .done else .accessFault)

/-- The cache-block management instructions of RVA23 on the line of `a` (R51), after the processor's own stores to it. A
processor outside the cluster has none of these copies. -/
def State.cacheOp (s : State) (who : Initiator) (op : StoreOp) (a : Nat) : State :=
  let s := s.drainOwn who (lineOf a) 64
  let s := if !cachedFor who a then s
    else
      match op with
      | .clean => s.cleanLine a
      | .flush => (s.cleanLine a).dropLine a
      | .inval => s.dropLine a
      | .data => s
  s.respond .done

/-- A FENCE of `who` (R105, R107): PRED and SUCC have the bits I 8, O 4, R 2, W 1. With W in PRED, the processor's waiting
stores take place before any later access. Loads and accesses to register space are carried out in program order, so
the other bits wait for nothing. -/
def State.fence (s : State) (who : Initiator) (pred succ : Nat) : State :=
  (if pred % 2 = 1 ∧ succ % 16 ≠ 0 then s.drain fun e => e.who = who else s).respond .done

/-! ### LR, SC and AMO (R50) -/

/-- What an AMO writes from the old value and the operand, at a width of n bits. -/
def atomicResult (op : AtomicOp) (n old v : Nat) : Nat :=
  match op with
  | .add => (old + v) % 2 ^ n
  | .xor => old ^^^ v % 2 ^ n
  | .and => old &&& v % 2 ^ n
  | .or => old ||| v % 2 ^ n
  | .min => if sext n old ≤ sext n v then old else v % 2 ^ n
  | .max => if sext n old ≤ sext n v then v % 2 ^ n else old
  | .minu => if old ≤ v % 2 ^ n then old else v % 2 ^ n
  | .maxu => if old ≤ v % 2 ^ n then v % 2 ^ n else old
  | _ => v % 2 ^ n

/-- Forget the reservation of `who`. -/
def State.unreserve (s : State) (who : Initiator) : State :=
  { s with reservations := s.reservations.filter fun r => r.1 ≠ initCode who }

/-- Does `who` hold a reservation on the line of `a`. -/
def State.holds (s : State) (who : Initiator) (a : Nat) : Bool := s.reservations.contains (initCode who, lineOf a)

/-- The store of an SC or AMO, which never waits in a buffer. Its word was read just before, so an error found there is
counted once. -/
def State.atomicStore (s : State) (who : Initiator) (a size v : Nat) (found : List ErrFinding) (answer : Nat) : State :=
  let (s, ok) := s.performStore who a (natToBytes size v) found
  s.respond (if ok then .data answer else .accessFault)

/-- An AMO: the old value is read and the result stored, and the old value is the response. -/
def State.amo (s : State) (who : Initiator) (op : AtomicOp) (a size v : Nat) (found : List ErrFinding) : State :=
  let t := s.loadMemory who a size found
  match t.resp with
  | .data old => t.atomicStore who a size (atomicResult op (8 * size) old v) [] old
  | _ => t

/-- LR, SC and AMO on Tier B (R50): LR reserves its line of 64 bytes, SC answers 0 when it stored and 1 when it did not. The
processor's own waiting stores take place first. -/
def State.atomic (s : State) (who : Initiator) (op : AtomicOp) (a size v : Nat) (found : List ErrFinding) : State :=
  if !isProcessor who || decide (regionOf a ≠ .tierB) || !(size = 4 || size = 8) || decide (a % size ≠ 0) then
    s.respond .accessFault
  else
    let s := s.drain fun e => e.who = who
    match op with
    | .lr =>
      let t := s.loadMemory who a size found
      if t.resp = .accessFault then t
      else
        let u := t.unreserve who
        { u with reservations := (initCode who, lineOf a) :: u.reservations }
    | .sc =>
      if s.holds who a then (s.unreserve who).atomicStore who a size v found 0
      else (s.unreserve who).respond (.data 1)
    | op => s.amo who op a size v found

end Sys2Proof.Machine
end

