-- ==== Sys2Proof/Machine/Numbers.lean ====
section
/-!
DEFINITION. Machine/Numbers.lean: number formats, exact values, rounding, FP32 arithmetic, fixed point, and the
accumulation path of the Hide (R131 to R161).
-/

namespace Sys2Proof.Machine

/-! ### Values -/

/-- What a float code stands for: (−1)^neg × m × 2^e, an infinity, or NaN. A zero keeps its sign. -/
inductive Num where
  | nan
  | inf (neg : Bool)
  | fin (neg : Bool) (m : Nat) (e : Int)
  deriving DecidableEq, Repr

/-- Does a float format have infinities and NaN (R132). -/
inductive Specials where
  /-- infinities and NaN at the all-ones exponent -/
  | ieee
  /-- FP8 E4M3: one NaN code, no infinity -/
  | nanOnly
  | none
  deriving DecidableEq, Repr

/-- A float format: exponent bits, mantissa bits, bias and special codes (R132). -/
structure FloatFmt where
  ebits : Nat
  mbits : Nat
  bias : Nat
  specials : Specials
  deriving DecidableEq, Repr

def fmtFp32 : FloatFmt := ⟨8, 23, 127, .ieee⟩
def fmtBf16 : FloatFmt := ⟨8, 7, 127, .ieee⟩
def fmtFp16 : FloatFmt := ⟨5, 10, 15, .ieee⟩
def fmtE4m3 : FloatFmt := ⟨4, 3, 7, .nanOnly⟩
def fmtE5m2 : FloatFmt := ⟨5, 2, 15, .ieee⟩
def fmtE2m3 : FloatFmt := ⟨2, 3, 1, .none⟩
def fmtE3m2 : FloatFmt := ⟨3, 2, 3, .none⟩
def fmtE2m1 : FloatFmt := ⟨2, 1, 1, .none⟩

/-- The element formats by code (R131); codes 0xC to 0xF are reserved. -/
inductive Fmt where
  | float (f : FloatFmt)
  | int (bits : Nat)
  | fixed (frac : Nat)
  deriving DecidableEq, Repr

/-- R131: the format of a code. -/
def fmtOf (code : Nat) : Option Fmt :=
  match code with
  | 0x0 => some (.float fmtFp32)
  | 0x1 => some (.float fmtBf16)
  | 0x2 => some (.float fmtFp16)
  | 0x3 => some (.float fmtE4m3)
  | 0x4 => some (.float fmtE5m2)
  | 0x5 => some (.float fmtE2m3)
  | 0x6 => some (.float fmtE3m2)
  | 0x7 => some (.float fmtE2m1)
  | 0x8 => some (.int 8)
  | 0x9 => some (.int 4)
  | 0xA => some (.fixed 31)
  | 0xB => some (.fixed 16)
  | _ => none

/-- The width of an element in bits (R131). -/
def fmtBits (code : Nat) : Nat :=
  match code with
  | 0x0 | 0xA | 0xB => 32
  | 0x1 | 0x2 => 16
  | 0x3 | 0x4 | 0x8 => 8
  | 0x5 | 0x6 => 6
  | 0x7 | 0x9 => 4
  | _ => 32

/-- All bits of a float format. -/
def FloatFmt.width (f : FloatFmt) : Nat := 1 + f.ebits + f.mbits

/-- The value of a float code (R132). -/
def FloatFmt.decode (f : FloatFmt) (code : Nat) : Num :=
  let neg := code / 2 ^ (f.ebits + f.mbits) % 2 == 1
  let e := code / 2 ^ f.mbits % 2 ^ f.ebits
  let m := code % 2 ^ f.mbits
  let top := 2 ^ f.ebits - 1
  if f.specials = .ieee ∧ e = top then (if m = 0 then .inf neg else .nan)
  else if f.specials = .nanOnly ∧ e = top ∧ m = 2 ^ f.mbits - 1 then .nan
  else if e = 0 then .fin neg m (1 - (f.bias : Int) - f.mbits)
  else .fin neg (2 ^ f.mbits + m) ((e : Int) - f.bias - f.mbits)

/-- The magnitude code of the largest finite value (R132). -/
def FloatFmt.maxCode (f : FloatFmt) : Nat :=
  match f.specials with
  | .ieee => 2 ^ (f.ebits + f.mbits) - 2 ^ f.mbits - 1
  | .nanOnly => 2 ^ (f.ebits + f.mbits) - 2
  | .none => 2 ^ (f.ebits + f.mbits) - 1

/-- The magnitude code of infinity. -/
def FloatFmt.infCode (f : FloatFmt) : Nat := 2 ^ (f.ebits + f.mbits) - 2 ^ f.mbits

/-- The canonical NaN (R133); formats without NaN have none and give 0. -/
def FloatFmt.nanCode (f : FloatFmt) : Nat :=
  match f.specials with
  | .ieee => f.infCode + 2 ^ (f.mbits - 1)
  | .nanOnly => 2 ^ (f.ebits + f.mbits) - 1
  | .none => 0

/-! ### Rounding -/

/-- The two rounding modes (R152): nearest even, or stochastic with 16 random bits (R157). -/
inductive Rounding where
  | nearest
  | stochastic (r : Nat)
  deriving DecidableEq, Repr

/-- m / 2^k rounded to an integer. -/
def shiftRound (m k : Nat) : Rounding → Nat
  | .nearest =>
    let q := m / 2 ^ k
    let rem := m % 2 ^ k
    if 2 * rem > 2 ^ k || (2 * rem == 2 ^ k && q % 2 == 1 && k ≠ 0) then q + 1 else q
  | .stochastic r =>
    let q := m / 2 ^ k
    if m % 2 ^ k * 65536 / 2 ^ k > r then q + 1 else q

/-- m × 2^e as an integer multiple of 2^q, rounded. -/
def quantize (m : Nat) (e q : Int) (mode : Rounding) : Nat :=
  if q ≤ e then m * 2 ^ (e - q).toNat else shiftRound m (q - e).toNat mode

/-- The magnitude code that m × 2^e rounds to, which may lie beyond the largest finite code. -/
def FloatFmt.roundMag (f : FloatFmt) (m : Nat) (e : Int) (mode : Rounding) : Nat :=
  if m = 0 then 0
  else
    let qmin : Int := 1 - (f.bias : Int) - f.mbits
    let q := max qmin (e + Nat.log2 m - f.mbits)
    (q - qmin).toNat * 2 ^ f.mbits + quantize m e q mode

/-- A sign in front of a magnitude code. -/
def FloatFmt.signed (f : FloatFmt) (neg : Bool) (mag : Nat) : Nat :=
  mag + b2n neg * 2 ^ (f.ebits + f.mbits)

/-- What a conversion counts (R153, R190): a saturation, a NaN turned into an integer, a number turned into a NaN. -/
structure ConvEvents where
  saturated : Bool
  nanToInt : Bool
  nanMade : Bool
  deriving DecidableEq, Repr

/-- A conversion with nothing to count. -/
def ConvEvents.none : ConvEvents := ⟨false, false, false⟩

/-- A value converted to a float format (R153). `sat` selects SAT. -/
def FloatFmt.encode (f : FloatFmt) (x : Num) (mode : Rounding) (sat : Bool) : Nat × Bool :=
  match x with
  | .nan => (f.nanCode, false)
  | .inf neg =>
    if sat then (f.signed neg f.maxCode, true)
    else
      match f.specials with
      | .ieee => (f.signed neg f.infCode, false)
      | .nanOnly => (f.nanCode, false)
      | .none => (f.signed neg f.maxCode, true)
  | .fin neg m e =>
    let mag := f.roundMag m e mode
    if mag ≤ f.maxCode then (f.signed neg mag, false)
    else if sat then (f.signed neg f.maxCode, true)
    else
      match f.specials with
      | .ieee => (f.signed neg f.infCode, false)
      | .nanOnly => (f.nanCode, false)
      | .none => (f.signed neg f.maxCode, true)

/-- A value rounded to an integer multiple of 2^-frac within ±limits; NaN has no integer. -/
def numToInt (x : Num) (frac : Nat) (lo hi : Int) (mode : Rounding) : Option (Int × Bool) :=
  match x with
  | .nan => none
  | .inf neg => some (if neg then lo else hi, true)
  | .fin neg m e =>
    let n : Int := quantize m e (-(frac : Int)) mode
    let v := if neg then -n else n
    some (if v < lo then (lo, true) else if hi < v then (hi, true) else (v, false))

/-- A value converted to any element format (R152, R153): the code, and what the conversion counts. -/
def Fmt.encode (f : Fmt) (x : Num) (mode : Rounding) (sat : Bool) : Nat × ConvEvents :=
  match f with
  | .float g => let (c, s) := g.encode x mode sat; (c, ⟨s, false, x != .nan && g.decode c == .nan⟩)
  | .int b =>
    match numToInt x 0 (-(2 ^ (b - 1) : Nat)) (2 ^ (b - 1) - 1 : Nat) mode with
    | none => (0, ⟨false, true, false⟩)
    | some (v, s) => ((v % (2 ^ b : Nat)).toNat, ⟨s, false, false⟩)
  | .fixed q =>
    match numToInt x q (-(2 ^ 31 - 1 : Nat)) (2 ^ 31 - 1 : Nat) mode with
    | none => (0x80000000, ⟨false, true, false⟩)
    | some (v, s) => ((v % (2 ^ 32 : Nat)).toNat, ⟨s, false, false⟩)

/-- The exact value of an element code in any format; 0x8000_0000 in fixed point is not-a-number (R158). -/
def Fmt.decode (f : Fmt) (code : Nat) : Num :=
  match f with
  | .float g => g.decode code
  | .int b =>
    let v := sext b code
    .fin (decide (v < 0)) v.natAbs 0
  | .fixed q =>
    if code % 2 ^ 32 = 0x80000000 then .nan
    else
      let v := sext 32 code
      .fin (decide (v < 0)) v.natAbs (-(q : Int))

/-! ### Exact arithmetic on finite values -/

/-- The signed value of a finite number as an integer multiple of 2^q (q at most its exponent). -/
def scaledInt (neg : Bool) (m : Nat) (e q : Int) : Int :=
  let v : Int := m * 2 ^ (e - q).toNat
  if neg then -v else v

/-- A value from an integer multiple of 2^q; `zneg` is the sign of a zero. -/
def numOfInt (v q : Int) (zneg : Bool) : Num :=
  .fin (if v = 0 then zneg else decide (v < 0)) v.natAbs q

/-- x + y exactly. -/
def Num.add (x y : Num) : Num :=
  match x, y with
  | .nan, _ => .nan
  | _, .nan => .nan
  | .inf a, .inf b => if a = b then .inf a else .nan
  | .inf a, _ => .inf a
  | _, .inf b => .inf b
  | .fin a m e, .fin b n f =>
    let q := min e f
    numOfInt (scaledInt a m e q + scaledInt b n f q) q (a && b && m == 0 && n == 0)

/-- −x. -/
def Num.neg : Num → Num
  | .nan => .nan
  | .inf a => .inf !a
  | .fin a m e => .fin (!a) m e

/-- |x|. -/
def Num.abs : Num → Num
  | .nan => .nan
  | .inf _ => .inf false
  | .fin _ m e => .fin false m e

/-- Is the value zero. -/
def Num.isZero : Num → Bool
  | .fin _ m _ => m == 0
  | _ => false

/-- x × y exactly. -/
def Num.mul (x y : Num) : Num :=
  match x, y with
  | .nan, _ => .nan
  | _, .nan => .nan
  | .inf a, .inf b => .inf (a != b)
  | .inf a, .fin b m _ => if m = 0 then .nan else .inf (a != b)
  | .fin a m _, .inf b => if m = 0 then .nan else .inf (a != b)
  | .fin a m e, .fin b n f => .fin (a != b) (m * n) (e + f)

/-- x × 2^k exactly. -/
def Num.scale (x : Num) (k : Int) : Num :=
  match x with
  | .fin a m e => .fin a m (e + k)
  | y => y

/-- x < y as numbers; false when one is NaN. -/
def Num.lt (x y : Num) : Bool :=
  match x, y with
  | .nan, _ => false
  | _, .nan => false
  | .inf a, .inf b => a && !b
  | .inf a, _ => a
  | _, .inf b => !b
  | .fin a m e, .fin b n f =>
    let q := min e f
    decide (scaledInt a m e q < scaledInt b n f q)

/-- The quotient of two nonzero finite magnitudes with 64 bits and a sticky bit: exact enough for one rounding to
FP32. -/
def divMag (m : Nat) (e : Int) (n : Nat) (f : Int) : Nat × Int :=
  let k := 64 + Nat.log2 n
  let q := m * 2 ^ k / n
  (2 * q + b2n (m * 2 ^ k % n ≠ 0), e - f - k - 1)

/-- The integer square root of `v`, by `n` bits from the top. -/
def isqrtGo : Nat → Nat → Nat → Nat
  | 0, _, r => r
  | n + 1, v, r =>
    let t := r + 2 ^ n
    isqrtGo n v (if t * t ≤ v then t else r)

/-- The integer square root. -/
def isqrt (v : Nat) : Nat := isqrtGo (Nat.log2 v / 2 + 1) v 0

/-- The square root of a nonzero finite magnitude with a sticky bit. -/
def sqrtMag (m : Nat) (e : Int) : Nat × Int :=
  let k : Nat := 128 + (if (e - 128) % 2 = 0 then 0 else 1)
  let v := m * 2 ^ k
  let r := isqrt v
  (2 * r + b2n (r * r ≠ v), (e - k) / 2 - 1)

/-! ### FP32 arithmetic: every operation rounds once to nearest even -/

/-- The value of an FP32 code. -/
def f32 (code : Nat) : Num := fmtFp32.decode code

/-- A value rounded to FP32 by the IEEE rules. -/
def toF32 (x : Num) : Nat := (fmtFp32.encode x .nearest false).1

def fadd (a b : Nat) : Nat := toF32 ((f32 a).add (f32 b))
def fsub (a b : Nat) : Nat := toF32 ((f32 a).add (f32 b).neg)
def fmul (a b : Nat) : Nat := toF32 ((f32 a).mul (f32 b))

/-- a × b + c with one rounding. -/
def ffma (a b c : Nat) : Nat := toF32 (((f32 a).mul (f32 b)).add (f32 c))

/-- x / y before its one rounding. -/
def Num.div (x y : Num) : Num :=
  match x, y with
  | .nan, _ => .nan
  | _, .nan => .nan
  | .inf _, .inf _ => .nan
  | .inf a, .fin b _ _ => .inf (a != b)
  | .fin a _ _, .inf b => .fin (a != b) 0 0
  | .fin a m e, .fin b n f =>
    if n = 0 then (if m = 0 then .nan else .inf (a != b))
    else if m = 0 then .fin (a != b) 0 0
    else let (q, g) := divMag m e n f; .fin (a != b) q g

def fdiv (a b : Nat) : Nat := toF32 ((f32 a).div (f32 b))

/-- √x before its one rounding. -/
def Num.sqrt : Num → Num
  | .nan => .nan
  | .inf a => if a then .nan else .inf false
  | .fin a m e =>
    if m = 0 then .fin a 0 0
    else if a then .nan
    else let (r, g) := sqrtMag m e; .fin false r g

def fsqrt (a : Nat) : Nat := toF32 (f32 a).sqrt

/-- a < b in FP32. -/
def flt (a b : Nat) : Bool := (f32 a).lt (f32 b)

/-- Is the FP32 code NaN. -/
def fIsNan (a : Nat) : Bool := f32 a == .nan

/-- −a in FP32; NaN becomes canonical. -/
def fneg (a : Nat) : Nat := toF32 (f32 a).neg

/-- FP32 constants. -/
def fOne : Nat := 0x3F800000
def fHalf : Nat := 0x3F000000
def fQuarter : Nat := 0x3E800000
def fNan : Nat := 0x7FC00000

/-- A whole number in FP32. -/
def fOfInt (v : Int) : Nat := toF32 (.fin (decide (v < 0)) v.natAbs 0)

/-! ### Packed elements in memory (R135) -/

/-- Element `i` of format `code` in a row of packed bytes, least significant bit first. -/
def packedElem (row : List Byte) (code i : Nat) : Nat :=
  let w := fmtBits code
  let start := i * w / 8
  let sub := (row.drop start).take 4
  bytesToNat sub / 2 ^ (i * w % 8) % 2 ^ w

/-- Pack element codes of `w` bits each into whole bytes. -/
def packElems (w : Nat) (es : List Nat) : List Byte :=
  let v := es.foldr (fun e acc => e % 2 ^ w + acc * 2 ^ w) 0
  natToBytes (ceilDiv (es.length * w) 8) v

/-! ### Block accumulation (R137 to R144) -/

/-- The factor of an E8M0 scale code; none: NaN. No scale: factor 1. -/
def scaleExp (c : Option Nat) : Option Int :=
  match c with
  | none => some 0
  | some v => if v = 0xFF then none else some ((v : Int) - 127)

/-- The unbiased exponent of a float element: 1 − bias for a subnormal (R141). -/
def FloatFmt.exponent (f : FloatFmt) (code : Nat) : Int :=
  (max 1 (code / 2 ^ f.mbits % 2 ^ f.ebits) : Nat) - (f.bias : Int)

/-- The largest element exponent of one side of a block: that of the largest-magnitude element. -/
def blockExp (f : Fmt) (codes : List Nat) : Int :=
  match f with
  | .float g => codes.foldl (fun m c => max m (g.exponent c)) (1 - (g.bias : Int))
  | _ => 0

/-- One product in units of 2^(E − 36), truncated towards zero (R141); integer products have units of 1. -/
def productUnits (x y : Num) (unit : Int) : Int :=
  match x.mul y with
  | .fin neg m e =>
    let v : Nat := if unit ≤ e then m * 2 ^ (e - unit).toNat else m / 2 ^ (unit - e).toNat
    if neg then -(v : Int) else v
  | _ => 0

/-- The block value of up to 32 element pairs (R141, R143). -/
def blockValue (fa fb : Fmt) (as bs : List Nat) (ca cb : Option Nat) : Num :=
  match scaleExp ca, scaleExp cb with
  | some sa, some sb =>
    let xs := as.map fa.decode
    let ys := bs.map fb.decode
    let ps := List.zipWith Num.mul xs ys
    if (xs ++ ys ++ ps).any (· == .nan) || (ps.any (· == .inf true) && ps.any (· == .inf false)) then .nan
    else if ps.any (· == .inf true) then .inf true
    else if ps.any (· == .inf false) then .inf false
    else
      let unit : Int := match fa with
        | .float _ => blockExp fa as + blockExp fb bs - 36
        | _ => 0
      let sum := (List.zipWith (fun x y => productUnits x y unit) xs ys).foldl (· + ·) 0
      numOfInt sum (unit + sa + sb) false
  | _, _ => .nan

/-- R144: add a block value into an FP32 accumulator with one rounding; the accumulator never holds −0. -/
def accumulate (acc : Nat) (v : Num) : Nat :=
  let c := toF32 ((f32 acc).add v)
  if c = 0x80000000 then 0 else c

/-- R146: the canonical tree over partials, with `n` fuel for its depth. -/
def mergeTree (add : Nat → Nat → Nat) : Nat → List Nat → Nat
  | 0, ps => ps.headD 0
  | n + 1, ps =>
    match ps with
    | [] => 0
    | [p] => p
    | ps =>
      let m := 2 ^ (Nat.log2 (ps.length - 1))
      add (mergeTree add n (ps.take m)) (mergeTree add n (ps.drop m))

/-- Cut a list into pieces of `k` elements (`fuel` at least its length). -/
def chunksOf {α : Type} (k : Nat) : Nat → List α → List (List α)
  | 0, _ => []
  | _ + 1, [] => []
  | n + 1, xs => xs.take k :: chunksOf k n (xs.drop k)

/-- One block of a reduction: the two sides' codes and scale codes. -/
structure Block where
  as : List Nat
  bs : List Nat
  ca : Option Nat
  cb : Option Nat
  deriving DecidableEq, Repr

/-- A block is added to the chunk partial (R144). -/
def AccSet.addBlock (fa fb : Fmt) (a : AccSet) (b : Block) : AccSet :=
  { a with part := accumulate a.part (blockValue fa fb b.as b.bs b.ca b.cb) }

/-- Push a subtree; while the top two cover subtrees of equal size their sum takes their place (R146). -/
def pushMerge (x : Nat × Nat) : List (Nat × Nat) → List (Nat × Nat)
  | [] => [x]
  | y :: ys => if y.1 = x.1 then pushMerge (y.1 + x.1, accumulate y.2 (f32 x.2)) ys else x :: y :: ys

/-- A chunk of up to 16 blocks is added, and its partial pushed (R145, R146). -/
def AccSet.addChunk (fa fb : Fmt) (a : AccSet) (bs : List Block) : AccSet :=
  let a := bs.foldl (AccSet.addBlock fa fb) a
  { a with part := 0, stack := pushMerge (1, a.part) a.stack }

/-- The tail (R146, R171): the entries are added from the top down. -/
def AccSet.tail (a : AccSet) : AccSet :=
  match a.stack with
  | [] => a
  | x :: ys => { a with stack := [ys.foldl (fun t y => (y.1 + t.1, accumulate y.2 (f32 t.2))) x] }

/-- A reduction in narrow formats: chunks of 16 blocks (R145, R146). -/
def treeSet (fa fb : Fmt) (blocks : List Block) : AccSet :=
  ((chunksOf 16 (blocks.length + 1) blocks).foldl (AccSet.addChunk fa fb) .empty).tail

/-- R149: the integer path sums every product exactly in the block accumulator. -/
def integerSet (fa fb : Fmt) (as bs : List Nat) : AccSet :=
  { AccSet.empty with
    block := (List.zipWith (fun a b => productUnits (fa.decode a) (fb.decode b) 0) as bs).foldl (· + ·) 0 }

/-- R150: the 16-bit path adds every product with one rounding. -/
def wideSet (fa fb : Fmt) (as bs : List Nat) : AccSet :=
  { AccSet.empty with
    part := (List.zip as bs).foldl (fun acc p => accumulate acc ((fa.decode p.1).mul (fb.decode p.2))) 0 }

/-- What a complete set drains by path (0 tree, 1 integer, 2 sixteen-bit): an FP32 code, or the exact sum (R177). -/
def AccSet.result (path : Nat) (a : AccSet) : Int :=
  match path with
  | 1 => a.block
  | 2 => a.part
  | _ => ((a.stack.map (·.2)).headD 0 : Nat)

/-- The result of a reduction in narrow formats, in FP32. -/
def narrowReduce (fa fb : Fmt) (blocks : List Block) : Nat := ((treeSet fa fb blocks).result 0).toNat

/-! ### Stochastic rounding (R156) -/

/-- The 16 random bits of element `i` of output tensor `t`. -/
def stochasticBits (seed t i : Nat) : Nat :=
  let k := (seed + t * 0x6A09E667) % 2 ^ 32
  let x := k ^^^ (i % 2 ^ 32 * 0x9E3779B9 % 2 ^ 32) ^^^ (i / 2 ^ 32 % 2 ^ 32 * 0x7F4A7C15 % 2 ^ 32)
  let x := (x ^^^ x / 2 ^ 16) * 0x85EBCA6B % 2 ^ 32
  let x := (x ^^^ x / 2 ^ 13) * 0xC2B2AE35 % 2 ^ 32
  (x ^^^ x / 2 ^ 16) % 2 ^ 16

/-! ### Block-scaled outputs (R154, R155) -/

/-- emax of a format (R155). -/
def emaxOf (code : Nat) : Int :=
  match code with
  | 0x3 => 8
  | 0x4 => 15
  | 0x5 => 2
  | 0x6 => 4
  | 0x7 => 2
  | 0x8 => 6
  | 0x9 => 2
  | _ => 0

/-- floor(log2 x) of a nonzero finite magnitude. -/
def Num.log2Floor : Num → Int
  | .fin _ m e => e + Nat.log2 m
  | _ => 0

/-- The scale code of one output block (R155). -/
def blockScale (code : Nat) (vs : List Num) : Nat :=
  if vs.any fun v => match v with | .fin _ _ _ => false | _ => true then 0xFF
  else
    let amax := vs.foldl (fun m v => if m.lt v.abs then v.abs else m) (.fin false 0 0)
    if amax.isZero then 127
    else (max 0 (min 254 (amax.log2Floor - emaxOf code + 127))).toNat

/-- The element codes of one output block under its scale (R155), each with its own rounding. Under scale 0xFF every
element is NaN. -/
def blockEncode (code scale : Nat) (vs : List (Num × Rounding)) : List (Nat × ConvEvents) :=
  if scale = 0xFF then vs.map fun v => (0, ⟨false, false, v.1 != .nan⟩)
  else
    match fmtOf code with
    | none => vs.map fun _ => (0, .none)
    | some f => vs.map fun v => f.encode (v.1.scale (127 - (scale : Int))) v.2 true

/-! ### Fixed point (R158 to R160) -/

/-- The not-a-number code of Q1.31 and Q16.16. -/
def qNan : Word := 0x80000000

/-- A fixed-point result saturated to 0x8000_0001 … 0x7FFF_FFFF (R158). -/
def qSat (v : Int) : Word := ofInt32 (max (-(2 ^ 31 - 1)) (min (2 ^ 31 - 1) v))

/-- The integer of a fixed-point code; none: not-a-number. -/
def qVal (w : Word) : Option Int := if w = qNan then none else some w.toInt

/-- An external sample of `bits` bits converted to Q1.31 (R159): aligned to the top, −1 saturates. -/
def sampleQ31 (bits v : Nat) : Word :=
  let n := sext bits v * 2 ^ (32 - bits)
  if n = -(2 ^ 31 : Int) then 0x80000001 else ofInt32 n

/-- A fixed-point code in FP32 (R160). -/
def qToF32 (frac : Nat) (w : Word) : Nat := toF32 ((Fmt.fixed frac).decode w.toNat)

/-- An FP32 code in fixed point (R160, R153). -/
def f32ToQ (frac : Nat) (c : Nat) : Word := toWord ((Fmt.fixed frac).encode (f32 c) .nearest true).1

end Sys2Proof.Machine
end

