-- ==== Sys2Proof/Machine/Access.lean ====
section
/-!
DEFINITION. Machine/Access.lean: who may write which register, and the one path that every direct register
write takes before its register's own rule.
-/

namespace Sys2Proof.Machine

/-- The STATE of transaction n (R109): 0 IDLE, 1 OPEN, 2 ARMED, 3 COMMITTED, 4 ABORTED. -/
def State.txnState (s : State) (n : Nat) : Nat := s.fget (Reg.txnStatus n) 2 0

/-- Is `who` the owner of transaction n (R110). A transaction in IDLE has no owner. -/
def State.isOwner (s : State) (who : Initiator) (n : Nat) : Bool :=
  s.txnState n ≠ 0 && s.fget (Reg.txnStatus n) 15 8 = initCode who && initCode who ≠ 0xFF

/-- R701: the registers of a transaction that only its owner writes, and only while it is OPEN. -/
def txnOwnerRegister (o : Nat) : Bool :=
  decide (o = 0x08 ∨ o = 0x0C ∨ o = 0x10 ∨ o = 0x14 ∨ o = 0x18 ∨ o = 0x1C ∨ o = 0x20 ∨ o = 0x24 ∨ o = 0x28 ∨
    o = 0x2C ∨ o = 0x30)

/-- R110, R701: the TXN_ block. The command register and the push register settle their own cases. -/
def State.txnPermits (s : State) (who : Initiator) (o : Nat) : Bool :=
  if 0x1000 ≤ o ∧ o < 0x2000 then
    let n := (o - 0x1000) / 0x40
    let r := (o - 0x1000) % 0x40
    if txnOwnerRegister r then s.isOwner who n && s.txnState n = 1 else true
  else true

/-- R618: who writes the STW_ registers. -/
def stwPermits (who : Initiator) (o : Nat) : Bool :=
  match who with
  | .reflex _ => true
  | .steward | .cinch | .app _ => decide (o ≠ 0x120)
  | _ => false

/-- R559: who writes the CIN_ registers. -/
def cinPermits (who : Initiator) (o : Nat) : Bool :=
  match who with
  | .cinch => decide (o ≠ 0x88)
  | .steward => decide (o = 0x08)
  | .reflex _ => decide (o = 0x08 ∨ (0x400 ≤ o ∧ o < 0x500 ∧ o % 0x10 = 0xC))
  | .ingress => decide (o = 0x88)
  | _ => false

/-- R578: the SHZ_LINK registers belong to the owner of the transaction that the slot names, while it is OPEN. A
write of CFG names the transaction in its TXN field. -/
def State.linkPermits (s : State) (who : Initiator) (l r : Nat) (v : Word) : Bool :=
  let n := if r = 0 then fieldOf v 7 2 else s.fget (Reg.shzLinkCfg l) 7 2
  s.isOwner who n && s.txnState n = 1

/-- May `who` write the register at `a` by the rules of its block (R559, R196, R275, R411, R451, R472, R500, R591,
R618, R642, R669, R697, R701). Vouched destinations are settled apart (R20). -/
def State.regPermits (s : State) (who : Initiator) (a : Nat) (v : Word) : Bool :=
  let k := blockIndex a
  let o := a % 0x10000
  if k = 0x00 then
    if 0x100 ≤ o then stwPermits who o
    else if o = 0x0C then decide (who = .steward)
    else isTrusted who
  else if k = 0x05 then s.txnPermits who o
  else if k = 0x12 ∨ k = 0x19 then isTrusted who
  else if 0x13 ≤ k ∧ k ≤ 0x17 then isTrusted who || vouchable a
  else if k = 0x18 then isTrusted who || vouchable a
  else if k = 0x20 then cinPermits who o
  else if k = 0x30 then isTrusted who || !decide (0x300 ≤ o ∧ o ≤ 0x308)
  else if k = 0x32 then isTrusted who || !decide (0x200 ≤ o ∧ o ≤ 0x218)
  else if k = 0x50 then
    if 0x200 ≤ o ∧ o < 0x280 then s.linkPermits who ((o - 0x200) / 0x10) (o % 0x10) v else isTrusted who
  else if k = 0x60 ∨ k = 0x61 then
    match who with
    | .app _ => true
    | w => isTrusted w
  else if k = 0x70 then
    if o = 0x0C then decide (who = .steward)
    else match who with
      | .app _ => true
      | w => isTrusted w
  else true

/-- One direct write of a register (R6, R7, R20, R122, R388, R681): refused with an access fault where the address cannot be
reached; ignored at an offset without a register; refused with an access fault where the initiator may not write it;
without effect where a transaction wrote the register in this beat; else the register's own rule `act` takes the value
that the write may still change. -/
def State.softWrite (s : State) (who : Initiator) (a : Nat) (v : Word)
    (act : State → Word → State) : State :=
  if !s.reachable a then s.respond .accessFault
  else if (regRow a).isNone then s.respond .done
  else if !s.regPermits who a v then s.respond .accessFault
  else if !isTrusted who && s.vouched a then s.countBypass.respond .accessFault
  else if s.committed.contains a then s.respond .done
  else act (s.respond .done) (s.softValue a v)

end Sys2Proof.Machine
end

