-- ==== Sys2Proof/Machine/Buckles.lean ====
section
/-!
DEFINITION. Machine/Buckles.lean: buckles, their signals and their waits (R95 to R104).
-/

namespace Sys2Proof.Machine

/-- The value of buckle b (R95). -/
def State.buckle (s : State) (b : Nat) : Word := s.rget (Reg.bkl b)

/-- R99: the protected buckles. -/
def isProtected (b : Nat) : Bool := decide (16128 ≤ b ∧ b ≤ 16383)

/-- R98: the rank of a source that is no transaction commit. -/
def sourceRank : Initiator → Nat
  | .reflex _ | .cinch | .ingress | .quadrille | .ssu | .timebase => 2
  | .caller _ | .tensor _ | .ethernet => 3
  | .steward => 4
  | .app _ => 5
  | .pcie | .shauz | .tooling => 6

/-- R98: the rank of a signal; rank 1 is a transaction commit, its DONE signal included. -/
def signalRank (g : Signal) : Nat := if g.commit then 1 else sourceRank g.who

/-- Is a wait satisfied (R100). -/
def waitSatisfied (equal : Bool) (value target : Word) : Bool :=
  if equal then value = target else atOrAfter value target

/-- Evaluate wait slot w of block k against its TARGET (R100, R103): a satisfied slot clears ARMED and sets HIT. -/
def State.evalSlot (s : State) (k w : Nat) : State :=
  let cfg := s.rget (Reg.bklWaitCfg k w)
  if s.bit (Reg.bklWaitStatus k w) 0 &&
      waitSatisfied (bitOf cfg 17) (s.buckle (fieldOf cfg 13 0)) (s.rget (Reg.bklWaitTarget k w)) then
    s.rset (Reg.bklWaitStatus k w) 2
  else s

/-- Evaluate the slot where it watches buckle b. -/
def State.evalSlotFor (s : State) (b i : Nat) : State :=
  if s.fget (Reg.bklWaitCfg (i / 64) (i % 64)) 13 0 = b then s.evalSlot (i / 64) (i % 64) else s

/-- Evaluate every armed slot that watches buckle b (R100, R102). -/
def State.evalWaits (s : State) (b : Nat) : State :=
  (List.range 256).foldl (fun s i => s.evalSlotFor b i) s

/-- Caller 0 arms a golden run when the value of its frame buckle changes (R276). -/
def State.goldenArm (s : State) (b : Nat) (changed : Bool) : State :=
  if changed && s.bit Reg.calGoldenCfg 0 && decide (s.fget Reg.calGoldenFrame 13 0 = b) then
    let s := if s.bit Reg.calGoldenStatus 0 then
        (s.count Reg.calGoldenMissedCount 1).flag Reg.calGoldenStatus 1 else s
    { s.flag Reg.calGoldenStatus 0 with ten := { s.ten with goldBeat := s.beat, goldDue := false } }
  else s

/-- Give buckle b a value; its waits are evaluated whether or not the value changes (R100). -/
def State.putBuckle (s : State) (b : Nat) (v : Word) : State :=
  ((s.rset (Reg.bkl b) v).evalWaits b).goldenArm b (decide (s.buckle b ≠ v))

/-- The sum of the adds among some signals. -/
def sumAdds (sigs : List Signal) : Word :=
  sigs.foldl (fun d g => if g.isSet then d else d + g.amount) 0

/-- The sets of the highest rank number among some signals: the last in the order of R98. -/
def lastSets (sigs : List Signal) : List Signal :=
  let sets := sigs.filter (·.isSet)
  let top := sets.foldl (fun m g => max m (signalRank g)) 0
  sets.filter fun g => signalRank g = top

/-- The value that the last set gives; of two sets of one rank, which one is open (a free number). -/
def State.lastSetValue (s : State) (old : Word) (sigs : List Signal) : Word × State :=
  match lastSets sigs with
  | [] => (old, s)
  | [g] => (g.amount, s)
  | g :: gs =>
    let (k, s) := s.drawNat
    (((g :: gs).getD (k % (gs.length + 1)) g).amount, s)

/-- May this signal act (R99, R682). -/
def State.signalAllowed (s : State) (b : Nat) (g : Signal) : Bool :=
  s.mainOn && (isTrusted g.who || !isProtected b)

/-- Count a signal that may not act: a drop in SYS_AON_DROP_COUNT (R682), or a refusal in BKL_FAULT_COUNT of
block 3 (R99). -/
def State.noteSignal (s : State) (b : Nat) (g : Signal) : State :=
  if !s.mainOn then (if isAlwaysOn g.who then s.count Reg.sysAonDropCount 1 else s)
  else if !isTrusted g.who && isProtected b then s.count (Reg.bklFaultCount 3) 1
  else s

/-- STATUS of wait slot i of the 256. -/
def State.slotStatus (s : State) (i : Nat) : Word := s.rget (Reg.bklWaitStatus (i / 64) (i % 64))

/-- The wait slots that hit between two states, with what their STATUS held before. -/
def slotsHit (before after : State) : List (Nat × Word) :=
  (List.range 256).filterMap fun i =>
    if before.slotStatus i = after.slotStatus i then none else some (i, before.slotStatus i)

/-- Buckle b takes value v from these signals, which are kept until the end of the beat. -/
def State.land (s : State) (b : Nat) (v : Word) (sigs : List Signal) : State :=
  let t := s.putBuckle b v
  let gold := if t.ten = s.ten ∧ t.rget Reg.calGoldenStatus = s.rget Reg.calGoldenStatus then none
    else some (s.rget Reg.calGoldenStatus, s.rget Reg.calGoldenMissedCount, s.ten.goldBeat, s.ten.goldDue)
  { t with landed := ⟨b, sigs, s.buckle b, slotsHit s t, gold⟩ :: s.landed }

/-- The signals of one CLK_FAB cycle reach buckle b (R98). -/
def State.signalAll (s : State) (b : Nat) (sigs : List Signal) : State :=
  let s' := sigs.foldl (fun t g => t.noteSignal b g) s
  let ok := sigs.filter (s.signalAllowed b)
  if ok.isEmpty then s'
  else
    let (v, s') := s'.lastSetValue (s.buckle b) ok
    s'.land b (v + sumAdds ok) ok

/-- How many of the latest groups of signals that reached buckle b belong to the cycle that these signals share. -/
def groupsOfCycle (b : Nat) : List Landed → List Signal → Nat
  | [], _ => 0
  | e :: es, sigs =>
    if e.b ≠ b then groupsOfCycle b es sigs
    else if !e.sigs.isEmpty && e.sigs.all sigs.contains then groupsOfCycle b es (sigs.diff e.sigs) + 1
    else 0

/-- The latest group of buckle b is taken back: the buckle's value, the wait slots and the arming of a golden run. -/
def State.takeBack (s : State) (b : Nat) (e : Landed) : State :=
  let t := e.hits.foldl (fun t h => t.rset (Reg.bklWaitStatus (h.1 / 64) (h.1 % 64)) h.2) (s.rset (Reg.bkl b) e.before)
  match e.gold with
  | none => t
  | some (status, missed, beat, due) =>
    { (t.rset Reg.calGoldenStatus status).rset Reg.calGoldenMissedCount missed with
      ten := { t.ten with goldBeat := beat, goldDue := due } }

/-- The last k groups of buckle b are taken back. -/
def State.takeBackAll (s : State) (b k : Nat) : State :=
  ((s.landed.filter fun e => e.b = b).take k).foldl (fun t e =>
    { t.takeBack b e with landed := t.landed.erase e }) s

/-- A signal reaches buckle b in one cycle with others (R98). Those of the others that a command of their own has already
made are taken back first: no reader and no waiter sees a value between the signals of a cycle. -/
def State.signalCycle (s : State) (b : Nat) (g : Signal) (others : List Signal) : State :=
  (s.takeBackAll b (groupsOfCycle b s.landed others)).signalAll b (g :: others)

/-- One unit sets buckle b. -/
def State.bklSet (s : State) (who : Initiator) (b : Nat) (v : Word) : State := s.signalAll b [⟨who, true, v, false⟩]

/-- One unit adds to buckle b. -/
def State.bklAdd (s : State) (who : Initiator) (b : Nat) (v : Word) : State := s.signalAll b [⟨who, false, v, false⟩]

/-- A register write that is a signal (R98, R99), with the other signals of its cycle. -/
def State.signalWrite (s : State) (b : Nat) (g : Signal) (others : List Signal) : State :=
  let t := s.signalCycle b g others
  if !isTrusted g.who && isProtected b then t.respond .accessFault else t

/-- Write BKL_WAITw_CFG: ARM = 1 arms the slot and evaluates it at once (R103), ARM = 0 disarms it (R104). -/
def State.waitCfgWrite (s : State) (k w : Nat) (v : Word) : State :=
  let s := s.putRw (Reg.bklWaitCfg k w) v
  if bitOf v 16 then (s.bput (Reg.bklWaitStatus k w) 0 true).evalSlot k w
  else s.bput (Reg.bklWaitStatus k w) 0 false

/-- Write BKL_WAITw_TARGET: an armed slot is evaluated against the new target (R104). -/
def State.waitTargetWrite (s : State) (k w : Nat) (v : Word) : State :=
  (s.rset (Reg.bklWaitTarget k w) v).evalSlot k w

/-- The write rule of the BKL_ block k: offset o takes v from `who`. -/
def State.bklWrite (s : State) (who : Initiator) (k o : Nat) (v : Word) : State :=
  if o < 0x4000 then s.signalWrite (4096 * k + o / 4) ⟨who, true, v, false⟩ []
  else if o < 0x8000 then s.signalWrite (4096 * k + (o - 0x4000) / 4) ⟨who, false, v, false⟩ []
  else if 0x8000 ≤ o ∧ o < 0x8400 ∧ o % 0x10 = 0 then s.waitCfgWrite k ((o - 0x8000) / 0x10) v
  else if 0x8000 ≤ o ∧ o < 0x8400 ∧ o % 0x10 = 4 then s.waitTargetWrite k ((o - 0x8000) / 0x10) v
  else s.putTyped (0x10010000 + 0x10000 * k + o) v 0

/-- A command whose operands name something: `t`; else no register is there and the access faults (log entry 14). -/
def State.named (s : State) (ok : Bool) (t : State) : Out :=
  .next (if ok then t else s.respond .accessFault)

/-! ### Commands -/

/-- BUCKLE_SET (R98): a write of BKL_VALi. -/
def execBuckleSet (who : Initiator) (b : Nat) (value : Word) (others : List Signal) (s : State) : Out :=
  s.named (decide (b < 16384)) <|
    s.softWrite who (Reg.bkl b) value fun s v => s.signalWrite b ⟨who, true, v, false⟩ others

/-- BUCKLE_ADD (R98): a write of BKL_ADDi. -/
def execBuckleAdd (who : Initiator) (b : Nat) (amount : Word) (others : List Signal) (s : State) : Out :=
  s.named (decide (b < 16384)) <|
    s.softWrite who (Reg.bklAdd (b / 4096) (b % 4096)) amount fun s v =>
      s.signalWrite b ⟨who, false, v, false⟩ others

/-- The word that a write of BKL_WAITw_CFG carries. -/
def waitCfgWord (buckle : Nat) (arm equal : Bool) : Word :=
  toWord (buckle % 16384 + 65536 * b2n arm + 131072 * b2n equal)

/-- WAIT_ARM (R103). -/
def execWaitArm (who : Initiator) (block slot buckle : Nat) (equal : Bool) (s : State) : Out :=
  s.named (decide (block < 4 ∧ slot < 64)) <|
    s.softWrite who (Reg.bklWaitCfg block slot) (waitCfgWord buckle true equal) fun s v =>
      s.waitCfgWrite block slot v

/-- WAIT_DISARM (R104). -/
def execWaitDisarm (who : Initiator) (block slot buckle : Nat) (equal : Bool) (s : State) : Out :=
  s.named (decide (block < 4 ∧ slot < 64)) <|
    s.softWrite who (Reg.bklWaitCfg block slot) (waitCfgWord buckle false equal) fun s v =>
      s.waitCfgWrite block slot v

/-- WAIT_TARGET_WRITE (R104). -/
def execWaitTargetWrite (who : Initiator) (block slot : Nat) (value : Word) (s : State) : Out :=
  s.named (decide (block < 4 ∧ slot < 64)) <|
    s.softWrite who (Reg.bklWaitTarget block slot) value fun s v => s.waitTargetWrite block slot v

end Sys2Proof.Machine
end

