-- ==== Sys2Proof/Machine/Tiers.lean ====
section
/-!
DEFINITION. Machine/Tiers.lean: Cantle's pockets and scrubber, the Tier B controllers and the stall counter banks
(R54 to R76, R88 to R90).
-/

namespace Sys2Proof.Machine

/-! ### Pockets -/

/-- R61 for one enabled pocket of the shadow set: LOG2_GROUPS at most 4, BASE_GROUP a multiple of 2^s, inside the 16
bank groups. -/
def pocketShape (w : Word) : Bool :=
  !bitOf w 0 ||
    decide (fieldOf w 10 8 ≤ 4 ∧ fieldOf w 7 4 % 2 ^ fieldOf w 10 8 = 0 ∧
      fieldOf w 7 4 + 2 ^ fieldOf w 10 8 ≤ 16)

/-- R61: is this shadow set valid. -/
def shadowValid (set : List Word) : Bool :=
  set.all pocketShape &&
    (List.range 16).all fun g => ((set.filter fun w => pocketCovers w g).length ≤ 1 : Bool)

/-- The shadow set. -/
def State.shadowSet (s : State) : List Word := (List.range 8).map fun n => s.rget (Reg.canPocketCfgN n)

/-- SHADOW_VALID follows the shadow set. -/
def State.syncShadow (s : State) : State := s.bput Reg.canStatus 0 (shadowValid s.shadowSet)

/-- The pocket, base and size that bank group g is assigned to in a set of pockets (R63). -/
def assignment (set : List Word) (g : Nat) : Option (Nat × Nat × Nat) :=
  ((List.range 8).find? fun n => pocketCovers (set.getD n 0) g).map fun n =>
    (n, fieldOf (set.getD n 0) 7 4, fieldOf (set.getD n 0) 10 8)

/-- R60, R63: the shadow set takes effect. The contents of every bank group whose assignment changed are undefined;
they read as free bytes (log entry 15). -/
def State.pocketCommit (s : State) : State :=
  let new := s.shadowSet
  let old := (List.range 8).map fun n => s.rget (Reg.canPocketActiveN n)
  let t := (List.range 8).foldl (fun t n => t.rset (Reg.canPocketActiveN n) (new.getD n 0)) s
  t.loseMemory fun g => decide (g < 16) && decide (assignment old g ≠ assignment new g)

/-- A direct write of CAN_POCKET_COMMIT (R60). -/
def State.pocketCommitWrite (s : State) (v : Word) : State :=
  if bitOf v 0 then
    if s.bit Reg.canStatus 0 then s.pocketCommit else s.flag Reg.canStatus 1
  else s

/-- The write rule of the CAN_ block. -/
def State.canWrite (s : State) (o : Nat) (v : Word) : State :=
  if o = 0x04 then s.pocketCommitWrite v
  else if 0x10 ≤ o ∧ o < 0x30 then (s.putTyped (0x10370000 + o) v 0).syncShadow
  else s.putTyped (0x10370000 + o) v 0

/-- POCKET_COMMIT_GO (R60). -/
def execPocketCommitGo (who : Initiator) (s : State) : Out :=
  .next (s.softWrite who Reg.canPocketCommit 1 fun s v => s.pocketCommitWrite v)

/-! ### Scrubbers -/

/-- What a scrubber does with an error it finds: corrected errors are counted, uncorrectable ones only logged. -/
def State.scrubWord (s : State) (f : ErrFinding) : State := (s.checkWord f.word [f]).1

/-- CANTLE_SCRUB_PASS (R68): PERIOD_MS 0 stops the scrubber. -/
def execCantleScrubPass (previousDone : Bool) (found : List ErrFinding) (s : State) : Out :=
  .next <|
    if s.fget Reg.canScrubCfg 15 0 = 0 || !s.mainOn then s
    else
      let t := if previousDone then s else s.flag Reg.canStatus 4
      (found.filter fun f => decide (regionOf f.word = .tierA) && s.readable f.word).foldl State.scrubWord t

/-- TRB_SCRUB_PASS (R75): PERIOD_S 0 stops the scrubber. -/
def execTrbScrubPass (found : List ErrFinding) (s : State) : Out :=
  .next <|
    if s.fget Reg.trbScrubCfg 15 0 = 0 || !s.mainOn then s
    else (found.filter fun f => decide (regionOf f.word = .tierB) && s.readable f.word).foldl State.scrubWord s

/-! ### Tier B -/

/-- The load of each pseudo-channel from a list of (address, granule accesses). -/
def loadsOf (seed : Nat) (accesses : List (Nat × Nat)) : List Nat :=
  (List.range 128).map fun pc =>
    (accesses.filter fun x => decide (regionOf x.1 = .tierB) && pseudoChannel seed x.1 == pc).foldl
      (fun n x => n + x.2) 0

/-- The RATIO threshold in force: values below 8 act as 8. -/
def State.imbRatio (s : State) : Nat := max 8 (s.fget Reg.trbImbCfg 23 16)

/-- R73: flag the window: which of several equally loaded pseudo-channels is recorded, and the ratio of a window
without any access, are open (free numbers). -/
def State.flagImbalance (s : State) (loads : List Nat) : State :=
  let total := loads.sum
  let top := loads.foldl max 0
  let hot := (List.range 128).filter fun pc => loads.getD pc 0 = top
  let (pc, s) := match hot with
    | [pc] => (pc, s)
    | pcs => let (k, s) := s.drawNat; (pcs.getD (k % max 1 pcs.length) 0, s)
  let (ratio, s) := if total = 0 then s.drawNat else (top * 512 / total, s)
  let s := s.tally 0x04C (pc / 32) 1
  ((s.flag Reg.trbImbalance 0).fset Reg.trbImbalance 14 8 pc).fset Reg.trbImbalance 25 16 ratio
    |>.count Reg.trbImbCount 1

/-- TRB_IMBALANCE_WINDOW_END (R73): `accesses` are the granule accesses of the window. -/
def execTrbImbalanceWindowEnd (accesses : List (Nat × Nat)) (s : State) : Out :=
  .next <|
    if !s.mainOn then s
    else
      let loads := loadsOf s.seed accesses
      let t := (List.range 128).foldl (fun t pc => t.rset (Reg.trbPcLoad pc) (toWord (loads.getD pc 0))) s
      if loads.sum ≥ s.fget Reg.trbImbCfg 31 24 * 1024 &&
          loads.foldl max 0 * 512 ≥ loads.sum * s.imbRatio then t.flagImbalance loads
      else t

/-- STACK_THROTTLE (R76): a temperature report or a current request begins or ends for one stack. -/
def execStackThrottle (stack : Nat) (cause : ThrottleCause) (on : Bool) (s : State) : Out :=
  .next <|
    if 4 ≤ stack || !s.mainOn then s
    else
      let rest := s.throttles.filter fun x => x ≠ (stack, cause)
      let ts := if on then (stack, cause) :: rest else rest
      let t := { s with throttles := ts }
      let t := (List.range 4).foldl (fun t k => t.bput Reg.trbStatus (11 + k) (ts.any fun x => x.1 == k)) t
      let rise := !s.bit Reg.trbStatus 10 && !ts.isEmpty
      let t := t.bput Reg.trbStatus 10 (!ts.isEmpty)
      if rise && s.bit Reg.trbIntEn 3 then { t with throttleIrq := true } else t

/-! ### Stall counter banks (R90) -/

/-- The base of a stall counter bank. -/
def stallBase : StallBank → Nat
  | .lat => 0x10310800
  | .tng => 0x10330800

/-- All counters of a bank become 0. -/
def State.clearStalls (s : State) (base : Nat) : State :=
  ((List.range 12).map (fun i => base + 4 * i) ++ (List.range 6).map fun i => base + 0x40 + 4 * i).foldl
    (fun t a => t.rset a 0) s

/-- The stall causes in order of precedence (R88). -/
def stallOrder : List Nat := [5, 4, 1, 2, 3, 0]

/-- Can a cause apply now (R88): the throttle only while a stack or the Plane is throttled (R43, R76). -/
def State.causeApplies (s : State) (c : Nat) : Bool :=
  if c = 4 then !s.throttles.isEmpty || s.ten.throttled.isSome else decide (c < 6)

/-- The cause under which a stall cycle is counted (R88): the first in precedence of those that apply to the oldest request
that blocks; a request that waits for no other reason waits for bandwidth. -/
def State.stallCause (s : State) (oldest : List Nat) : Nat :=
  (stallOrder.find? fun c => oldest.contains c && s.causeApplies c).getD 0

/-- One stall cycle of a cause; the first of a run is an episode (R88, R89). -/
def State.countStall (s : State) (base cause : Nat) (first : Bool) : State :=
  let t := s.bump64 (base + 8 * cause) 1
  if first then t.bump (base + 0x40 + 4 * cause) 1 else t

/-- The CLK_TEN cycles of one bank (R88 to R90): the state with the counters moved, whether the last cycle was a stall, and
the stall cycles by cause. -/
def State.countCycles (s : State) (base : Nat) (before : Bool) (sums : List Nat) : List TenCycle → State × Bool × List Nat
  | [] => (s, before, sums)
  | c :: cs =>
    match c with
    | [] => s.countCycles base false sums cs
    | oldest :: _ =>
      let k := s.stallCause oldest
      (s.countStall base k (!before)).countCycles base true (sums.set k (sums.getD k 0 + 1)) cs

/-- The CLK_TEN cycles of both banks since the last report; with no op in the Tensor Plane there is no stall. -/
def State.planeCycles (s : State) (lat tng : List TenCycle) : State :=
  match s.ten.run with
  | none => { s with ten := { s.ten with latStall := false, tngStall := false } }
  | some r =>
    let (s, l, sums) := s.countCycles (stallBase .lat) s.ten.latStall r.stalls lat
    let (s, t, sums) := s.countCycles (stallBase .tng) s.ten.tngStall sums tng
    { s with ten := { s.ten with latStall := l, tngStall := t, run := some { r with stalls := sums } } }

/-- A write of P_STALL_CLR (R90). -/
def State.stallClrWrite (s : State) (base : Nat) (v : Word) : State :=
  if bitOf v 0 then s.clearStalls base else s

/-- STALL_COUNTER_CLEAR (R90). -/
def execStallCounterClear (who : Initiator) (bank : StallBank) (s : State) : Out :=
  .next (s.softWrite who (stallBase bank + 0x60) 1 fun s v => s.stallClrWrite (stallBase bank) v)

end Sys2Proof.Machine
end

