-- ==== Sys2Proof/Machine/Iommu.lean ====
section
/-!
DEFINITION. Machine/Iommu.lean: the tensor IOMMU (R77 to R87). Its registers, context and page-table formats and
fault records are those of the RISC-V IOMMU specification 1.0, which R77 names (PRESUMED, log entry 16).
-/

namespace Sys2Proof.Machine

/-- A translation's outcome: a physical address, or a fault with its cause. -/
inductive Translation where
  | ok (pa : Nat)
  | fault (cause : Nat)
  deriving DecidableEq, Repr

/-- Does an address lie in Tier A or Tier B (R52, R80). -/
def inTiers (a : Nat) : Bool := decide (regionOf a = .tierA ∨ regionOf a = .tierB)

/-- Read 64-bit words of a table through their codes (R66, R75); tables lie in Tier A or Tier B (R80). The causes are those
of an address that cannot be read and of uncorrectable data. -/
def State.tableWords (access corrupt : Nat) : State → List Nat → State × Except Nat (List Nat)
  | s, [] => (s, .ok [])
  | s, a :: as =>
    if !inTiers a || !s.readable a then (s, .error access)
    else
      match s.checkWord (a / 8 * 8) [] with
      | (s, false) => (s, .error corrupt)
      | (s, true) =>
        match State.tableWords access corrupt s as with
        | (t, .ok ws) => (t, .ok (s.readNat a 8 :: ws))
        | (t, .error c) => (t, .error c)

/-- The physical page number in bits [53:10] of an entry. -/
def entryPpn (v : Nat) : Nat := bitsOf v 53 10

/-! ### Events of the performance monitor and interrupts (R77) -/

/-- A message of vector `vec` reaches the interrupt file that its address names (R77: MSI to the IMSIC only). The addresses
of the interrupt files are the part's own. A masked vector keeps its message. -/
def State.iomMessage (s : State) (vec : Nat) : State :=
  if s.bit (Reg.iomMsiCtl vec) 0 then
    { s with iomHeld := if s.iomHeld.contains vec then s.iomHeld else vec :: s.iomHeld }
  else
    let core := Config.imsicCore (s.get64 (Reg.iomMsiAddrLo vec))
    let v := (s.rget (Reg.iomMsiData vec)).toNat
    if core < 12 ∧ 0 < v ∧ v ≤ Config.imsicIdentities ∧ !s.pcie.imsic.contains (core, v) then
      { s with pcie := { s.pcie with imsic := (core, v) :: s.pcie.imsic } }
    else s

/-- Bit k of IOM_IPSR is set: 0 the command queue, 1 the fault queue, 2 the performance monitor. A rise sends the message of
the vector that IOM_ICVEC names for it. -/
def State.iomRaise (s : State) (k : Nat) : State :=
  let t := s.flag Reg.iomIpsr k
  if s.bit Reg.iomIpsr k then t else t.iomMessage (s.fget Reg.iomIcvecLo (4 * k + 3) (4 * k))

/-- The conditions of the queues raise their interrupts while these are enabled. -/
def State.iomConditions (s : State) : State :=
  let s := if s.bit Reg.iomCqcsr 1 && decide (s.fget Reg.iomCqcsr 11 8 ≠ 0) then s.iomRaise 0 else s
  if s.bit Reg.iomFqcsr 1 && decide (s.fget Reg.iomFqcsr 9 8 ≠ 0) then s.iomRaise 1 else s

/-- Counter i (0 the cycles, 1 to 8 the events) has overflowed. -/
def State.hpmOverflow (s : State) (i : Nat) : State :=
  if s.bit Reg.iomIocountovf i then s else (s.flag Reg.iomIocountovf i).iomRaise 2

/-- Does a device ID match an event counter's filter: with DMASK, the bits up to the lowest 0 of DID are not compared. -/
def didMatches (did : Nat) (mask : Bool) (dev : Nat) : Bool :=
  let z := if mask then ((List.range 24).find? fun i => did / 2 ^ i % 2 = 0).getD 23 + 1 else 0
  decide (did / 2 ^ z = dev / 2 ^ z)

/-- Does event counter i count this event. -/
def State.hpmSelects (s : State) (i event dev pid pscid : Nat) : Bool :=
  let e := s.get64 (Reg.iomIohpmevtLo i)
  let space := bitsOf e 35 16
  decide (bitsOf e 14 0 = event) && !s.bit Reg.iomIocountinh (i + 1) &&
    (if bitsOf e 62 62 = 0 then
      (bitsOf e 60 60 = 0 || decide (space = pid)) &&
        (bitsOf e 61 61 = 0 || didMatches (bitsOf e 59 36) (bitsOf e 15 15 = 1) dev)
     else (bitsOf e 60 60 = 0 || decide (space = pscid)) && (bitsOf e 61 61 = 0 || decide (bitsOf e 59 36 = 0)))

/-- The event counters count one event: 1 an untranslated request, 4 an IOTLB miss, 5 a device directory walk, 6 a process
directory walk, 7 a page table walk. -/
def State.hpmCount (s : State) (event dev pid pscid : Nat) : State :=
  (List.range 8).foldl (fun s i =>
    if s.hpmSelects i event dev pid pscid then
      let v := s.get64 (Reg.iomIohpmctrLo i) + 1
      let t := s.set64 (Reg.iomIohpmctrLo i) v
      if v = 2 ^ 64 then (t.flag (Reg.iomIohpmevtHi i) 31).hpmOverflow (i + 1) else t
    else s) s

/-- IOM_IOHPMCYCLES counts n cycles: 63 bits, with the overflow in bit 63. -/
def State.hpmCycles (s : State) (n : Nat) : State :=
  if s.bit Reg.iomIocountinh 0 then s
  else
    let old := s.get64 Reg.iomIohpmcyclesLo
    let v := old % 2 ^ 63 + n
    let t := s.set64 Reg.iomIohpmcyclesLo (v % 2 ^ 63 + old / 2 ^ 63 * 2 ^ 63)
    if 2 ^ 63 ≤ v then (t.flag Reg.iomIohpmcyclesHi 31).hpmOverflow 0 else t

/-! ### Contexts (R77, R78) -/

/-- A device context from its four words, or a fault cause. The reserved bits, the features that R77 does not list and DPE
without PDTV are misconfigured. -/
def devCtxOf (tc gatp ta fsc : Nat) : Except Nat DevCtx :=
  let pdtv := tc / 32 % 2 = 1
  if tc % 2 = 0 then .error 258
  else if tc / 2 % 8 ≠ 0 || bitsOf tc 8 6 ≠ 0 || bitsOf tc 11 10 ≠ 0 || tc / 2 ^ 12 ≠ 0 || gatp / 2 ^ 60 ≠ 0 then .error 259
  else if bitsOf tc 9 9 = 1 && !pdtv then .error 259
  else if pdtv then (if fsc / 2 ^ 60 ≤ 2 then .ok ⟨tc, ta, fsc⟩ else .error 259)
  else if fsc / 2 ^ 60 = 0 ∨ fsc / 2 ^ 60 = 9 then .ok ⟨tc, ta, fsc⟩
  else .error 259

/-- A device context read from the directory (1LVL, 32-byte base format), or a fault cause. -/
def State.fetchDevCtx (s : State) (dev : Nat) : State × Except Nat DevCtx :=
  let a := bitsOf (s.get64 Reg.iomDdtpLo) 53 10 * 4096 + dev * 32
  match State.tableWords 257 268 s [a, a + 8, a + 16, a + 24] with
  | (s, .error c) => (s, .error c)
  | (s, .ok ws) => (s, devCtxOf (ws.getD 0 0) (ws.getD 1 0) (ws.getD 2 0) (ws.getD 3 0))

/-- The address of the process context of `pid` below a process directory pointer, or a fault cause. -/
def State.procCtxAddr (s : State) (fsc pid : Nat) : State × Except Nat Nat :=
  let root := bitsOf fsc 43 0 * 4096
  if fsc / 2 ^ 60 = 1 then (s, if pid < 256 then .ok (root + pid * 16) else .error 260)
  else
    match State.tableWords 265 269 s [root + pid / 256 * 8] with
    | (s, .error c) => (s, .error c)
    | (s, .ok ws) =>
      let e := ws.headD 0
      (s, if e % 2 = 0 then .error 266
        else if bitsOf e 9 1 ≠ 0 || e / 2 ^ 54 ≠ 0 then .error 267
        else .ok (entryPpn e * 4096 + pid % 256 * 16))

/-- A process context from its two words, or a fault cause. -/
def procCtxOf (dev pid ta fsc : Nat) : Except Nat ProcCtx :=
  if ta % 2 = 0 then .error 266
  else if bitsOf ta 11 3 ≠ 0 || ta / 2 ^ 32 ≠ 0 || (fsc / 2 ^ 60 ≠ 0 && fsc / 2 ^ 60 ≠ 9) then .error 267
  else .ok ⟨dev, pid, ta, fsc⟩

/-- A process context read from the directory with its address, or a fault cause. -/
def State.fetchProcCtx (s : State) (dev fsc pid : Nat) : State × Except Nat (Nat × ProcCtx) :=
  match s.procCtxAddr fsc pid with
  | (s, .error c) => (s, .error c)
  | (s, .ok a) =>
    match State.tableWords 265 269 s [a, a + 8] with
    | (s, .error c) => (s, .error c)
    | (s, .ok ws) => (s, (procCtxOf dev pid (ws.getD 0 0) (ws.getD 1 0)).map fun c => (a, c))

/-- The device context in force: the cached one, else the directory's, which is then cached. -/
def State.devCtx (s : State) (dev pid : Nat) : State × Except Nat DevCtx :=
  match s.devCtxs.find? fun x => x.1 = dev with
  | some x => (s, .ok x.2)
  | none =>
    match (s.hpmCount 5 dev pid 0).fetchDevCtx dev with
    | (s, .ok c) => ({ s with devCtxs := (dev, c) :: s.devCtxs }, .ok c)
    | r => r

/-- The process context in force. -/
def State.procCtx (s : State) (dev fsc pid : Nat) : State × Except Nat ProcCtx :=
  match s.procCtxs.find? fun x => x.dev = dev ∧ x.pid = pid with
  | some x => (s, .ok x)
  | none =>
    match (s.hpmCount 6 dev pid 0).fetchProcCtx dev fsc pid with
    | (s, .ok c) => ({ s with procCtxs := c.2 :: s.procCtxs }, .ok c.2)
    | (s, .error e) => (s, .error e)

/-- The address space of a request: no translation, or a Sv48 root with the PSCID that tags it; or a fault. -/
inductive Space where
  | bare
  | sv48 (rootPpn pscid : Nat)
  | fault (cause : Nat)
  deriving DecidableEq, Repr

/-- The first-stage root in a context word. -/
def spaceOf (fsc ta : Nat) : Space :=
  if fsc / 2 ^ 60 = 0 then .bare else .sv48 (bitsOf fsc 43 0) (bitsOf ta 31 12)

/-- The address space of process `pid` of device `dev` (R78). -/
def State.space (s : State) (dev pid : Nat) : State × Space :=
  let mode := s.fget Reg.iomDdtpLo 3 0
  if mode = 0 then (s, .fault 256)
  else if mode = 1 then (s, .bare)
  else
    match s.devCtx dev pid with
    | (s, .error e) => (s, .fault e)
    | (s, .ok c) =>
      if c.tc / 32 % 2 = 0 then (if pid = 0 then (s, spaceOf c.fsc c.ta) else (s, .fault 260))
      else if c.fsc / 2 ^ 60 = 0 then (s, .bare)
      else
        match s.procCtx dev c.fsc pid with
        | (s, .error e) => (s, .fault e)
        | (s, .ok p) => (s, spaceOf p.fsc p.ta)

/-- A leaf found by a walk, with the non-leaf entries on the way: level, and page number of the table below. -/
structure Leaf where
  size : Nat
  ppn : Nat
  pte : Nat
  path : List (Nat × Nat)
  deriving DecidableEq, Repr

/-- What a PTE is for one access. -/
inductive PteKind where
  | fault
  | table (ppn : Nat)
  | leaf (size ppn : Nat)
  deriving DecidableEq, Repr

/-- A PTE of level n (R77: PBMT bits, A = 0, D = 0 on a write fault; 64 KiB NAPOT only; a request of a device runs with user
privilege). -/
def pteKind (e n : Nat) (isWrite : Bool) : PteKind :=
  let napot := e / 2 ^ 63 = 1
  if e % 2 = 0 || (e / 2 % 2 = 0 && e / 4 % 2 = 1) || bitsOf e 62 54 ≠ 0 then .fault
  else if bitsOf e 3 1 = 0 then
    if napot || bitsOf e 7 6 ≠ 0 || e / 16 % 2 ≠ 0 then .fault else .table (entryPpn e)
  else if napot && (n ≠ 0 || entryPpn e % 16 ≠ 8) then .fault
  else if entryPpn e % 2 ^ (9 * n) ≠ 0 then .fault
  else if e / 16 % 2 = 0 || e / 64 % 2 = 0 then .fault
  else if isWrite && (e / 4 % 2 = 0 || e / 128 % 2 = 0) then .fault
  else if !isWrite && e / 2 % 2 = 0 then .fault
  else if napot then .leaf 16 (entryPpn e / 16 * 16)
  else .leaf (12 + 9 * n) (entryPpn e)

/-- The cause of a page fault. -/
def pageFault (isWrite : Bool) : Nat := if isWrite then 15 else 13

/-- Walk Sv48 tables from the table at page number `ppn`, of level n where the fuel is n + 1: a leaf, or a fault cause. -/
def State.walk (iova : Nat) (isWrite : Bool) : State → Nat → Nat → List (Nat × Nat) → State × Except Nat Leaf
  | s, 0, _, _ => (s, .error (pageFault isWrite))
  | s, n + 1, ppn, path =>
    match State.tableWords (if isWrite then 7 else 5) 274 s [ppn * 4096 + iova / 2 ^ (12 + 9 * n) % 512 * 8] with
    | (s, .error c) => (s, .error c)
    | (s, .ok ws) =>
      match pteKind (ws.headD 0) n isWrite with
      | .fault => (s, .error (pageFault isWrite))
      | .table p => State.walk iova isWrite s n p ((n, p) :: path)
      | .leaf size p => (s, .ok ⟨size, p, ws.headD 0, path⟩)

/-- Is an IOVA canonical for Sv48. -/
def canonical (iova : Nat) : Bool := decide (iova / 2 ^ 47 = 0 ∨ iova / 2 ^ 47 = 2 ^ 17 - 1)

/-- The IOTLB entry that a leaf makes. -/
def tlbOf (dev pscid iova : Nat) (l : Leaf) : TlbEntry where
  dev := dev
  pscid := pscid
  iova := iova / 2 ^ l.size * 2 ^ l.size
  size := l.size
  pa := l.ppn * 4096
  canRead := l.pte / 2 % 2 = 1
  canWrite := l.pte / 4 % 2 = 1 && l.pte / 128 % 2 = 1
  isGlobal := l.pte / 32 % 2 = 1

/-- Does an entry translate this access. -/
def TlbEntry.serves (e : TlbEntry) (dev pscid iova : Nat) (isWrite : Bool) : Bool :=
  decide (e.dev = dev ∧ (e.pscid = pscid ∨ e.isGlobal) ∧ iova / 2 ^ e.size * 2 ^ e.size = e.iova) &&
    (if isWrite then e.canWrite else e.canRead)

/-- IOM_EXT_STATUS follows the IOTLB and the walks of replaced roots. -/
def State.syncIom (s : State) : State :=
  (s.fset Reg.iomExtStatus 12 0 s.tlb.length).fset Reg.iomExtStatus 20 16
    (min 16 (s.swapRuns.foldl (fun n r => n + r.walksLeft) 0))

/-- Fill the IOTLB; of 4,096 entries, which one gives way is open (a free number). -/
def State.tlbFill (s : State) (e : TlbEntry) : State :=
  if s.tlb.length < 4096 then { s with tlb := e :: s.tlb }.syncIom
  else
    let (k, s) := s.drawNat
    { s with tlb := e :: s.tlb.eraseIdx (k % 4096) }.syncIom

/-- One non-leaf entry is cached; of 512 entries, which one gives way is open (R81). -/
def State.dirFill (s : State) (e : DirEntry) : State :=
  if s.dirs.contains e then s
  else if s.dirs.length < 512 then { s with dirs := e :: s.dirs }
  else
    let (k, s) := s.drawNat
    { s with dirs := e :: s.dirs.eraseIdx (k % 512) }

/-- The non-leaf entries of a walk that found a leaf are cached (R81); nothing of a faulted walk is. -/
def State.dirFills (s : State) (dev pscid iova : Nat) (l : Leaf) : State :=
  l.path.foldl (fun s x => s.dirFill ⟨dev, pscid, x.1, iova / 2 ^ (12 + 9 * x.1), x.2⟩) s

/-- Where a walk begins: at the lowest table that the non-leaf cache knows, else at the root (R81). -/
def State.walkStart (s : State) (dev pscid iova root : Nat) : Nat × Nat :=
  (([1, 2, 3] : List Nat).findSome? fun l =>
    (s.dirs.find? fun d => decide (d.dev = dev ∧ d.pscid = pscid ∧ d.level = l ∧ d.tag = iova / 2 ^ (12 + 9 * l))).map
      fun d => (l, d.ppn)).getD (4, root)

/-- A walk for an IOTLB miss (R81): it fills both caches when it finds a leaf. -/
def State.walkFill (s : State) (dev pid pscid iova root : Nat) (isWrite : Bool) : State × Except Nat Leaf :=
  let from_ := s.walkStart dev pscid iova root
  match State.walk iova isWrite ((s.tally 0x041 dev 1).hpmCount 7 dev pid pscid) from_.1 from_.2 [] with
  | (s, .error c) => (s, .error c)
  | (s, .ok l) => ((s.dirFills dev pscid iova l).tlbFill (tlbOf dev pscid iova l), .ok l)

/-- Translate one access of device `dev` (R79, R81, R52): the state with caches filled, and the outcome. -/
def State.translate (s : State) (dev pid iova : Nat) (isWrite : Bool) : State × Translation :=
  if regionOf iova = .tierA then (s, .ok iova)
  else
    match (s.hpmCount 1 dev pid 0).space dev pid with
    | (s, .fault c) => (s, .fault c)
    | (s, .bare) => (s, .ok iova)
    | (s, .sv48 root pscid) =>
      match s.tlb.find? fun e => e.serves dev pscid iova isWrite with
      | some e => (s, .ok (e.pa + iova % 2 ^ e.size))
      | none =>
        let s := ((s.count Reg.iomMissCount 1).tally 0x040 dev 1).hpmCount 4 dev pid pscid
        if !canonical iova then (s, .fault (pageFault isWrite))
        else
          match s.walkFill dev pid pscid iova root isWrite with
          | (s, .error c) => (s, .fault c)
          | (s, .ok l) => (s, .ok (l.ppn * 4096 + iova % 2 ^ l.size))

/-- The causes that a device context with DTF = 1 still reports. -/
def reportedWithDtf : List Nat := [256, 257, 258, 259, 268, 272, 273]

/-- Does the device context suppress the report of a fault (DTF). -/
def State.silenced (s : State) (dev cause : Nat) : Bool :=
  !reportedWithDtf.contains cause && (s.devCtxs.any fun x => x.1 = dev && x.2.tc / 16 % 2 == 1)

/-- A flag of IOM_FQCSR is set. -/
def State.fqFlag (s : State) (i : Nat) : State := (s.flag Reg.iomFqcsr i).iomConditions

/-- Write a fault record to the fault queue (R82). A full queue sets FQOF, a refused write FQMF. R59 and the table of pocket
permissions name no class for the IOMMU's own writes (fault records, the word of IOFENCE.C, the process context of a
swap): they take place without a permission check (DESIGN CHOICE, log entry 35). -/
def State.faultRecord (s : State) (cause dev pid iova : Nat) (isWrite : Bool) : State :=
  let s := s.tally 0x042 dev 1
  if s.silenced dev cause || !s.bit Reg.iomFqcsr 16 || s.bit Reg.iomFqcsr 8 || s.bit Reg.iomFqcsr 9 then s
  else
    let size := 2 ^ (s.fget Reg.iomFqbLo 4 0 + 1)
    let t := (s.rget Reg.iomFqt).toNat
    if (t + 1) % size = (s.rget Reg.iomFqh).toNat then s.fqFlag 9
    else
      let a := bitsOf (s.get64 Reg.iomFqbLo) 53 10 * 4096 + t * 32
      let ttyp := if isWrite then 3 else 2
      let d0 := cause + pid * 2 ^ 12 + 2 ^ 32 + ttyp * 2 ^ 34 + dev * 2 ^ 40
      if !inTiers a || !s.readable a then s.fqFlag 8
      else
        let s := ((s.writeNat a 8 d0).writeNat (a + 8) 8 0).writeNat (a + 16) 8 iova
        let s := (s.writeNat (a + 24) 8 0).rset Reg.iomFqt (toWord ((t + 1) % size))
        if s.bit Reg.iomFqcsr 1 then s.iomRaise 1 else s

/-! ### Root swaps (R83 to R85) -/

/-- A process context that a swap replaces: its device, its address, its PSCID, and the root that it has had. -/
structure SwapTarget where
  dev : Nat
  addr : Nat
  pscid : Nat
  root : Option Nat
  deriving DecidableEq, Repr

/-- The process context of `pid` in device `dev`, or the code of R87's table: 4 where the directory holds uncorrectable data,
else 2. Process 0 of a device without a process directory has no process context either, though its translation is
served from the device context: code 2 (DESIGN CHOICE, log entry 36). -/
def State.swapTarget (s : State) (pid dev : Nat) : State × Except Nat SwapTarget :=
  let code (c : Nat) : Nat := if c = 268 ∨ c = 269 then 4 else 2
  if s.fget Reg.iomDdtpLo 3 0 ≠ 2 then (s, .error 2)
  else
    match s.fetchDevCtx dev with
    | (s, .error c) => (s, .error (code c))
    | (s, .ok c) =>
      if c.tc / 32 % 2 = 0 || c.fsc / 2 ^ 60 = 0 then (s, .error 2)
      else
        match s.fetchProcCtx dev c.fsc pid with
        | (s, .error c) => (s, .error (code c))
        | (s, .ok (a, p)) =>
          (s, .ok ⟨dev, a, bitsOf p.ta 31 12, if p.fsc / 2 ^ 60 = 9 then some (bitsOf p.fsc 43 0) else none⟩)

/-- The process contexts of several devices. -/
def State.swapTargets (pid : Nat) : State → List Nat → State × Except Nat (List SwapTarget)
  | s, [] => (s, .ok [])
  | s, dev :: devs =>
    match s.swapTarget pid dev with
    | (s, .error c) => (s, .error c)
    | (s, .ok x) =>
      match State.swapTargets pid s devs with
      | (s, .ok xs) => (s, .ok (x :: xs))
      | (s, .error c) => (s, .error c)

/-- A swap that fails changes nothing and sets ERROR. -/
def State.swapError (s : State) (n code : Nat) : State :=
  (s.fset (Reg.iomSwapStatus n) 11 8 code).flag (Reg.iomSwapStatus n) 2

/-- R83 for one context: write the root with mode Sv48, drop the cached context and every entry of both caches with its
tag. -/
def State.swapOne (s : State) (ppn pid : Nat) (x : SwapTarget) : State :=
  let t := s.writeNat (x.addr + 8) 8 (9 * 2 ^ 60 + ppn)
  { t with
    procCtxs := t.procCtxs.filter fun p => !decide (p.dev = x.dev ∧ p.pid = pid)
    tlb := t.tlb.filter fun e => !decide (e.dev = x.dev ∧ e.pscid = x.pscid)
    dirs := t.dirs.filter fun e => !decide (e.dev = x.dev ∧ e.pscid = x.pscid) }.syncIom

/-- The devices that swap slot n names (R83). -/
def State.swapDevs (s : State) (n : Nat) : List Nat :=
  if s.bit (Reg.iomSwapId n) 21 then [0, 1] else [s.fget (Reg.iomSwapId n) 20 20]

/-- A write of IOM_SWAPn_ROOT_HI (R83 to R85). Where several codes of R87's table apply to one swap, the spec gives no order:
the model takes 1, then that of the contexts (2 or 4), then 3, then 4 for the write of the context (DESIGN CHOICE, log
entry 36). -/
def State.swapWrite (s : State) (n : Nat) (v : Word) (oldWalks : Nat) (writeError : Bool) : State :=
  if s.bit (Reg.iomSwapStatus n) 0 then s.swapError n 1
  else
    let s := s.putRw (Reg.iomSwapRootHi n) v
    let ppn := (s.rget (Reg.iomSwapRootLo n)).toNat + s.fget (Reg.iomSwapRootHi n) 3 0 * 2 ^ 32
    let pid := s.fget (Reg.iomSwapId n) 16 0
    match State.swapTargets pid s (s.swapDevs n) with
    | (s, .error c) => s.swapError n c
    | (s, .ok xs) =>
      if !inTiers (ppn * 4096) then s.swapError n 3
      else if writeError then s.swapError n 4
      else
        let t := xs.foldl (fun t x => t.swapOne ppn pid x) s
        let old := xs.filterMap fun x => x.root.map fun r => (x.dev, r)
        let t := { t with swapRuns := ⟨n, oldWalks, old⟩ :: t.swapRuns.filter fun r => r.slot ≠ n }
        ((t.fset (Reg.iomSwapStatus n) 11 8 0).flag (Reg.iomSwapStatus n) 0).syncIom

/-- A write of IOM_SWAPn_ROOT_HI that no command of its own describes: while an op occupies the Tensor Plane, how many walks
are in flight is a free number up to 16 (R81, R84). -/
def State.swapNow (s : State) (n : Nat) (v : Word) : State :=
  if s.ten.run.isSome then
    let (k, s) := s.drawNat
    s.swapWrite n v (k % 17) false
  else s.swapWrite n v 0 false

/-- IOM_SWAP_ROOT_HI_WRITE (R83). -/
def execIomSwapRootHiWrite (who : Initiator) (n : Nat) (value : Word) (oldWalks : Nat) (writeError : Bool)
    (s : State) : Out :=
  s.named (decide (n < 8)) <|
    s.softWrite who (Reg.iomSwapRootHi n) value fun s v => s.swapWrite n v oldWalks writeError

/-- IOM_SWAP_DONE (R84): when no walk under the old root remains. -/
def execIomSwapDone (n : Nat) (s : State) : Out :=
  .next <|
    if decide (n < 8) && s.bit (Reg.iomSwapStatus n) 0 &&
        (s.swapRuns.all fun r => r.slot ≠ n || r.walksLeft = 0 : Bool) then
      ({ s with swapRuns := s.swapRuns.filter fun r => r.slot ≠ n }.bput (Reg.iomSwapStatus n) 0 false).flag
        (Reg.iomSwapStatus n) 1
    else s

/-! ### Queue commands (R77) -/

/-- The command queue has carried out one command. -/
def State.cqAdvance (s : State) : State :=
  let h := (s.rget Reg.iomCqh).toNat
  if s.bit Reg.iomCqcsr 16 && s.rget Reg.iomCqh ≠ s.rget Reg.iomCqt then
    s.rset Reg.iomCqh (toWord ((h + 1) % 2 ^ (s.fget Reg.iomCqbLo 4 0 + 1)))
  else s

/-- The command queue stands still on an error until software clears it. -/
def State.cqStopped (s : State) : Bool := decide (s.fget Reg.iomCqcsr 10 8 ≠ 0)

/-- A command of the queue is carried out, while the domain is up and the queue has met no error. -/
def State.cqRun (s : State) (f : State → State) : Out := .next (if !s.mainOn || s.cqStopped then s else f s)

/-- Does IOTINVAL.VMA with these operands name an entry of this address prefix and PSCID: entries of an address, of a PSCID
(not the global ones), of both, or all. -/
def vmaNames (addr pscid : Option Nat) (size tag entryPscid : Nat) (isGlobal : Bool) : Bool :=
  addr.all (fun a => decide (a / 2 ^ size = tag)) && pscid.all fun p => decide (entryPscid = p) && !isGlobal

/-- IOTINVAL.VMA: entries of the IOTLB and of the non-leaf cache. -/
def execIotinvalVma (addr pscid : Option Nat) (s : State) : Out :=
  s.cqRun fun s =>
    { s with
      tlb := s.tlb.filter fun e => !vmaNames addr pscid e.size (e.iova / 2 ^ e.size) e.pscid e.isGlobal
      dirs := s.dirs.filter fun e => !vmaNames addr pscid (12 + 9 * e.level) e.tag e.pscid false }.syncIom.cqAdvance

/-- IOTINVAL.GVMA: the second stage is Bare, so no entry depends on it. -/
def execIotinvalGvma (_addr _gscid : Option Nat) (s : State) : Out := s.cqRun State.cqAdvance

/-- IODIR.INVAL_DDT: cached device contexts, with the process contexts below them. -/
def execIodirInvalDdt (dev : Option Nat) (s : State) : Out :=
  s.cqRun fun s =>
    { s with
      devCtxs := s.devCtxs.filter fun x => !(dev.isNone || dev = some x.1)
      procCtxs := s.procCtxs.filter fun x => !(dev.isNone || dev = some x.dev) }.cqAdvance

/-- IODIR.INVAL_PDT: the cached process context of a device and process. -/
def execIodirInvalPdt (dev pid : Nat) (s : State) : Out :=
  s.cqRun fun s => { s with procCtxs := s.procCtxs.filter fun x => !decide (x.dev = dev ∧ x.pid = pid) }.cqAdvance

/-- The data word of IOFENCE.C: stored by the read-modify-write rule (R65), a failure sets CQMF. -/
def State.fenceStore (s : State) (a : Nat) (v : Word) : State :=
  if inTiers a && s.readable a && decide (a % 4 = 0) then
    match s.storeBytes a (natToBytes 4 v.toNat) [] with
    | (s, true) => s.cqAdvance
    | (s, false) => (s.flag Reg.iomCqcsr 8).iomConditions
  else (s.flag Reg.iomCqcsr 8).iomConditions

/-- IOFENCE.C: earlier commands have been carried out; with AV it then stores DATA at ADDR. -/
def execIofenceC (store : Option (Nat × Word)) (s : State) : Out :=
  s.cqRun fun s =>
    match store with
    | none => s.cqAdvance
    | some (a, v) => s.fenceStore a v

/-- The write rule of the interrupt registers: a pending bit that is cleared while its condition stands is set again, and a
vector that is no longer masked sends the message that it kept. -/
def State.iomIntWrite (s : State) (o : Nat) (v : Word) : State :=
  let t := s.putTyped (0x10360000 + o) v 0
  if o = 0x54 then t.iomConditions
  else
    let vec := (o - 0x300) / 0x10
    if t.iomHeld.contains vec && !t.bit (Reg.iomMsiCtl vec) 0 then
      { t with iomHeld := t.iomHeld.filter (· ≠ vec) }.iomMessage vec
    else t

/-- IOM_IOCOUNTOVF follows the OF bits that software writes in IOM_IOHPMEVTi and IOM_IOHPMCYCLES. -/
def State.syncOverflow (s : State) : State :=
  (List.range 8).foldl (fun s i => s.bput Reg.iomIocountovf (i + 1) (s.bit (Reg.iomIohpmevtHi i) 31))
    (s.bput Reg.iomIocountovf 0 (s.bit Reg.iomIohpmcyclesHi 31))

/-- The write rule of the IOM_ block: enabling a queue starts it at index 0; only the DDT modes of R77 are kept. -/
def State.iomWrite (s : State) (o : Nat) (v : Word) : State :=
  let a := 0x10360000 + o
  if o = 0x48 ∨ o = 0x4C then
    let rise := bitOf v 0 && !s.bit a 0
    let t := (s.putTyped a v 0).bput a 16 (bitOf v 0)
    if rise then
      if o = 0x48 then ((t.rset Reg.iomCqh 0).fset a 11 8 0) else ((t.rset Reg.iomFqt 0).fset a 9 8 0)
    else t.iomConditions
  else if o = 0x10 then
    if fieldOf v 3 0 ≤ 2 then { s.putTyped a v 0 with devCtxs := [], procCtxs := [] }
    else s.putTyped a (withField v 3 0 (s.fget a 3 0)) 0
  else if 0x1100 ≤ o ∧ o < 0x1180 ∧ o % 0x10 = 8 then s.swapNow ((o - 0x1100) / 0x10) v
  else if o = 0x54 ∨ (0x300 ≤ o ∧ o < 0x400 ∧ o % 0x10 = 0xC) then s.iomIntWrite o v
  else if 0x60 ≤ o ∧ o < 0x1A0 then (s.putTyped a v 0).syncOverflow
  else s.putTyped a v 0

end Sys2Proof.Machine
end

