-- ==== Sys2Proof/Machine/Time.lean ====
section
/-!
DEFINITION. Machine/Time.lean: the time base, the beat, triggers and captures (R379 to R397, R700, R703).
-/

namespace Sys2Proof.Machine

/-- The units of one nanosecond in the time base: 2^45 (R379). -/
def nsUnits : Nat := 2 ^ 45

/-- T(b) in units of 2^-45 ns. -/
def State.timeUnits (s : State) : Nat :=
  s.timeNs * nsUnits + s.fget Reg.tmbTimeFrac 15 0 * 2 ^ 29 + s.tmb.fracLow

/-- The increment of one beat in units of 2^-45 ns: 8 ns + RATE × 2^-45 ns (R379). -/
def State.increment (s : State) : Nat := (8 * (nsUnits : Int) + s.tmb.rate).toNat

/-- Give the time base a value in units of 2^-45 ns. -/
def State.putTime (s : State) (u : Nat) : State :=
  let ns := u / nsUnits
  let s := s.set64 Reg.tmbTimeSecLo (ns / 1000000000)
  let s := (s.rset Reg.tmbTimeNs (toWord (ns % 1000000000))).rset Reg.tmbTimeFrac
    (toWord (u / 2 ^ 29 % 2 ^ 16))
  { s with tmb := { s.tmb with fracLow := u % 2 ^ 29 } }

/-- Do beats occur now (R381, R384). -/
def State.beating (s : State) : Bool := s.tmb.started && !s.tmb.stopped

/-- Homing enters INDEX in the beat after the trip of its switch (R493, R494). -/
def State.homeToIndex (s : State) : State :=
  if s.mio.homeIndexFrom = 0 then s
  else
    let n := s.fget (Reg.mioAxCfg (s.fget Reg.mioHomeCfg 4 0)) 5 2
    let s' := { s with mio := { s.mio with
      homeIndexFrom := 0, homeEntry := (s.rget (Reg.mioEncCount n)).toInt } }
    if s.fget Reg.mioHomeStatus 2 0 = 1 then s'.fset Reg.mioHomeStatus 2 0 2 else s'

/-- Word `o` of a descriptor of the sparse solver. -/
def descWord (d : List Byte) (o : Nat) : Nat := bytesToNat ((d.drop o).take 4)

/-- The arrays that a descriptor names: address and length (R504). -/
def ssuArrays (d : List Byte) : List (Nat × Nat) :=
  let n := bitsOf (descWord d 0x04) 12 0
  let nnz := bitsOf (descWord d 0x08) 16 0
  let at_ (o : Nat) : Nat := reflexBase + bitsOf (descWord d o) 22 0
  [(at_ 0x18, 4 * (n + 1)), (at_ 0x1C, 2 * nnz), (at_ 0x20, 4 * nnz), (at_ 0x24, 4 * n)]

/-- At the end of its start beat a problem's descriptor is latched (R501). -/
def State.ssuLatch (s : State) : State :=
  let latch (p : Nat × SsuStart) : Nat × SsuStart :=
    if p.2.desc.isSome then p
    else
      let d := s.readBytes (reflexBase + s.fget (Reg.ssuPDesc p.1) 22 6 * 64) 64
      (p.1, { p.2 with desc := some d, inputs := (ssuArrays d).map fun r => (r.1, s.readBytes r.1 r.2) })
  { s with ssu := { s.ssu with pending := s.ssu.pending.map latch } }

/-- What the block keeps of one beat only is gone: the places that events reached (R387), what they changed (R388, R122), and
the signals that combine (R98). -/
def State.clearBeat (s : State) : State :=
  { s with touched := [], committed := [], landed := [], order := 0, tmb := { s.tmb with ppsIn := none } }

/-- The start of a new beat (R379, R381): beat 0 begins at time 0; every later beat adds the increment. -/
def State.nextBeat (s : State) : State :=
  let s := s.ssuLatch.clearBeat
  if s.tmb.started then
    ((s.putTime (s.timeUnits + s.increment)).bump64 Reg.tmbBeatLo 1).homeToIndex
  else { s with tmb := { s.tmb with started := true } }

/-- A beat of the time base (R379): none while it is stopped. -/
def State.beatStep (s : State) : State :=
  if s.tmb.stopped || (!s.tmb.started && !s.bit Reg.tmbStatus 0) then s else s.nextBeat

/-- The limit of RATE: ±500 ppm (R380). -/
def rateLimit : Int := 140737488355

/-- R380: a write of TMB_RATE_HI applies RATE to the next increment. -/
def State.rateWrite (s : State) (v : Word) : State :=
  let s := s.putRw Reg.tmbRateHi v
  let raw := sext 40 ((s.rget Reg.tmbRateLo).toNat + s.fget Reg.tmbRateHi 7 0 * 2 ^ 32)
  let r := max (-rateLimit) (min rateLimit raw)
  let s := if r = raw then s else s.flag Reg.tmbStatus 1
  { s with tmb := { s.tmb with rate := r } }

/-- TIME_RATE_WRITE (R380). -/
def execTimeRateWrite (who : Initiator) (value : Word) (s : State) : Out :=
  .next (s.softWrite who Reg.tmbRateHi value fun s v => s.rateWrite v)

/-- The time that a step leads to, or none where it would lie outside 0 s to 2^64 − 1 s (R382). -/
def State.steppedTime (s : State) (mode sec ns : Nat) : Option Nat :=
  let v := (sec * 1000000000 + ns) * nsUnits
  let t : Int := if mode = 0 then v else if mode = 1 then s.timeUnits + v else (s.timeUnits : Int) - v
  if 0 ≤ t ∧ t < (2 ^ 64 * 1000000000 * nsUnits : Nat) then some t.toNat else none

/-- A step takes effect, or is refused (R382). -/
def State.stepNow (s : State) (mode sec ns : Nat) : State :=
  match s.steppedTime mode sec ns with
  | none => s.flag Reg.tmbStatus 3
  | some t => ((s.putTime t).count Reg.tmbStepCount 1).flag Reg.tmbStatus 2

/-- The step value's seconds. -/
def State.stepSec (s : State) : Nat := s.get64 Reg.tmbStepSecLo

/-- A direct write of TMB_STEP_GO in beat b: the step is due at the start of beat b + 2 (R382, R700). MODE 3 is
ignored. -/
def State.stepGo (s : State) (v : Word) : State :=
  let mode := fieldOf v 1 0
  let ns := s.fget Reg.tmbStepNs 29 0
  if mode = 3 then s
  else if 999999999 < ns then s.flag Reg.tmbStatus 3
  else
    { s with tmb := { s.tmb with
        steps := s.tmb.steps ++ [{ mode := mode, sec := s.stepSec, ns := ns, due := s.beat + 2 }] } }

/-- Is a staged GO refused by its target (R382). -/
def State.stepRefused (s : State) (v : Word) : Bool :=
  let mode := fieldOf v 1 0
  let ns := s.fget Reg.tmbStepNs 29 0
  mode ≠ 3 && (decide (999999999 < ns) || (s.steppedTime mode s.stepSec ns).isNone)

/-- The time-base reading `after` units of 2^-45 ns into the beat, truncated to ns (R395). -/
def State.stampNs (s : State) (after : Nat) : Nat := (s.timeUnits + after) / nsUnits

/-- The stamps of this beat follow its stepped time (R382). -/
def State.restamp (s : State) : State :=
  let fix (f : Stamp × Nat) : Stamp × Nat :=
    if f.2 = s.beat + 2 then ({ f.1 with ns := s.stampNs f.1.after }, f.2) else f
  let t := { s with tmb := { s.tmb with caps := s.tmb.caps.map fun c => (c.1, { c.2 with flight := c.2.flight.map fix }) } }
  match s.tmb.ppsIn with
  | none => t
  | some after =>
    let ns := s.stampNs after
    (t.rset Reg.tmbPpsInNs (toWord (ns % 1000000000))).set64 Reg.tmbPpsInSecLo (ns / 1000000000)

/-- A staged GO takes effect at the commit beat, and every event of that beat sees the stepped time (R382): the captures and
PPS edges of the beat are stamped with it, and its trigger matches may follow the commit (log entry 34). -/
def State.stepCommit (s : State) (v : Word) : State :=
  if fieldOf v 1 0 = 3 then s
  else
    let t := (s.stepNow (fieldOf v 1 0) s.stepSec (s.fget Reg.tmbStepNs 29 0)).restamp
    { t with order := min t.order 6 }

/-- TIME_STEP_SET (R382): GO with MODE 0. -/
def execTimeStepSet (who : Initiator) (s : State) : Out :=
  .next (s.softWrite who Reg.tmbStepGo 0 fun s v => s.stepGo v)

/-- TIME_STEP_ADD (R382): GO with MODE 1. -/
def execTimeStepAdd (who : Initiator) (s : State) : Out :=
  .next (s.softWrite who Reg.tmbStepGo 1 fun s v => s.stepGo v)

/-- TIME_STEP_SUBTRACT (R382): GO with MODE 2. -/
def execTimeStepSubtract (who : Initiator) (s : State) : Out :=
  .next (s.softWrite who Reg.tmbStepGo 2 fun s v => s.stepGo v)

/-- Every step due in this beat takes effect, in the order of their writes (R700). No event of the beat acts before it. -/
def State.stepsApply (s : State) : State :=
  let due := s.tmb.steps.filter fun r => r.due = s.beat
  let rest := s.tmb.steps.filter fun r => r.due ≠ s.beat
  due.foldl (fun t r => t.stepNow r.mode r.sec r.ns) { s with tmb := { s.tmb with steps := rest } }

/-- TIME_STEP_APPLY (R382, R700). -/
def execTimeStepApply (s : State) : Out := .next s.stepsApply

/-- EVT_LOCK_LOSS (R384): `reference` says whether the time-base reference is still present. -/
def execEvtLockLoss (reference : Bool) (s : State) : Out :=
  .next { s.bput Reg.tmbStatus 0 false with tmb := { s.tmb with stopped := !reference } }

/-- EVT_LOCK_REGAIN (R384): the beat count and the time base go on from where they stood. -/
def execEvtLockRegain (s : State) : Out :=
  .next { s.bput Reg.tmbStatus 0 true with tmb := { s.tmb with stopped := false } }

/-! ### PPS (R386) -/

/-- Does the time base read a whole second within this beat. -/
def State.secondInBeat (s : State) : Bool :=
  let u := 1000000000 * nsUnits
  decide (ceilDiv s.timeUnits u * u < s.timeUnits + s.increment)

/-- PPS_OUT_PULSE (R386). -/
def execPpsOutPulse (s : State) : Out :=
  .next <|
    if s.beating && s.bit Reg.tmbPpsCfg 0 && s.secondInBeat then
      { s with tmb := { s.tmb with ppsHigh := some s.beat } }
    else s

/-- PPS_OUT_PULSE_END (R386): OUT_WIDTH_US after the rise; 0 acts as 1. -/
def execPpsOutPulseEnd (s : State) : Out :=
  .next <|
    match s.tmb.ppsHigh with
    | none => s
    | some b =>
      if b + beatsPerUs * max 1 (s.fget Reg.tmbPpsCfg 23 8) ≤ s.beat then
        { s with tmb := { s.tmb with ppsHigh := none } }
      else s

/-- PPS_IN_EDGE (R386): an edge `after` units of 2^-45 ns into the beat. -/
def execPpsInEdge (falling : Bool) (after : Nat) (s : State) : Out :=
  .next <|
    if s.beating && s.placeOpen 5 && s.bit Reg.tmbPpsCfg 1 && s.bit Reg.tmbPpsCfg 2 == falling then
      let t := s.stampNs after
      let s := { s.atPlace 5 with tmb := { s.tmb with ppsIn := some after } }
      s.markTouched <|
        (((s.rset Reg.tmbPpsInNs (toWord (t % 1000000000))).set64 Reg.tmbPpsInSecLo (t / 1000000000)).bump
          Reg.tmbPpsInCount 1).flag Reg.tmbStatus 7
    else s

/-! ### Triggers -/

/-- Trigger n beside its registers. -/
def State.trig (s : State) (n : Nat) : Trig := spGet (fun _ => Trig.idle) s.tmb.trigs n

/-- Give trigger n a new hidden part. -/
def State.putTrig (s : State) (n : Nat) (t : Trig) : State :=
  { s with tmb := { s.tmb with trigs := spSet (fun _ => Trig.idle) s.tmb.trigs n t } }

/-- Set TARGET, in ns, with its registers. A lower word that waits for TGT_SEC_HI keeps what was written (R9). -/
def State.putTarget (s : State) (n ns : Nat) : State :=
  let x := s.trig n
  let s := if x.heldNs then s else s.rset (Reg.tmbTrgTgtNs n) (toWord (ns % 1000000000))
  let s := if x.heldLo then s else s.rset (Reg.tmbTrgTgtSecLo n) (toWord (ns / 1000000000))
  (s.rset (Reg.tmbTrgTgtSecHi n) (toWord (ns / 1000000000 / 2 ^ 32))).putTrig n { x with target := ns }

/-- A write of TMB_TRGn_TGT_NS or TMB_TRGn_TGT_SEC_LO, which waits for TGT_SEC_HI (R9). -/
def State.trgLowWrite (s : State) (n r : Nat) (v : Word) : State :=
  if r = 4 then (s.putRw (Reg.tmbTrgTgtNs n) v).putTrig n { s.trig n with heldNs := true }
  else (s.putRw (Reg.tmbTrgTgtSecLo n) v).putTrig n { s.trig n with heldLo := true }

/-- A trigger sets MISSED (R391, R392). -/
def State.trigMissed (s : State) (n : Nat) : State :=
  (s.flag (Reg.tmbTrgStatus n) 2).flag Reg.tmbStatus 4

/-- A trigger is not armed: MODE reads 0. -/
def State.trigOff (s : State) (n : Nat) : State :=
  (s.fset (Reg.tmbTrgCfg n) 2 0 0).bput (Reg.tmbTrgStatus n) 0 false

/-- MODE of trigger n; 5 to 7 act as 0. -/
def State.trigMode (s : State) (n : Nat) : Nat :=
  if s.fget (Reg.tmbTrgCfg n) 2 0 ≤ 4 then s.fget (Reg.tmbTrgCfg n) 2 0 else 0

/-- Does the trigger meet the conditions of its mode (R391). -/
def State.trigValid (s : State) (n : Nat) : Bool :=
  let mode := s.trigMode n
  let width := (s.rget (Reg.tmbTrgWidth n)).toNat
  let period := (s.rget (Reg.tmbTrgPeriod n)).toNat
  (decide (mode ≠ 1 ∧ mode ≠ 2) || decide (8 ≤ width)) &&
  (decide (mode ≠ 2) || decide (width + 8 ≤ period)) &&
  (decide (mode ≠ 2) || !s.bit (Reg.tmbTrgCfg n) 6 || decide (1 ≤ (s.rget (Reg.tmbTrgCount n)).toNat))

/-- Advance TARGET by whole periods to the first value at or after `floor` (in units): the new TARGET and the number
of periods. -/
def advanceTarget (target period floor : Nat) : Nat × Nat :=
  if floor ≤ target * nsUnits then (target, 0)
  else
    let k := ceilDiv (floor - target * nsUnits) (max 1 period * nsUnits)
    (target + k * period, k)

/-- Count skipped pulses (R392): MISSED counts them, COUNT falls with COUNT_EN. -/
def State.trigSkip (s : State) (n k : Nat) : State :=
  let s := (s.count (Reg.tmbTrgMissed n) k).trigMissed n
  if s.bit (Reg.tmbTrgCfg n) 6 then
    s.rset (Reg.tmbTrgCount n) (toWord ((s.rget (Reg.tmbTrgCount n)).toNat - k))
  else s

/-- A TARGET before T(b) at arming, or at a new TARGET (R392, R703). -/
def State.trigPast (s : State) (n : Nat) : State :=
  if s.trigMode n ≠ 2 then (s.trigOff n).trigMissed n
  else
    let (t, k) := advanceTarget (s.trig n).target (s.rget (Reg.tmbTrgPeriod n)).toNat s.timeUnits
    let s := (s.trigSkip n k).putTarget n t
    if s.bit (Reg.tmbTrgCfg n) 6 && s.rget (Reg.tmbTrgCount n) = 0 then s.trigOff n
    else s.bput (Reg.tmbTrgStatus n) 0 true

/-- Arm trigger n in this beat (R390 to R392). -/
def State.trigArm (s : State) (n : Nat) : State :=
  let s := s.putTrig n { s.trig n with armBeat := s.beat }
  if !s.trigValid n then (s.trigOff n).trigMissed n
  else if (s.trig n).target * nsUnits < s.timeUnits then s.trigPast n
  else s.bput (Reg.tmbTrgStatus n) 0 true

/-- A write of TMB_TRGn_CFG (R390): a nonzero MODE arms, MODE 0 disarms. -/
def State.trgCfgWrite (s : State) (n : Nat) (v : Word) : State :=
  let s := s.putRw (Reg.tmbTrgCfg n) v
  if s.trigMode n = 0 then s.bput (Reg.tmbTrgStatus n) 0 false else s.trigArm n

/-- A write of TMB_TRGn_TGT_SEC_HI applies TARGET (R9, R703). -/
def State.trgTargetWrite (s : State) (n : Nat) (v : Word) : State :=
  let s := s.rset (Reg.tmbTrgTgtSecHi n) v
  let t := s.get64 (Reg.tmbTrgTgtSecLo n) * 1000000000 + s.fget (Reg.tmbTrgTgtNs n) 29 0
  let s := s.putTrig n { s.trig n with target := t, armBeat := s.beat, heldNs := false, heldLo := false }
  if s.bit (Reg.tmbTrgStatus n) 0 && decide (t * nsUnits < s.timeUnits) then s.trigPast n else s

/-- The word of a trigger configuration with its MODE. -/
def trgWord (cfg : Word) (mode : Nat) : Word := withField cfg 2 0 mode

/-- A write of TMB_TRGn_CFG with the row's MODE. -/
def trgCfgCommand (who : Initiator) (n mode : Nat) (cfg : Word) (s : State) : Out :=
  s.named (decide (n < 16)) <|
    s.softWrite who (Reg.tmbTrgCfg n) (trgWord cfg mode) fun s v => s.trgCfgWrite n v

/-- TRIGGER_ARM_SINGLE (R390). -/
def execTriggerArmSingle (who : Initiator) (n : Nat) (cfg : Word) (s : State) : Out :=
  trgCfgCommand who n 1 cfg s

/-- TRIGGER_ARM_PERIODIC (R392). -/
def execTriggerArmPeriodic (who : Initiator) (n : Nat) (cfg : Word) (s : State) : Out :=
  trgCfgCommand who n 2 cfg s

/-- TRIGGER_ARM_SET (R390). -/
def execTriggerArmSet (who : Initiator) (n : Nat) (cfg : Word) (s : State) : Out :=
  trgCfgCommand who n 3 cfg s

/-- TRIGGER_ARM_CLEAR (R390). -/
def execTriggerArmClear (who : Initiator) (n : Nat) (cfg : Word) (s : State) : Out :=
  trgCfgCommand who n 4 cfg s

/-- TRIGGER_DISARM (R390). -/
def execTriggerDisarm (who : Initiator) (n : Nat) (cfg : Word) (s : State) : Out :=
  trgCfgCommand who n 0 cfg s

/-- TRIGGER_TARGET_WRITE (R703). -/
def execTriggerTargetWrite (who : Initiator) (n : Nat) (value : Word) (s : State) : Out :=
  s.named (decide (n < 16)) <|
    s.softWrite who (Reg.tmbTrgTgtSecHi n) value fun s v => s.trgTargetWrite n v

/-- Does trigger n match in this beat (R390, R393): armed in an earlier beat, and TARGET before T(b + 1); at its place among
the events of the beat (R387). -/
def State.trigMatches (s : State) (n : Nat) : Bool :=
  s.beating && s.placeOpen 6 && decide (n < 16) && s.bit (Reg.tmbTrgStatus n) 0 && decide ((s.trig n).armBeat ≠ s.beat) &&
    decide ((s.trig n).target * nsUnits < s.timeUnits + s.increment)

/-- A late match: TARGET lies before T(b) (R393). -/
def State.trigLate (s : State) (n : Nat) : Bool := decide ((s.trig n).target * nsUnits < s.timeUnits)

/-- The instant of the active edge in ns of the time base (R391, R393). -/
def State.trigEdge (s : State) (n : Nat) : Nat :=
  (if s.trigLate n then s.timeNs else (s.trig n).target) + 4

/-- The instant of the active edge in ns of CLK_EVT, 8 ns to a beat (R391): as far into the beat as TARGET is, a late match at
its start, and 4 ns later at the pin. -/
def State.trigEdgeEvt (s : State) (n : Nat) : Nat :=
  8 * s.beat + (if s.trigLate n then 0 else min 7 ((s.trig n).target - s.timeNs)) + 4

/-- The output of a match (R390). A pulse of MODE 1 or 2 ends WIDTH ns after its active edge (R391). -/
def State.trigDrive (s : State) (n : Nat) : State :=
  let mode := s.trigMode n
  let s := s.putTrig n { s.trig n with
    pulse := if mode ≤ 2 then some (s.trigEdgeEvt n + (s.rget (Reg.tmbTrgWidth n)).toNat) else (s.trig n).pulse
    edges := s.trigEdge n :: (s.trig n).edges }
  s.bput (Reg.tmbTrgStatus n) 1 (decide (mode ≠ 4))

/-- A PERIODIC trigger after its match: TARGET, COUNT and skipped pulses (R390, R393). -/
def State.trigNext (s : State) (n : Nat) : State :=
  let period := (s.rget (Reg.tmbTrgPeriod n)).toNat
  let late := s.trigLate n
  let s' := s.putTarget n ((s.trig n).target + period)
  let s' := if s.bit (Reg.tmbTrgCfg n) 6 then
      s'.rset (Reg.tmbTrgCount n) (toWord ((s.rget (Reg.tmbTrgCount n)).toNat - 1)) else s'
  let s' :=
    if late then
      let (t, k) := advanceTarget (s'.trig n).target period (s.timeUnits + s.increment)
      if k = 0 then s' else (s'.trigSkip n k).putTarget n t
    else s'
  if s'.bit (Reg.tmbTrgCfg n) 6 && s'.rget (Reg.tmbTrgCount n) = 0 then s'.trigOff n else s'

/-- The match of trigger n (R390, R393, R394). -/
def State.trigMatch (s : State) (n : Nat) : State :=
  let late := s.trigLate n
  let s' := (s.atPlace 6).trigDrive n
  let s' := if s.trigMode n = 2 then s'.trigNext n else s'.trigOff n
  let s' := (s'.flag (Reg.tmbTrgStatus n) 4).bump (Reg.tmbTrgMatches n) 1
  let s' := if late then (s'.flag (Reg.tmbTrgStatus n) 3).flag Reg.tmbStatus 5 else s'
  let s' := s.markTouched s'
  let s' := if s.trigMode n = 2 then
      ((s'.touch (Reg.tmbTrgTgtNs n)).touch (Reg.tmbTrgTgtSecLo n)).touch (Reg.tmbTrgTgtSecHi n) else s'
  if s.bit (Reg.tmbTrgCfg n) 5 then s'.bklAdd .timebase (s.fget (Reg.tmbTrgBkl n) 13 0) 1 else s'

/-- TRIGGER_PULSE_END (R391): the inactive edge of a pulse, in the beat that holds its instant. -/
def execTriggerPulseEnd (n : Nat) (s : State) : Out :=
  .next <|
    if n < 16 ∧ s.beating ∧ ((s.trig n).pulse.any fun e => decide (e / 8 = s.beat)) then
      s.markTouched ((s.putTrig n { s.trig n with pulse := none }).bput (Reg.tmbTrgStatus n) 1 false)
    else s

/-- The level of TRIG_OUT[n], where the pin is driven (R390). -/
def State.trigPin (s : State) (n : Nat) : Option Bool :=
  if s.bit (Reg.tmbTrgCfg n) 3 then
    some (s.bit (Reg.tmbTrgStatus n) 1 != s.bit (Reg.tmbTrgCfg n) 4)
  else none

/-! ### Captures -/

/-- Capture input n beside its registers. -/
def State.capture (s : State) (n : Nat) : Capture := spGet (fun _ => Capture.idle) s.tmb.caps n

/-- Give capture input n a new hidden part. -/
def State.putCapture (s : State) (n : Nat) (c : Capture) : State :=
  { s with tmb := { s.tmb with caps := spSet (fun _ => Capture.idle) s.tmb.caps n c } }

/-- The head registers and DEPTH follow the queue (R395). -/
def State.showCapture (s : State) (n : Nat) : State :=
  let q := (s.capture n).queue
  let s := s.fset (Reg.tmbCapStatus n) 4 0 q.length
  match q with
  | [] => ((s.rset (Reg.tmbCapHeadNs n) 0).rset (Reg.tmbCapHeadSecLo n) 0).rset (Reg.tmbCapHeadSecHi n) 0
  | x :: _ =>
    (s.rset (Reg.tmbCapHeadNs n) (toWord (x.ns % 1000000000 + 2 ^ 30 * b2n x.falling + 2 ^ 31))).set64
      (Reg.tmbCapHeadSecLo n) (x.ns / 1000000000)

/-- Does EDGE select this kind of edge, on an enabled input (R395). -/
def State.captureSelects (s : State) (n : Nat) (falling : Bool) : Bool :=
  s.bit (Reg.tmbCapCfg n) 0 && (if falling then s.bit (Reg.tmbCapCfg n) 2 else s.bit (Reg.tmbCapCfg n) 1)

/-- An edge is lost (R396). -/
def State.captureLost (s : State) (n : Nat) : State :=
  ((s.count (Reg.tmbCapLost n) 1).flag (Reg.tmbCapStatus n) 5).flag Reg.tmbStatus 6

/-- Is an edge of this kind stamped in this beat already, or the queue full with the stamps on their way (R396). -/
def State.captureFull (s : State) (n : Nat) (falling : Bool) : Bool :=
  let c := s.capture n
  decide ((if falling then c.lastFall else c.lastRise) = some s.beat) ||
    decide (16 ≤ c.queue.length + c.flight.length)

/-- A selected edge of capture input n: stamped for the end of beat c + 2, or lost (R395 to R397). -/
def State.captureEdge (s : State) (n : Nat) (falling : Bool) (after : Nat) : State :=
  if s.captureFull n falling then s.markTouched (s.captureLost n)
  else
    let c := s.capture n
    let c := { c with flight := c.flight ++ [(Stamp.mk (s.stampNs after) falling after, s.beat + 2)] }
    s.putCapture n (if falling then { c with lastFall := some s.beat } else { c with lastRise := some s.beat })

/-- CAPTURE_ENQUEUE (R397): the stamps due at the end of this beat enter the queue; each adds 1 to the buckle. -/
def execCaptureEnqueue (n : Nat) (s : State) : Out :=
  .next <|
    let c := s.capture n
    let due := c.flight.filter fun f => f.2 ≤ s.beat
    if n < 16 ∧ due ≠ [] then
      let s := s.markTouched <| (s.putCapture n { c with
        queue := c.queue ++ due.map (·.1), flight := c.flight.filter fun f => ¬ f.2 ≤ s.beat }).showCapture n
      if s.bit (Reg.tmbCapCfg n) 3 then
        s.bklAdd .timebase (s.fget (Reg.tmbCapCfg n) 29 16) (toWord due.length)
      else s
    else s

/-- A write of TMB_CAPn_POP (R395). -/
def State.capturePop (s : State) (n : Nat) (v : Word) : State :=
  if bitOf v 0 then
    (s.putCapture n { s.capture n with queue := (s.capture n).queue.tail }).showCapture n
  else s

/-- CAPTURE_POP (R395). -/
def execCapturePop (who : Initiator) (n : Nat) (s : State) : Out :=
  s.named (decide (n < 16)) <|
    s.softWrite who (Reg.tmbCapPop n) 1 fun s v => s.capturePop n v

/-- The write rule of the TMB_ block. -/
def State.tmbWrite (s : State) (o : Nat) (v : Word) : State :=
  let n := o % 0x1000 / 0x40
  if o = 0x2C then s.rateWrite v
  else if o = 0x3C then s.stepGo v
  else if 0x1000 ≤ o ∧ o < 0x1400 ∧ o % 0x40 = 0 then s.trgCfgWrite n v
  else if 0x1000 ≤ o ∧ o < 0x1400 ∧ (o % 0x40 = 4 ∨ o % 0x40 = 8) then s.trgLowWrite n (o % 0x40) v
  else if 0x1000 ≤ o ∧ o < 0x1400 ∧ o % 0x40 = 0x0C then s.trgTargetWrite n v
  else if 0x2000 ≤ o ∧ o < 0x2200 ∧ o % 0x20 = 0x10 then s.capturePop ((o - 0x2000) / 0x20) v
  else s.putTyped (0x10100000 + o) v 0

end Sys2Proof.Machine
end

