-- ==== Sys2Proof/Machine/Ingress.lean ====
section
/-!
DEFINITION. Machine/Ingress.lean: sensor ingress and the frame conditioner (R398 to R410), and the range-point copy
into Cinch SRAM (R554, R555).
-/

namespace Sys2Proof.Machine

/-! ### Streams -/

/-- Stream n beside its registers. -/
def State.stream (s : State) (n : Nat) : StreamRun := spGet (fun _ => StreamRun.idle) s.ing.streams n

/-- Give stream n a new hidden part. -/
def State.putStream (s : State) (n : Nat) (r : StreamRun) : State :=
  { s with ing := { s.ing with streams := spSet (fun _ => StreamRun.idle) s.ing.streams n r } }

/-- Fields of ING_STRn_CFG. -/
def State.strType (s : State) (n : Nat) : Nat := s.fget (Reg.ingStrCfg n) 3 1
def State.strCond (s : State) (n : Nat) : Bool := s.bit (Reg.ingStrCfg n) 4 && decide (s.strType n = 0)
def State.strState (s : State) (n : Nat) : Nat := s.fget (Reg.ingStrStatus n) 1 0
def State.nbuf (s : State) (n : Nat) : Nat := s.fget (Reg.ingStrCfg n) 19 16 + 1

/-- RELEASE (R400): the register, or the release buckle. -/
def State.release (s : State) (n : Nat) : Word :=
  if s.bit (Reg.ingStrCfg n) 14 then s.buckle (s.fget (Reg.ingStrBkl n) 29 16) else s.rget (Reg.ingStrRelease n)

/-- SEQ that the next frame to start will have when every frame before it is delivered. -/
def State.nextSeq (s : State) (n : Nat) : Word :=
  s.rget (Reg.ingStrSeq n) + toWord ((s.stream n).done.length +
    (match s.ing.cond with | some (k, _) => b2n (k == n) | none => 0))

/-- Is a buffer free for the next frame (R400, R402, R682): a buffer of the delivered ring, and for a conditioned
stream one of the raw ring too. -/
def State.bufferFree (s : State) (n : Nat) : Bool :=
  (s.mainOn || !s.bit (Reg.ingStrCfg n) 14) &&
  decide ((s.nextSeq n - s.release n).toNat < s.nbuf n) &&
  (!s.strCond n ||
    decide ((s.stream n).done.length + (match s.ing.cond with | some (k, _) => b2n (k == n) | none => 0) <
      s.nbuf n))

/-- Base address of buffer `i` of the BUF ring. -/
def State.bufAddr (s : State) (n i : Nat) : Nat :=
  s.get64 (Reg.ingStrBufLo n) + i * (s.fget (Reg.ingStrBufSize n) 15 0 * 4096)

/-- Base address of buffer `i` of the OUT ring. -/
def State.outAddr (s : State) (n i : Nat) : Nat :=
  s.get64 (Reg.ingStrOutLo n) + i * (s.fget (Reg.ingStrOutSize n) 15 0 * 4096)

/-- A frame is lost (R402): it counts and is reported in the next record. -/
def State.frameDrop (s : State) (n : Nat) : State :=
  let s := ((s.count (Reg.ingStrDropCount n) 1).flag (Reg.ingStrStatus n) 5).flag Reg.ingStatus 5
  s.putStream n { s.stream n with dropped := (s.stream n).dropped + 1 }

/-- A faulty frame is discarded (R403). -/
def State.frameError (s : State) (n : Nat) : State :=
  let s := ((s.count (Reg.ingStrErrCount n) 1).flag (Reg.ingStrStatus n) 4).flag Reg.ingStatus 4
  s.putStream n { s.stream n with dropped := (s.stream n).dropped + 1 }

/-- Ingress is DRAINED when every stream is OFF (R405). -/
def State.settleIngress (s : State) : State :=
  if s.fget Reg.ingStatus 1 0 = 2 && (List.range 40).all (fun n => s.strState n = 0) then
    (s.fset Reg.ingStatus 1 0 3).flag Reg.ingStatus 6
  else s

/-- A FINISHING stream with no frame and no SPI read left enters OFF (R405). -/
def State.settleStream (s : State) (n : Nat) : State :=
  let r := s.stream n
  let live := match r.open? with | some f => !f.dead | none => false
  if s.strState n = 2 && !live && r.done.isEmpty && r.spiStarts.isEmpty && (s.ing.cond.all fun c => c.1 ≠ n) then
    (((s.fset (Reg.ingStrStatus n) 1 0 0).flag (Reg.ingStrStatus n) 6).putStream n StreamRun.idle).settleIngress
  else s

/-- The edge time of the linked trigger's last match at or before the frame stamp (R399). -/
def State.linkedEdge (s : State) (n stamp : Nat) : Option Nat :=
  if s.bit (Reg.ingStrCfg n) 9 then
    (s.trig (s.fget (Reg.ingStrCfg n) 13 10)).edges.find? fun e => decide (e ≤ stamp)
  else none

/-- The beat in which the time base read this instant, in ns, at its present rate (R399). -/
def State.beatOf (s : State) (ns : Nat) : Nat :=
  if s.timeUnits ≤ ns * nsUnits then s.beat else s.beat - ceilDiv (s.timeUnits - ns * nsUnits) s.increment

/-- A new frame opens in its buffer, or with none free keeps the place of its units (R399, R402). -/
def State.frameOpen (s : State) (n stamp beat : Nat) (free : Bool) : State :=
  let r := s.stream n
  let i := if s.strCond n then r.rawNext % s.nbuf n else (s.nextSeq n).toNat % s.nbuf n
  s.putStream n { r with
    open? := some { startNs := stamp, startBeat := beat, lastNs := stamp, lastBeat := s.beat, units := 0, errUnits := 0, bytes := 0,
                    incomplete := false, trig := s.linkedEdge n stamp, dead := !free, index := i, doneBeat := 0 } }

/-- A new frame starts: with no buffer free it is lost (R402). -/
def State.frameStart (s : State) (n stamp beat : Nat) : State :=
  let free := s.bufferFree n
  (if free then s else s.frameDrop n).frameOpen n stamp beat free

/-- The open frame of stream n is discarded; `keep` keeps the place of its remaining units. -/
def State.frameDiscard (s : State) (n : Nat) (keep : Bool) : State :=
  match (s.stream n).open? with
  | none => s
  | some f =>
    let s := if f.dead then s else s.frameError n
    (s.putStream n { s.stream n with open? := if keep then some { f with dead := true } else none }).settleStream n

/-- The open frame is complete. -/
def State.frameDone (s : State) (n : Nat) (f : RawFrame) : State :=
  let r := s.stream n
  if f.dead then (s.putStream n { r with open? := none }).settleStream n
  else
    s.putStream n { r with open? := none, done := r.done ++ [{ f with doneBeat := s.beat }],
                           rawNext := if s.strCond n then r.rawNext + 1 else r.rawNext }

/-- Store bytes of the open frame at an offset of its buffer; a frame larger than the buffer and a refused write
discard it (R403). -/
def State.frameStore (s : State) (n : Nat) (f : RawFrame) (off : Nat) (bs : List Byte) : State × Bool :=
  if f.dead then (s, true)
  else if s.fget (Reg.ingStrBufSize n) 15 0 * 4096 < off + bs.length then (s, false)
  else s.engineStore .ingress (s.bufAddr n f.index + off) bs

/-! ### Cameras -/

/-- Bytes of one line (R398). -/
def lineBytes (dt width : Nat) : Nat :=
  if dt = 0x2A then width
  else if dt = 0x2B then 5 * width / 4
  else if dt = 0x2C then 3 * width / 2
  else if dt = 0x2D then 7 * width / 4
  else 2 * width

/-- The camera streams that are not OFF on a port's virtual channel. -/
def State.cameras (s : State) (port vc : Nat) : List Nat :=
  (List.range 40).filter fun n =>
    s.bit (Reg.ethCsiCfg port) 8 && s.strState n ≠ 0 && decide (s.strType n = 0 ∧
      s.fget (Reg.ingStrSrc n) 2 0 = port ∧ s.fget (Reg.ingStrSrc n) 5 4 = vc)

/-- Frame Start for one stream: an open frame is discarded (R403); a FINISHING stream accepts no new frame. -/
def State.csiStart (s : State) (n : Nat) : State :=
  let s := s.frameDiscard n false
  if s.strState n = 1 then s.frameStart n s.timeNs s.beat else s

/-- CSI2_FRAME_START (R398): the stamp is T(b), truncated to ns. Without a beat nothing is stamped (R381, R384). -/
def execCsi2FrameStart (port vc : Nat) (s : State) : Out :=
  .next (if s.beating then (s.cameras port vc).foldl State.csiStart s else s)

/-- The data types that camera streams accept (R398): RAW8, RAW10, RAW12, RAW14 and YUV422. -/
def cameraTypes : List Nat := [0x2A, 0x2B, 0x2C, 0x2D, 0x1E]

/-- One line of the open frame of stream n (R398, R403). -/
def State.csiLine (s : State) (n : Nat) (payload : List Byte) (crcOk : Bool) : State :=
  match (s.stream n).open? with
  | none => s
  | some f =>
    let len := lineBytes (s.fget (Reg.ingStrSrc n) 13 8) (s.fget (Reg.ingStrGeom n) 15 0)
    if !f.dead && (payload.length ≠ len || decide (s.fget (Reg.ingStrGeom n) 31 16 ≤ f.units)) then
      s.frameDiscard n true
    else
      let (s, ok) := s.frameStore n f (f.units * (ceilDiv len 64 * 64)) payload
      if !ok then s.frameDiscard n true
      else
        s.putStream n { s.stream n with open? := some { f with
          units := f.units + 1, errUnits := f.errUnits + b2n (!crcOk), bytes := f.bytes + payload.length,
          lastNs := s.timeNs } }

/-- CSI2_LINE (R403): a header with an uncorrectable error discards the open frames of its virtual channel. -/
def execCsi2Line (port vc dt : Nat) (payload : List Byte) (crcOk headerOk : Bool) (s : State) : Out :=
  let s := if s.bit (Reg.ethCsiCfg port) 8 && !(crcOk && headerOk) then s.count (Reg.ethCsiErrCount port) 1 else s
  .next <| (s.cameras port vc).foldl (fun s n =>
    if !headerOk then s.frameDiscard n true
    else if s.fget (Reg.ingStrSrc n) 13 8 = dt ∧ dt ∈ cameraTypes then s.csiLine n payload crcOk
    else s) s

/-- Frame End for one stream: the line count must be HEIGHT (R403). -/
def State.csiEnd (s : State) (n : Nat) : State :=
  match (s.stream n).open? with
  | none => s
  | some f =>
    if f.dead || f.units = s.fget (Reg.ingStrGeom n) 31 16 then s.frameDone n f else s.frameDiscard n false

/-- CSI2_FRAME_END (R398). -/
def execCsi2FrameEnd (port vc : Nat) (s : State) : Out :=
  .next ((s.cameras port vc).foldl State.csiEnd s)

/-- CAMERA_TIMEOUT_EXPIRY (R403): TIMEOUT_US after Frame Start; 0 acts as 1. -/
def execCameraTimeoutExpiry (n : Nat) (s : State) : Out :=
  .next <|
    match (s.stream n).open? with
    | none => s
    | some f =>
      if n < 40 ∧ s.strType n = 0 ∧
          f.startBeat + beatsPerUs * max 1 (s.fget (Reg.ingStrAux n) 23 0) ≤ s.beat then
        s.frameDiscard n false
      else s

/-! ### Unit records -/

/-- A unit record: a 16-byte header and the payload, padded to 16 B (R398). -/
def unitRecord (ns last : Nat) (payload : List Byte) : List Byte :=
  natToBytes 4 (ns % 1000000000) ++ natToBytes 4 (ns / 1000000000) ++ natToBytes 4 payload.length ++
    natToBytes 4 last ++ payload ++ List.replicate (ceilDiv payload.length 16 * 16 - payload.length) 0

/-- Add a unit record to the open frame; `need` units complete it. -/
def State.addUnit (s : State) (n : Nat) (f : RawFrame) (ns need : Nat) (payload : List Byte) : State :=
  let rec_ := unitRecord ns 0 payload
  let (s, ok) := s.frameStore n f f.bytes rec_
  let (s, f) := if ok then (s, f) else (s.frameError n, { f with dead := true })
  let f := { f with units := f.units + 1, bytes := f.bytes + rec_.length, lastNs := ns, lastBeat := s.beat }
  if need ≤ f.units then s.frameDone n f
  else (s.putStream n { s.stream n with open? := some f }).settleStream n

/-- The grid engine takes a record that arrives between the frame's start and its close (R556). -/
def State.gridTake (s : State) (rec_ : List Byte) : State :=
  match s.cin.frameStart with
  | none => s
  | some b =>
    if s.bit Reg.cinGridCfg 0 && decide (s.beat < b + 12500 * s.fget Reg.cinGridCfg 31 20) then
      { s with cin := { s.cin with gridRecs := s.cin.gridRecs ++ [rec_] } }
    else s

/-- The range-point copy of a unit record (R404, R554, R555): written whole at RP_WR, or dropped whole. An RP_WR outside
the region stands for its start (log entry 18). -/
def State.rangeCopy (s : State) (rec_ : List Byte) : State :=
  let base := s.fget Reg.cinRpBase 19 6 * 64
  let size := s.fget Reg.cinRpSize 19 6 * 64
  let wr0 := s.fget Reg.cinRpWr 19 6 * 64
  let wr := if base ≤ wr0 ∧ wr0 < base + size then wr0 else base
  let rd := s.fget Reg.cinRpRd 19 6 * 64
  let len := ceilDiv rec_.length 64 * 64
  let wraps := base + size < wr + len
  let start := if wraps then base else wr
  let stop := if start + len = base + size then base else start + len
  let room := (rd + size - wr - 1) % size + 1
  let used := (if wraps then base + size - wr else 0) + len
  if size = 0 || size < len || room < used + 64 then
    ((s.bump Reg.cinRpDropCount 1).flag Reg.cinStatus 8).flag Reg.cinGridStatus 1
  else
    let s := if wraps then s.writeBytes (cinchBase + wr) (unitRecord 0 0 []) else s
    ((s.writeBytes (cinchBase + start) rec_).fset Reg.cinRpWr 19 6 (stop / 64)).gridTake rec_

/-- The Ethernet streams that a packet matches (R398): EtherType (0), UDP/IPv4 (1) or UDP/IPv6 (2) with a value. -/
def State.ethStreams (s : State) (port kind value : Nat) : List Nat :=
  (List.range 40).filter fun n =>
    s.strState n ≠ 0 && decide (s.strType n = 1 ∧ s.fget (Reg.ingStrSrc n) 1 0 = port ∧
      s.fget (Reg.ingStrSrc n) 9 8 = kind ∧ s.fget (Reg.ingStrSrc n) 31 16 = value)

/-- One packet of stream n. -/
def State.ethUnit (s : State) (n ns : Nat) (payload : List Byte) : State :=
  let s := if (s.stream n).open?.isNone && s.strState n = 1 then s.frameStart n ns (s.beatOf ns) else s
  match (s.stream n).open? with
  | none => s
  | some f =>
    let s := if s.bit (Reg.ingStrCfg n) 8 then s.rangeCopy (unitRecord ns n payload) else s
    s.addUnit n f ns (s.fget (Reg.ingStrGeom n) 12 0) payload

/-- A packet goes to the lowest stream that it matches (R653). -/
def State.ethPacket (s : State) (port kind value ns : Nat) (payload : List Byte) : State :=
  match s.ethStreams port kind value with
  | [] => s
  | n :: _ => s.ethUnit n ns payload

/-- ETH_STREAM_PACKET (R398, R404): the stamp is that of the packet's start-of-frame delimiter. -/
def execEthStreamPacket (port kind value sec ns : Nat) (payload : List Byte) (s : State) : Out :=
  .next (s.ethPacket port kind value (sec * 1000000000 + ns) payload)

/-- ETH_GAP_EXPIRY (R403): GAP_US after the last packet, with 0 as 1, the frame closes with INCOMPLETE. -/
def execEthGapExpiry (n : Nat) (s : State) : Out :=
  .next <|
    match (s.stream n).open? with
    | none => s
    | some f =>
      if n < 40 ∧ s.strType n = 1 ∧ 1 ≤ f.units ∧
          f.lastBeat + beatsPerUs * max 1 (s.fget (Reg.ingStrAux n) 23 0) ≤ s.beat then s.frameDone n { f with incomplete := true } else s

/-! ### Audio and SPI -/

/-- The audio streams of a source: TDM port 0 or 1, or PDM pair 0 to 3 as 2 to 5. -/
def State.audioStreams (s : State) (source : Nat) : List Nat :=
  (List.range 40).filter fun n =>
    s.strState n ≠ 0 && decide (s.strType n = 2 ∧ s.fget (Reg.ingStrSrc n) 2 0 = source)

/-- The group delay of a PDM filter in ns (R661). -/
def pdmDelay (rate48 : Bool) : Nat := if rate48 then 400000 else 1200000

/-- One sample of every channel of stream n. -/
def State.audioSample (s : State) (n bits stamp time : Nat) (slots : List Nat) : State :=
  let s := if (s.stream n).open?.isNone && s.strState n = 1 then s.frameStart n stamp (s.beatOf stamp) else s
  match (s.stream n).open? with
  | none => s
  | some f =>
    let nch := s.fget (Reg.ingStrSrc n) 11 8 + 1
    let first := s.fget (Reg.ingStrSrc n) 19 16
    let bs := ((List.range nch).map fun c =>
      natToBytes 4 (sampleQ31 bits (slots.getD (first + c) 0)).toNat).flatten
    let (s, ok) := s.frameStore n f (4 * nch * f.units) bs
    let (s, f) := if ok then (s, f) else (s.frameError n, { f with dead := true })
    let f := { f with units := f.units + 1, bytes := f.bytes + bs.length, lastNs := time }
    if s.fget (Reg.ingStrGeom n) 15 0 ≤ f.units then s.frameDone n f
    else (s.putStream n { s.stream n with open? := some f }).settleStream n

/-- AUDIO_SAMPLE (R398, R159, R661): `time` is the frame sync edge (TDM) or the instant of the decimated sample. -/
def execAudioSample (source bits time : Nat) (rate48 : Bool) (slots : List Nat) (s : State) : Out :=
  let stamp := if source < 2 then time else time - pdmDelay rate48
  .next <| (s.audioStreams source).foldl (fun s n => s.audioSample n bits stamp time slots) s

/-- TDM_FSYNC_LOSS (R403): frame sync is lost within the open frames of the port. -/
def execTdmFsyncLoss (port : Nat) (s : State) : Out :=
  .next <|
    if port < 2 then (s.audioStreams port).foldl (fun s n => s.frameDiscard n false) s else s

/-- The SPI streams that a trigger match (0) or a capture edge (1) of channel `ch` starts. -/
def State.spiStreams (s : State) (kind ch : Nat) : List Nat :=
  (List.range 40).filter fun n =>
    s.strState n ≠ 0 && decide (s.strType n = 3 ∧ s.fget (Reg.ingStrSrc n) 8 8 = kind ∧
      s.fget (Reg.ingStrSrc n) 13 10 = ch)

/-- Reads of the frame in progress of stream n, done or under way, and frames whose first read is under way. -/
def State.spiReads (s : State) (n : Nat) : Nat :=
  ((s.stream n).open?.map (·.units)).getD 0 + (s.stream n).spiStarts.length

/-- Is a buffer free for the frame that a SPI read begins (R402): after the frame in progress and those whose first reads
are under way. -/
def State.spiFree (s : State) (n : Nat) : Bool :=
  let ahead := ((s.stream n).open?.map fun f => b2n (!f.dead)).getD 0 +
    ((s.stream n).spiStarts.filter fun r => r.free = some true).length
  (s.mainOn || !s.bit (Reg.ingStrCfg n) 14) &&
    decide ((s.nextSeq n + toWord ahead - s.release n).toNat < s.nbuf n)

/-- A read of stream n starts (R398). The first read of a frame starts the frame: with no buffer free the frame is lost
(R402), and a FINISHING stream starts none (R405). -/
def State.spiRead (s : State) (n time : Nat) : State :=
  let first := decide (s.spiReads n % max 1 (s.fget (Reg.ingStrGeom n) 15 0) = 0)
  let free := s.spiFree n
  if first && s.strState n ≠ 1 then s
  else
    let s := if first && !free then s.frameDrop n else s
    let r := s.stream n
    s.putStream n { r with spiStarts := r.spiStarts ++ [⟨time, s.beat, if first then some free else none⟩] }

/-- Start a read of every SPI stream that names this trigger or capture (R398). -/
def State.spiStart (s : State) (kind ch time : Nat) : State :=
  (s.spiStreams kind ch).foldl (fun s n => s.spiRead n time) s

/-- CMD_BYTES bytes of CMD, the least significant first (R398); of CMD's 16 bits there are at most 2. -/
def State.spiCommand (s : State) (n : Nat) : List Byte :=
  natToBytes (min 2 (s.fget (Reg.ingStrAux n) 17 16)) (s.fget (Reg.ingStrAux n) 15 0)

/-- The oldest read of stream n is over: it has sent the command bytes and read these. -/
def State.spiDone (s : State) (n csTime : Nat) (data : List Byte) (r : SpiRead) (rs : List SpiRead) : State :=
  let s := s.putStream n { s.stream n with spiStarts := rs, mosi := s.spiCommand n }
  let s := match (s.stream n).open?, r.free with
    | none, some free => s.frameOpen n r.ns r.beat free
    | _, _ => s
  match (s.stream n).open? with
  | none => s.settleStream n
  | some f => (s.addUnit n f csTime (s.fget (Reg.ingStrGeom n) 15 0) data).settleStream n

/-- SPI_STREAM_READ_DONE (R398, R665): the oldest read of stream n completes; `csTime` is the instant at which its chip
select was asserted. A read has READ_BYTES bytes: other data is none of this stream's. -/
def execSpiStreamReadDone (n csTime : Nat) (data : List Byte) (s : State) : Out :=
  .next <|
    match (s.stream n).spiStarts with
    | [] => s
    | r :: rs =>
      if 40 ≤ n ∨ data.length ≠ s.fget (Reg.ingStrAux n) 30 24 then s else s.spiDone n csTime data r rs

/-- CAPTURE_EDGE (R395 to R398): a selected edge of input n, `after` units of 2^-45 ns into the beat, is stamped, and
starts the SPI streams that name the input. -/
def execCaptureEdge (n : Nat) (falling : Bool) (after : Nat) (s : State) : Out :=
  .next <|
    if s.beating && s.placeOpen 5 && decide (n < 16) && s.captureSelects n falling then
      let s := s.atPlace 5
      if s.captureFull n falling then s.captureEdge n falling after
      else (s.captureEdge n falling after).spiStart 1 n (s.stampNs after)
    else s

/-! ### The conditioner (R407 to R410) -/

/-- Pixel `x` of a raw line as received (the packing of CSI-2; log entry 17). -/
def rawPixel (dt : Nat) (line : List Byte) (x : Nat) : Nat :=
  let byte (i : Nat) : Nat := (line.getD i 0).toNat
  if dt = 0x2A then byte x
  else if dt = 0x2B then
    byte (x / 4 * 5 + x % 4) * 4 + byte (x / 4 * 5 + 4) / 4 ^ (x % 4) % 4
  else if dt = 0x2C then
    byte (x / 2 * 3 + x % 2) * 16 + byte (x / 2 * 3 + 2) / 16 ^ (x % 2) % 16
  else
    let low := byte (x / 4 * 7 + 4) + 256 * byte (x / 4 * 7 + 5) + 65536 * byte (x / 4 * 7 + 6)
    byte (x / 4 * 7 + x % 4) * 64 + low / 64 ^ (x % 4) % 64

/-- The colour of CFA position p (0 R, 1 G, 2 B) in order `bayer` (R407). -/
def cfaColour (bayer p : Nat) : Nat :=
  let order : List Nat := match bayer with
    | 0 => [0, 1, 1, 2]
    | 1 => [1, 0, 2, 1]
    | 2 => [1, 2, 0, 1]
    | _ => [2, 1, 1, 0]
  order.getD p 1

/-- Reflect a coordinate at the frame's edge (R407). -/
def reflect (i : Int) (n : Nat) : Nat := if i < 0 then (-i).toNat else if (n : Int) ≤ i then 2 * n - 2 - i.toNat else i.toNat

/-- The parameters of a conditioner profile. -/
structure Profile where
  cfg : Word
  bl : List Nat
  gain : List Nat
  m : List Nat
  off : List Nat
  deriving DecidableEq, Repr

/-- Profile p as it stands now (R410). -/
def State.profile (s : State) (p : Nat) : Profile where
  cfg := s.rget (Reg.ingCpCfg p)
  bl := (List.range 4).map fun j => s.fget (Reg.ingCpBl p j) 15 0
  gain := (List.range 4).map fun j => (s.rget (Reg.ingCpGain p j)).toNat
  m := (List.range 9).map fun k => (s.rget (Reg.ingCpM p k)).toNat
  off := (List.range 3).map fun i => (s.rget (Reg.ingCpOff p i)).toNat

/-- A frame of pixels, each a list of FP32 channels. -/
abbrev Image := List (List (List Nat))

/-- Channel values of a pixel. -/
def pixelAt (im : Image) (y x : Nat) : List Nat := (im.getD y []).getD x []

/-- Step 1 of R407: black level and gain. -/
def siteValue (p : Profile) (raw : List (List Nat)) (y x : Nat) : Nat :=
  let k := 2 * (y % 2) + x % 2
  fmul (fOfInt ((raw.getD y []).getD x 0 - p.bl.getD k 0 : Nat)) (p.gain.getD k 0)

/-- The 8 neighbours of a pixel in raster order. -/
def neighbours (y x h w : Nat) : List (Nat × Nat) :=
  [((-1 : Int), (-1 : Int)), (-1, 0), (-1, 1), (0, -1), (0, 1), (1, -1), (1, 0), (1, 1)].map fun d =>
    (reflect (y + d.1) h, reflect (x + d.2) w)

/-- Step 2 of R407: the value of colour c at a pixel. -/
def demosaic (p : Profile) (vs : List (List Nat)) (h w y x c : Nat) : Nat :=
  let site (y x : Nat) : Nat := cfaColour (fieldOf p.cfg 13 12) (2 * (y % 2) + x % 2)
  if site y x = c then (vs.getD y []).getD x 0
  else
    let ns := (neighbours y x h w).filter fun q => site q.1 q.2 = c
    match ns.map fun q => (vs.getD q.1 []).getD q.2 0 with
    | [] => 0
    | v :: rest => fmul (rest.foldl fadd v) (if ns.length = 2 then fHalf else fQuarter)

/-- Step 3 of R407. MONO uses M[0] and OFF[0] only. -/
def colourOut (p : Profile) (rgb : List Nat) : List Nat :=
  let chans := if fieldOf p.cfg 11 10 = 1 then 1 else 3
  let m (k : Nat) : Nat := p.m.getD k 0
  (List.range chans).map fun i =>
    if bitOf p.cfg 14 then ffma (m 0) (rgb.getD 0 0) (p.off.getD 0 0)
    else ffma (m (3 * i + 2)) (rgb.getD 2 0) (ffma (m (3 * i + 1)) (rgb.getD 1 0)
      (ffma (m (3 * i)) (rgb.getD 0 0) (p.off.getD i 0)))

/-- Level 0 of a frame (R407). -/
def levelZero (p : Profile) (raw : List (List Nat)) (h w : Nat) : Image :=
  let vs := (List.range h).map fun y => (List.range w).map fun x => siteValue p raw y x
  (List.range h).map fun y => (List.range w).map fun x =>
    colourOut p (if bitOf p.cfg 14 then [(vs.getD y []).getD x 0]
      else (List.range 3).map fun c => demosaic p vs h w y x c)

/-- The next level (R408). -/
def nextLevel (im : Image) : Image :=
  let h := im.length / 2
  let w := (im.headD []).length / 2
  (List.range h).map fun y => (List.range w).map fun x =>
    let a := pixelAt im (2 * y) (2 * x)
    let b := pixelAt im (2 * y) (2 * x + 1)
    let c := pixelAt im (2 * y + 1) (2 * x)
    let d := pixelAt im (2 * y + 1) (2 * x + 1)
    (List.range a.length).map fun i =>
      fmul (fadd (fadd (a.getD i 0) (b.getD i 0)) (fadd (c.getD i 0) (d.getD i 0))) fQuarter

/-- The first n levels. -/
def levelsOf : Nat → Image → List Image
  | 0, _ => []
  | n + 1, im => im :: levelsOf n (nextLevel im)

/-- Pad bytes to a multiple of k. -/
def padTo (k : Nat) (bs : List Byte) : List Byte := bs ++ List.replicate (ceilDiv bs.length k * k - bs.length) 0

/-- The bytes of one level (R408, R409). -/
def levelBytes (p : Profile) (im : Image) : List Byte :=
  let code := fieldOf p.cfg 7 4
  let s := 2 ^ min 2 (fieldOf p.cfg 9 8)
  let h := im.length / s
  let w := (im.headD []).length / s
  let elem (c : Nat) : Nat := match fmtOf code with
    | some f => (f.encode (f32 c) .nearest true).1
    | none => 0
  padTo 64 <| ((List.range h).map fun y => padTo 64 <| ((List.range w).map fun x =>
    padTo 16 <| packElems (fmtBits code) <| ((List.range s).map fun dy => ((List.range s).map fun dx =>
      (pixelAt im (s * y + dy) (s * x + dx)).map elem).flatten).flatten).flatten).flatten

/-- The pyramid of a raw frame (R407 to R409). -/
def pyramid (p : Profile) (raw : List (List Nat)) (h w : Nat) : List Byte :=
  ((levelsOf (fieldOf p.cfg 1 0 + 1) (levelZero p raw h w)).map (levelBytes p)).flatten

/-- The raw lines of a frame in its buffer; none: a read failed (R67). -/
def State.rawLines (s : State) (n : Nat) (f : RawFrame) : State × Option (List (List Nat)) :=
  let dt := s.fget (Reg.ingStrSrc n) 13 8
  let w := s.fget (Reg.ingStrGeom n) 15 0
  let len := lineBytes dt w
  (List.range (s.fget (Reg.ingStrGeom n) 31 16)).foldl (fun (acc : State × Option (List (List Nat))) y =>
    match acc.1.engineLoad (s.bufAddr n f.index + y * (ceilDiv len 64 * 64)) len, acc.2 with
    | (t, some bs), some ls => (t, some (ls ++ [(List.range w).map (rawPixel dt bs)]))
    | (t, _), _ => (t, none)) (s, some [])

/-- The completed raw frame that the conditioner takes next: the oldest, ties by stream number (R410). -/
def State.nextRaw (s : State) : Option Nat :=
  ((List.range 40).filter fun n => s.strCond n && !(s.stream n).done.isEmpty).foldl (fun best n =>
    let at_ (k : Nat) : Nat := ((s.stream k).done.head?.map (·.doneBeat)).getD 0
    match best with
    | none => some n
    | some b => if at_ n < at_ b then some n else some b) none

/-- A conditioned frame fails (R403, R67): it is discarded. -/
def State.condFail (s : State) (n : Nat) : State := (s.frameError n).settleStream n

/-- Condition one raw frame: its pyramid goes into the OUT buffer of the next SEQ. -/
def State.condition (s : State) (n : Nat) (f : RawFrame) : State :=
  let s := s.putStream n { s.stream n with done := (s.stream n).done.tail }
  match s.rawLines n f with
  | (s, none) => s.condFail n
  | (s, some raw) =>
    let bs := pyramid (s.profile (s.fget (Reg.ingStrCfg n) 7 5)) raw (s.fget (Reg.ingStrGeom n) 31 16)
      (s.fget (Reg.ingStrGeom n) 15 0)
    let i := (s.rget (Reg.ingStrSeq n)).toNat % s.nbuf n
    if s.fget (Reg.ingStrOutSize n) 15 0 * 4096 < bs.length then s.condFail n
    else
      match s.engineStore .ingress (s.outAddr n i) bs with
      | (s, false) => s.condFail n
      | (s, true) =>
        { s with ing := { s.ing with cond := some (n, { f with index := i, bytes := bs.length }) } }.flag
          Reg.ingStatus 7

/-- FRAME_CONDITION_START (R410): when the conditioner is free. -/
def execFrameConditionStart (s : State) : Out :=
  .next <|
    match s.ing.cond, s.nextRaw with
    | none, some n =>
      match (s.stream n).done with
      | f :: _ => s.condition n f
      | [] => s
    | _, _ => s

/-! ### Delivery -/

/-- The frame record (R399). -/
def frameRecord (n seq dropped duration : Nat) (f : RawFrame) : List Byte :=
  natToBytes 4 seq ++
  natToBytes 4 (n + 256 * b2n (0 < f.errUnits) + 512 * b2n f.incomplete + 1024 * b2n f.trig.isSome +
    65536 * min 65535 dropped) ++
  natToBytes 8 (f.startNs / 1000000000) ++ natToBytes 4 (f.startNs % 1000000000) ++
  natToBytes 4 duration ++
  natToBytes 8 (f.trig.getD 0 / 1000000000) ++ natToBytes 4 (f.trig.getD 0 % 1000000000) ++
  natToBytes 4 f.bytes ++ natToBytes 4 f.units ++ natToBytes 4 f.errUnits ++ natToBytes 8 f.startBeat ++
  natToBytes 8 0

/-- DURATION_NS, saturating; where a step put the last unit before the stamp, the spec states none (a free number). -/
def State.duration (s : State) (f : RawFrame) : Nat × State :=
  if f.startNs ≤ f.lastNs then (min 0xFFFFFFFF (f.lastNs - f.startNs), s) else s.drawNat

/-- Deliver a frame of stream n (R399, R401): its record, its SEQ and FRAME_BKL. A refused record discards it. -/
def State.deliver (s : State) (n : Nat) (f : RawFrame) : State :=
  let seq := (s.rget (Reg.ingStrSeq n)).toNat
  let (d, s) := s.duration f
  let a := s.get64 (Reg.ingStrRecLo n) + 64 * (seq % s.nbuf n)
  if f.index ≠ seq % s.nbuf n then s.condFail n
  else
    match s.engineStore .ingress a (frameRecord n seq (s.stream n).dropped d f) with
    | (s, false) => s.condFail n
    | (s, true) =>
      let s := (s.putStream n { s.stream n with dropped := 0 }).bump (Reg.ingStrSeq n) 1
      (s.bklSet .ingress (s.fget (Reg.ingStrBkl n) 13 0) (s.rget (Reg.ingStrSeq n))).settleStream n

/-- FRAME_DELIVER (R401): the frame that the conditioner has finished for stream n, or the oldest complete frame of an
unconditioned stream. -/
def execFrameDeliver (n : Nat) (s : State) : Out :=
  .next <|
    match s.ing.cond with
    | some (k, f) =>
      if k = n then
        (({ s with ing := { s.ing with cond := none } }.bput Reg.ingStatus 7 false).bump
          Reg.ingCondFrames 1).deliver n f
      else if s.strCond n then s
      else match (s.stream n).done with
        | [] => s
        | f :: fs => (s.putStream n { s.stream n with done := fs }).deliver n f
    | none =>
      if s.strCond n then s
      else match (s.stream n).done with
        | [] => s
        | f :: fs => (s.putStream n { s.stream n with done := fs }).deliver n f

/-! ### Configuration -/

/-- A write of a stream's register is ignored (R398, R406). -/
def State.strRefuse (s : State) (n : Nat) : State := s.flag (Reg.ingStrStatus n) 7

/-- Does an ETHERNET stream's match select PTP: EtherType 0x88F7, or UDP port 319 or 320 (R653). -/
def State.matchesPtp (s : State) (n : Nat) : Bool :=
  let v := s.fget (Reg.ingStrSrc n) 31 16
  if s.fget (Reg.ingStrSrc n) 9 8 = 0 then v = 0x88F7 else v = 319 || v = 320

/-- May a stream be enabled with configuration v (R398, R406, R407, R653). -/
def State.strEnableOk (s : State) (n : Nat) (v : Word) : Bool :=
  let ty := fieldOf v 3 1
  let cond := bitOf v 4
  let others (t : Nat) : List Nat :=
    (List.range 40).filter fun k => k ≠ n && s.bit (Reg.ingStrCfg k) 0 && decide (s.strType k = t)
  let dt := s.fget (Reg.ingStrSrc n) 13 8
  let fmt := s.fget (Reg.ingCpCfg (fieldOf v 7 5)) 7 4
  s.bit Reg.ingCtrl 0 && decide (ty ≤ 3) && !(decide (ty = 1) && s.matchesPtp n) && decide (fieldOf v 19 16 ≠ 0) &&
  decide (s.fget (Reg.ingStrBufSize n) 15 0 ≠ 0) &&
  (!cond || decide (ty = 0 ∧ s.fget (Reg.ingStrOutSize n) 15 0 ≠ 0 ∧ s.fget (Reg.ingStrGeom n) 0 0 = 0 ∧
    s.fget (Reg.ingStrGeom n) 16 16 = 0 ∧ 0x2A ≤ dt ∧ dt ≤ 0x2D ∧ (fmt ≤ 3 ∨ fmt = 8))) &&
  decide (ty ≠ 0 ∨ (others 0).length < 24) &&
  decide (ty ≠ 2 ∨ ((others 2).foldl (fun c k => c + s.fget (Reg.ingStrSrc k) 11 8 + 1) 0) +
    s.fget (Reg.ingStrSrc n) 11 8 + 1 ≤ 32)

/-- ENABLE written 0 (R405). -/
def State.strStop (s : State) (n : Nat) : State :=
  if s.strState n = 1 then ((s.bput (Reg.ingStrCfg n) 0 false).fset (Reg.ingStrStatus n) 1 0 2).settleStream n
  else s

/-- A write of ING_STRn_CFG (R398, R405, R406). -/
def State.strCfgWrite (s : State) (n : Nat) (v : Word) : State :=
  if s.strState n = 0 then
    if 4 ≤ fieldOf v 3 1 ∨ fieldOf v 19 16 = 0 then s.strRefuse n
    else if !bitOf v 0 then s.putRw (Reg.ingStrCfg n) v
    else if s.strEnableOk n v then
      (((s.putRw (Reg.ingStrCfg n) v).fset (Reg.ingStrStatus n) 1 0 1).rset (Reg.ingStrSeq n) 0).putStream n
        StreamRun.idle
    else s.strRefuse n
  else
    let same := (v ^^^ s.rget (Reg.ingStrCfg n)) &&& 0x000F7FFE = 0
    let s := if same then s else s.strRefuse n
    if !bitOf v 0 then s.strStop n
    else if s.strState n = 2 then s.strRefuse n else s

/-- A write of ING_STRn_RELEASE (R400): ignored with REL_SRC = 1. -/
def State.releaseWrite (s : State) (n : Nat) (v : Word) : State :=
  if s.bit (Reg.ingStrCfg n) 14 then s else s.rset (Reg.ingStrRelease n) v

/-- A write of ING_CTRL (R405). -/
def State.ingCtrlWrite (s : State) (v : Word) : State :=
  let s := s.putRw Reg.ingCtrl v
  if bitOf v 0 then s.fset Reg.ingStatus 1 0 1
  else ((List.range 40).foldl State.strStop (s.fset Reg.ingStatus 1 0 2)).settleIngress

/-- The write rule of the ING_ block. -/
def State.ingWrite (s : State) (o : Nat) (v : Word) : State :=
  let n := (o - 0x1000) / 0x40
  let r := o % 0x40
  if o = 0x04 then s.ingCtrlWrite v
  else if 0x1000 ≤ o ∧ o < 0x1A00 then
    if r = 0 then s.strCfgWrite n v
    else if r = 0x34 then s.releaseWrite n v
    else if s.strState n = 0 then s.putTyped (0x10110000 + o) v 0
    else s.strRefuse n
  else s.putTyped (0x10110000 + o) v 0

/-- ING_RELEASE_WRITE (R400). -/
def execIngReleaseWrite (who : Initiator) (n : Nat) (value : Word) (s : State) : Out :=
  s.named (decide (n < 40)) <|
    s.softWrite who (Reg.ingStrRelease n) value fun s v => s.releaseWrite n v

/-- STREAM_ENABLE (R398): a write of ING_STRn_CFG with ENABLE = 1. -/
def execStreamEnable (who : Initiator) (n : Nat) (cfg : Word) (s : State) : Out :=
  s.named (decide (n < 40)) <|
    s.softWrite who (Reg.ingStrCfg n) (withField cfg 0 0 1) fun s v => s.strCfgWrite n v

/-- STREAM_DISABLE (R405): a write of ING_STRn_CFG with ENABLE = 0. -/
def execStreamDisable (who : Initiator) (n : Nat) (cfg : Word) (s : State) : Out :=
  s.named (decide (n < 40)) <|
    s.softWrite who (Reg.ingStrCfg n) (withField cfg 0 0 0) fun s v => s.strCfgWrite n v

/-- INGRESS_DISABLE (R405): a write of ING_CTRL.ENABLE = 0. -/
def execIngressDisable (who : Initiator) (s : State) : Out :=
  .next (s.softWrite who Reg.ingCtrl 0 fun s v => s.ingCtrlWrite v)

end Sys2Proof.Machine
end

