-- ==== Sys2Proof/Machine/Send.lean ====
section
/-!
DEFINITION. Machine/Send.lean: what a node sends over the Shauz link: routes, flits and end-to-end messages
(R563, R571 to R574), which linked transactions, remote accesses and the link's own traffic share.
-/

namespace Sys2Proof.Machine

/-- Port p beside its registers. -/
def State.shzPort (s : State) (p : Nat) : ShzPort := spGet (fun _ => ShzPort.down) s.shz.ports p

/-- Give port p a new hidden part. -/
def State.putShzPort (s : State) (p : Nat) (x : ShzPort) : State :=
  { s with shz := { s.shz with ports := spSet (fun _ => ShzPort.down) s.shz.ports p x } }

/-- What the node keeps of node n. -/
def State.shzPeer (s : State) (n : Nat) : ShzPeer := spGet (fun _ => ShzPeer.fresh0) s.shz.peers n

/-- Keep something else of node n. -/
def State.putShzPeer (s : State) (n : Nat) (x : ShzPeer) : State :=
  { s with shz := { s.shz with peers := spSet (fun _ => ShzPeer.fresh0) s.shz.peers n x } }

/-- The node's own number. -/
def State.ownNode (s : State) : Nat := s.fget Reg.shzNode 2 0

/-- The node holds a number (R569). -/
def State.numbered (s : State) : Bool := s.bit Reg.shzNode 3

/-- The role epoch that the node holds for node n (R571). -/
def State.epochOf (s : State) (n : Nat) : Nat := s.fget (Reg.shzEpoch n) 15 0

/-- Can a message reach node n now (R577, R585). -/
def State.nodeReachable (s : State) (n : Nat) : Bool :=
  s.numbered && decide (n < 8 ∧ n ≠ s.ownNode) && s.bit Reg.shzNode (16 + n)

/-- The port on the route to node n (R572). -/
def State.routePort (s : State) (n : Nat) : Nat := b2n (s.bit Reg.shzNode (24 + n))

/-- The generation of the flits: the ring's (R570), and the node's own, 1, before it has an assignment (R2). -/
def State.ringGen (s : State) : Nat := if s.fget Reg.shzNode 11 8 = 0 then 1 else s.fget Reg.shzNode 11 8

/-- A flit with the node's own fields (R563). -/
def State.flit (s : State) (typ dst op tag addr e2e : Nat) (payload : List Byte) : Flit where
  gen := s.ringGen
  typ := typ
  src := s.ownNode
  dst := dst
  dstEpoch := s.epochOf dst
  seq := 0
  ack := 0
  nak := false
  e2e := e2e
  srcEpoch := s.epochOf s.ownNode
  len := payload.length
  op := op
  tag := tag
  addr := addr
  payload := payload

/-- One bit of the CRC of R564. -/
def crc24Bit (c : Nat) : Nat := if c.testBit 23 then (2 * c) % 2 ^ 24 ^^^ 0x864CFB else 2 * c

/-- The CRC of R564 goes on over bytes in address order, the most significant bit of each byte first. -/
def crc24From (c : Nat) : List Byte → Nat
  | [] => c
  | b :: bs =>
    crc24From ((List.range 8).foldl (fun c _ => crc24Bit c) (c ^^^ b.toNat * 2 ^ 16)) bs

/-- CRC-24 (R564). -/
def crc24 (bs : List Byte) : Nat := crc24From 0xB704CE bs

/-- Bytes 0x00 to 0x7C of a flit (R563). -/
def flitBody (f : Flit) : List Byte :=
  natToBytes 4 (f.gen % 16 + 2 ^ 4 * (f.typ % 16) + 2 ^ 8 * (f.src % 8) + 2 ^ 11 * (f.dst % 8) + 2 ^ 16 * (f.dstEpoch % 2 ^ 16)) ++
  natToBytes 4 (f.seq % 4096 + 2 ^ 12 * (f.ack % 4096) + 2 ^ 24 * b2n f.nak) ++
  natToBytes 4 (f.e2e % 2 ^ 16 + 2 ^ 16 * (f.srcEpoch % 2 ^ 16)) ++
  natToBytes 4 (f.len % 128 + 2 ^ 8 * (f.op % 256) + 2 ^ 16 * (f.tag % 2 ^ 16)) ++
  natToBytes 8 (f.addr % 2 ^ 48) ++ (f.payload ++ List.replicate 96 0).take 96 ++ List.replicate 5 0

/-- The 128 bytes of a flit: the CRC is stored little-endian behind the rest (R563, R564). -/
def flitBytes (f : Flit) : List Byte := flitBody f ++ natToBytes 3 (crc24 (flitBody f))

/-- The lane that carries byte i of a flit (R560). -/
def flitLane (i : Nat) : Nat := i % 4

/-- Are 128 bytes a flit with a good CRC. -/
def flitCrcOk (bs : List Byte) : Bool :=
  decide (bs.length = 128) && decide (bytesToNat (bs.drop 0x7D) = crc24 (bs.take 0x7D))

/-- TYPE and GEN of the bytes of a flit. -/
def flitType (bs : List Byte) : Nat := (bs.getD 0 0).toNat / 16
def flitGen (bs : List Byte) : Nat := (bs.getD 0 0).toNat % 16

/-- Does a flit have a reserved type, or a reserved field that is nonzero (R563, R565). -/
def flitReserved (bs : List Byte) : Bool :=
  decide (10 ≤ flitType bs) || decide (64 ≤ (bs.getD 1 0).toNat) || decide (2 ≤ (bs.getD 7 0).toNat) ||
    decide (128 ≤ (bs.getD 0xC 0).toNat) || decide ((bs.getD 0x16 0).toNat + (bs.getD 0x17 0).toNat ≠ 0) ||
    ((bs.drop 0x78).take 5).any fun b => b ≠ 0

/-- Is port p UP (R562). -/
def State.portUp (s : State) (p : Nat) : Bool := decide (p < 2) && s.fget (Reg.shzPStatus p) 1 0 = 2

/-- Give a flit its link words and put it into the replay buffer of port p, if it is UP (R566). -/
def State.putFlit (s : State) (p : Nat) (f : Flit) : State :=
  let x := s.shzPort p
  let q := (x.txSeq + 1) % 4096
  if !s.portUp p then s
  else (s.tally 0x098 p 1).putShzPort p { x with
    waits := if x.out.isEmpty then s.beat else x.waits
    txSeq := q, out := x.out ++ [{ f with seq := q, ack := x.rxSeq, nak := x.nak }], nak := false }

/-- A message that is not numbered end to end goes to node n. -/
def State.sendPlain (s : State) (f : Flit) : State := s.putFlit (s.routePort f.dst) f

/-- An end-to-end message to node n (R573, R574): numbered and held; sent at once while at most 256 are held. A message to
a node that cannot be reached is dropped (R577). -/
def State.sendE2E (s : State) (both : Bool) (typ n op tag addr : Nat) (payload : List Byte) : State :=
  if !s.nodeReachable n then s.count Reg.shzUnreachCount 1
  else
    let x := s.shzPeer n
    let q := (x.sent + 1) % 65536
    let f := s.flit typ n op tag addr q payload
    let s := s.putShzPeer n { x with sent := q, held := x.held ++ [f] }
    if 256 ≤ x.held.length then s
    else if both then (s.putFlit 0 f).putFlit 1 f
    else s.putFlit (s.routePort n) f

/-- The payload of a LINK message: commit time and reason. -/
def linkPayload (sec ns reason : Nat) : List Byte := natToBytes 8 sec ++ natToBytes 4 ns ++ natToBytes 1 reason

/-- A LINK message (R579, R580): OP 0 READY, 1 GO, 2 ABORT, 3 ABORTED. -/
def State.sendLink (s : State) (both : Bool) (n op group sec ns reason : Nat) : State :=
  s.sendE2E both 6 n op group 0 (linkPayload sec ns reason)

end Sys2Proof.Machine
end

