-- ==== Sys2Proof/Machine/Txn.lean ====
section
/-!
DEFINITION. Machine/Txn.lean: transactions up to their commit beat, their abort, linked transactions of this node,
and Cinch's vouch pipeline (R108 to R127, R535 to R541, R578 to R581).
-/

namespace Sys2Proof.Machine

/-- Transaction n beside its registers. -/
def State.txn (s : State) (n : Nat) : Txn := spGet (fun _ => Txn.idle) s.txns n

/-- Give transaction n a new hidden part. -/
def State.putTxn (s : State) (n : Nat) (t : Txn) : State :=
  { s with txns := spSet (fun _ => Txn.idle) s.txns n t }

/-- The initiator with a code of the initiator code table. -/
def initOf (code : Nat) : Initiator :=
  if code < 0x10 then .app code
  else if code = 0x10 then .steward
  else if code < 0x20 then .caller (code - 0x18)
  else if code < 0x30 then .reflex (code - 0x20)
  else if code = 0x30 then .cinch
  else if code = 0x40 then .pcie
  else .shauz

/-- The owner of transaction n. -/
def State.txnOwner (s : State) (n : Nat) : Initiator := initOf (s.fget (Reg.txnStatus n) 15 8)

/-- How many transactions are in state k. -/
def State.txnCount (s : State) (k : Nat) : Nat :=
  ((List.range 64).filter fun n => s.txnState n = k).length

/-- TXN_GLOBAL_STATUS follows the states. -/
def State.syncTxn (s : State) : State :=
  (s.fset Reg.txnGlobalStatus 6 0 (s.txnCount 1)).fset Reg.txnGlobalStatus 14 8 (s.txnCount 2)

/-- The 32-bit words that an entry writes, with their values (R539). -/
def TxnEntry.words (e : TxnEntry) : List (Nat × Word) :=
  if e.kind = 0 then [(e.addr, e.lo)]
  else if e.kind = 1 then [(e.addr, e.lo), (e.addr + 4, e.hi)]
  else []

/-- The link slot that binds transaction n (R578). -/
def State.linkOf (s : State) (n : Nat) : Option Nat :=
  (List.range 8).find? fun l => s.bit (Reg.shzLinkCfg l) 0 && decide (s.fget (Reg.shzLinkCfg l) 7 2 = n)

/-! ### Sealed ranges -/

/-- A range returns to OPEN (R538). -/
def State.unseal (s : State) (r : Nat) : State := (s.bput (Reg.cinSealCtrl r) 1 false).fset (Reg.cinSealCtrl r) 13 8 0

/-- The ranges that transaction n sealed return to OPEN. -/
def State.unsealAll (s : State) (n : Nat) : State :=
  (s.txn n).seals.foldl (fun s r =>
    if s.bit (Reg.cinSealCtrl r) 1 && decide (s.fget (Reg.cinSealCtrl r) 13 8 = n) then s.unseal r else s) s

/-! ### The vouch queue's window -/

/-- The vouched words of some entries: entry number, address, value, vouched-destination entry (R539). -/
def State.hitsOf (s : State) (es : List TxnEntry) : List (Nat × Nat × Word × Nat) :=
  ((List.range es.length).map fun i =>
    ((es.getD i ⟨0, 0, 0, 0⟩).words.filterMap fun w => (s.vdHit w.1).map fun k => (i, w.1, w.2, k))).flatten

/-- Entry e of the window CIN_VEe. -/
def State.showEntry (s : State) (hits : List (Nat × Nat × Word × Nat)) (i : Nat) (e : TxnEntry) : State :=
  let mark := match hits.find? fun h => h.1 = i with
    | none => 0
    | some h => 2 ^ 24 + 2 ^ 25 * h.2.2.2
  (((s.rset (Reg.cinVeAddrLo i) (toWord e.addr)).rset (Reg.cinVeAddrHi i)
    (toWord (e.addr / 2 ^ 32 % 65536 + 65536 * e.kind + mark))).rset (Reg.cinVeDataLo i) e.lo).rset
      (Reg.cinVeDataHi i) e.hi

/-- CIN_VREQ and the window show the request at the head of the queue. -/
def State.showVouch (s : State) : State :=
  let old := s.fget Reg.cinVreq 24 16
  let s := (List.range old).foldl (fun s i => s.showEntry [] i ⟨0, 0, 0, 0⟩) s
  match s.cin.queue with
  | [] => s.rset Reg.cinVreq 0
  | n :: _ =>
    let es := (s.txn n).entries
    let hits := s.hitsOf es
    let frame := hits.any fun h => s.bit (Reg.cinVdShape h.2.2.2) 28
    let s := (List.range es.length).foldl (fun s i => s.showEntry hits i (es.getD i ⟨0, 0, 0, 0⟩)) s
    s.rset Reg.cinVreq (toWord (n + 512 * b2n (!isTrusted (s.txnOwner n)) + 1024 * b2n frame +
      2048 * b2n (!(s.txn n).seals.isEmpty) + 65536 * es.length + 2 ^ 31))

/-- Remove a request from the vouch queue. -/
def State.dropVouch (s : State) (n : Nat) : State :=
  if s.cin.queue.contains n then
    { s with cin := { s.cin with queue := s.cin.queue.filter (· ≠ n) } }.showVouch
  else s

/-! ### End of a transaction -/

/-- The DONE signal (R127), of the rank of a transaction commit (R98). -/
def State.txnDone (s : State) (n : Nat) (committed : Bool) : State :=
  let d := s.rget (Reg.txnDone n)
  let s := if committed then s.tally 0x090 64 1 else s
  if bitOf d 31 && (committed || bitOf d 30) then s.signalAll (fieldOf d 13 0) [⟨s.txnOwner n, false, 1, true⟩] else s

/-- A link slot's reaction to the abort of its transaction (R579): a participant before GO sends ABORTED. -/
def State.linkAborted (s : State) (n reason : Nat) : State :=
  match s.linkOf n with
  | none => s
  | some l =>
    let before := s.fget (Reg.shzLinkStatus l) 2 0 < 3
    let s := s.fset (Reg.shzLinkStatus l) 2 0 4
    if s.bit (Reg.shzLinkCfg l) 1 && before then
      s.sendLink false (s.fget (Reg.shzLinkCfg l) 10 8) 3 (s.fget (Reg.shzLinkGroup l) 15 0) 0 0 reason
    else s

/-- Transaction n aborts with a reason (R109, R126, R127, R538). -/
def State.abortTxn (s : State) (n reason : Nat) : State :=
  if s.txnState n = 1 ∨ s.txnState n = 2 then
    let s := (s.unsealAll n).dropVouch n
    let s := s.putTxn n Txn.idle
    let s := (s.fset (Reg.txnStatus n) 2 0 4).fset (Reg.txnStatus n) 7 4 reason
    let s := ((s.set64 (Reg.txnEndBeatLo n) s.beat).count Reg.txnAbortCount 1).txnDone n false
    let s := if reason = 4 then s.tally 0x092 64 1 else s
    (s.linkAborted n reason).syncTxn
  else s

/-! ### The bound stage (R539) -/

/-- Does the health condition of the frame's MODE hold now (R547). -/
def State.gateNow (s : State) : Bool :=
  let f := s.rget Reg.cinFrameStatus
  let golden := bitOf f 1 && !bitOf f 2
  let check := decide (s.fget Reg.cinChkCfg 15 0 ≤ fieldOf f 31 16) && !bitOf f 3
  match s.fget Reg.cinFrameCfg 1 0 with
  | 0 => golden
  | 1 => check
  | _ => golden && check

/-- The health gate for transaction n: the frame of its arm, and the failures since (R547). -/
def State.gateFor (s : State) (n : Nat) : Bool := (s.txn n).gateThen.getD s.gateNow && !(s.txn n).failSince

/-- The value that a vouched destination holds now. -/
def State.destValue (s : State) (a : Nat) : Word :=
  if inRegSpace a then s.rget a else toWord (s.readNat a 4)

/-- A value in the representation of KIND: 1 signed, 2 unsigned. -/
def kindValue (kind : Nat) (w : Word) : Int := if kind = 1 then w.toInt else w.toNat

/-- Does another ARMED transaction name word `a` (R539). -/
def State.namedByOther (s : State) (n a : Nat) : Bool :=
  (List.range 64).any fun m =>
    m ≠ n && decide (s.txnState m = 2) && (s.txn m).entries.any fun e => e.words.any fun w => w.1 = a

/-- The range that a hit of entry k seals, if SEAL_EN. -/
def State.sealOf (s : State) (k : Nat) : Option Nat :=
  if s.bit (Reg.cinVdShape k) 29 then some (s.fget (Reg.cinVdClass k) 11 8) else none

/-- Does one vouched word fail condition `reason` of the bound stage (R539). -/
def State.boundFails (s : State) (n reason : Nat) (h : Nat × Nat × Word × Nat) : Bool :=
  let k := h.2.2.2
  let kind := s.fget (Reg.cinVdShape k) 25 24
  let v := kindValue kind h.2.2.1
  match reason with
  | 4 => s.namedByOther n h.2.1 || (match s.sealOf k with
      | some r => s.bit (Reg.cinSealCtrl r) 1
      | none => false)
  | 3 => decide (kind = 1 ∧ h.2.2.1 = 0x80000000)
  | 1 => s.bit (Reg.cinVdShape k) 26 &&
      !decide (kindValue kind (s.rget (Reg.cinVdMin k)) ≤ v ∧ v ≤ kindValue kind (s.rget (Reg.cinVdMax k)))
  | _ => s.bit (Reg.cinVdShape k) 27 &&
      decide ((s.rget (Reg.cinVdStep k)).toNat < (v - kindValue kind (s.destValue h.2.1)).natAbs)

/-- The first condition of the bound stage that applies to transaction n, with the failing entry (R539). -/
def State.boundStage (s : State) (n : Nat) : Option (Nat × Nat) :=
  let hits := s.hitsOf (s.txn n).entries
  if s.fget Reg.cinStatus 1 0 ≠ 1 || s.bit Reg.cfgStatus 4 then some (7, 0)
  else if !isTrusted (s.txnOwner n) && !s.gateFor n then some (5, 0)
  else
    [4, 3, 1, 2].findSome? fun reason => (hits.find? (s.boundFails n reason)).map fun h => (reason, h.1)

/-- A veto (R540, R541): Cinch records it, and the transaction aborts with reason 0x4 (R125). -/
def State.vetoTxn (s : State) (n reason code entry : Nat) : State :=
  let s := s.rset Reg.cinVetoLast (toWord (n + 256 * reason + 65536 * code + 2 ^ 24 * (entry % 256)))
  ((s.bump Reg.cinVetoCount 1).flag Reg.cinStatus 5).abortTxn n 4

/-- Seal the enabled ranges that the request names (R537). -/
def State.sealFor (s : State) (n : Nat) : State :=
  let rs := ((s.hitsOf (s.txn n).entries).filterMap fun h => s.sealOf h.2.2.2).dedup
  let rs := rs.filter fun r => s.bit (Reg.cinSealCtrl r) 0
  let s := rs.foldl (fun s r => (s.flag (Reg.cinSealCtrl r) 1).fset (Reg.cinSealCtrl r) 13 8 n) s
  s.putTxn n { s.txn n with seals := rs }

/-- Present transaction n to Cinch (R539). -/
def State.presentTxn (s : State) (n : Nat) : State :=
  match s.boundStage n with
  | some (reason, entry) => s.vetoTxn n reason 0 entry
  | none =>
    let s := s.sealFor n
    { s with cin := { s.cin with queue := s.cin.queue ++ [n] } }.showVouch

/-! ### Linked transactions (R578 to R581) -/

/-- The commit timestamp of transaction n. -/
def State.txnStamp (s : State) (n : Nat) : Nat × Nat := (s.get64 (Reg.txnAtLo n), s.fget (Reg.txnAtHi n) 29 0)

/-- The participant nodes of slot l. -/
def State.linkNodes (s : State) (l : Nat) : List Nat := (List.range 8).filter fun n => s.bit (Reg.shzLinkCfg l) (16 + n)

/-- Is transaction n armed, and vouched as required (R579). -/
def State.txnSettled (s : State) (n : Nat) : Bool :=
  decide (s.txnState n = 2) && (!s.bit (Reg.txnStatus n) 25 || s.bit (Reg.txnStatus n) 26)

/-- The coordinator aborts its group (R580). -/
def State.groupAbort (s : State) (l node reason : Nat) : State :=
  let g := s.fget (Reg.shzLinkGroup l) 15 0
  let s := (s.linkNodes l).foldl (fun s n => s.sendLink true n 2 g 0 0 reason) s
  let s := (s.fset (Reg.shzLinkStatus l) 19 12 reason).fset (Reg.shzLinkStatus l) 22 20 node
  (s.fset (Reg.shzLinkStatus l) 2 0 4).abortTxn (s.fget (Reg.shzLinkCfg l) 7 2) 1

/-- A READY that names another timestamp than this one. -/
def State.strangeReady (s : State) (l : Nat) (t : Nat × Nat) : Option Nat :=
  (s.shz.ready.find? fun r => decide (r.slot = l ∧ (r.sec, r.ns) ≠ t)).map (·.node)

/-- Slot l goes on as far as its transaction and the READYs allow (R579, R580). -/
def State.linkProgress (s : State) (l : Nat) : State :=
  let n := s.fget (Reg.shzLinkCfg l) 7 2
  let st := s.fget (Reg.shzLinkStatus l) 2 0
  let g := s.fget (Reg.shzLinkGroup l) 15 0
  let t := s.txnStamp n
  if !s.bit (Reg.shzLinkCfg l) 0 || decide (3 ≤ st) || decide (s.txnState n ≠ 2) then s
  else if s.bit (Reg.shzLinkCfg l) 1 then
    if s.txnSettled n && decide (st ≠ 2) then
      (s.sendLink false (s.fget (Reg.shzLinkCfg l) 10 8) 0 g t.1 t.2 0).fset (Reg.shzLinkStatus l) 2 0 2
    else if st = 2 then s else s.fset (Reg.shzLinkStatus l) 2 0 1
  else
    match s.strangeReady l t with
    | some node =>
      let (k, s) := s.drawNat
      s.groupAbort l node (k % 256)
    | none =>
      if s.txnSettled n &&
          (s.linkNodes l).all fun m => s.bit (Reg.shzLinkStatus l) (4 + m) then
        ((s.linkNodes l).foldl (fun s m => s.sendLink true m 1 g t.1 t.2 0) s).fset (Reg.shzLinkStatus l) 2 0 3
      else s.fset (Reg.shzLinkStatus l) 2 0 1

/-- The slot of transaction n goes on. -/
def State.linkStep (s : State) (n : Nat) : State :=
  match s.linkOf n with
  | none => s
  | some l => s.linkProgress l

/-! ### Commands of the owner (R109 to R116) -/

/-- A command or push in a state that does not accept it (R111). -/
def State.txnRefuse (s : State) (n : Nat) : State := s.flag (Reg.txnStatus n) 3

/-- OPEN (R109, R110, R701). An initiator that the table of initiator codes does not name could not become an owner that
OWNER shows: its OPEN completes with an access fault (DESIGN CHOICE, log entry 37). -/
def State.txnOpen (s : State) (who : Initiator) (n : Nat) : State :=
  if initCode who = 0xFF then s.respond .accessFault
  else if s.txnState n ≠ 0 then s.txnRefuse n
  else
    let s := (List.range 11).foldl (fun s i => s.rset (Reg.txnAtLo n + 4 * i) (resetOf (Reg.txnAtLo n + 4 * i))) s
    let s := s.rset (Reg.txnStatus n)
      (toWord (1 + 8 * b2n (s.bit (Reg.txnStatus n) 3) + 256 * initCode who))
    let s := (List.range 8).foldl (fun s l =>
      if s.linkOf n = some l then s.rset (Reg.shzLinkStatus l) (s.rget (Reg.shzLinkStatus l) &&& 8) else s) s
    (s.putTxn n { Txn.idle with openBeat := s.beat }).syncTxn

/-- A transaction armed with this commit time is LATE (R116). -/
def State.txnLate (s : State) (n : Nat) (timestamp : Bool) : Bool :=
  if timestamp then
    let t := s.txnStamp n
    decide ((t.1 * 1000000000 + t.2) * nsUnits ≤ s.timeUnits + 3 * s.increment)
  else decide (s.get64 (Reg.txnAtLo n) < s.beat + 4)

/-- Do the entries of transaction n name a vouched destination (R125). -/
def State.needsVouch (s : State) (n : Nat) : Bool := !(s.hitsOf (s.txn n).entries).isEmpty

/-- ARM in state OPEN (R115, R116, R125, R578). `sameCycle` says that the arm came in the CLK_FAB cycle of the last one, and so
shares its place (R121). An ARM that is late is not presented to Cinch, and records LATE (7) also where Cinch would veto
it (DESIGN CHOICE, log entry 37: R116 and R125 give no order). -/
def State.txnArm (s : State) (n : Nat) (timestamp sameCycle : Bool) : State :=
  let place := if sameCycle then s.armCount else s.armCount + 1
  let s := s.fset (Reg.txnStatus n) 2 0 2
  let s := (s.putTxn n { s.txn n with
    armOrder := place, timestamp := timestamp, armBeat := s.beat,
    armFrame := (s.rget Reg.cinFrameNum).toNat, gateThen := none, failSince := false }).syncTxn
  let s := { s with armCount := place }
  let s := s.bput (Reg.txnStatus n) 25 (s.needsVouch n)
  match s.linkOf n, timestamp with
  | some l, false => (s.flag (Reg.shzLinkStatus l) 3).abortTxn n 0xC
  | _, _ =>
    if s.txnLate n timestamp then s.abortTxn n 7
    else
      let s := if s.bit (Reg.txnStatus n) 25 then s.presentTxn n else s
      s.linkStep n

/-- May `who` give transaction n command `cmd`, or push (R110). -/
def State.txnAllows (s : State) (who : Initiator) (n cmd : Nat) : Bool :=
  s.txnState n = 0 || s.isOwner who n || (cmd == 3 && (who == .cinch || who == .steward))

/-- A write of TXN_n_CTRL (R110, R111). After RELEASE, the OWNER, REASON, ENTRIES and vouch fields of TXN_n_STATUS keep their
values in IDLE until the next OPEN (DESIGN CHOICE, log entry 37: R110 names STATE only). -/
def State.txnCtrlCycle (s : State) (who : Initiator) (n : Nat) (v : Word) (sameCycle : Bool) : State :=
  let cmd := fieldOf v 3 0
  let st := s.txnState n
  if cmd = 1 then s.txnOpen who n
  else if !s.txnAllows who n cmd then s.respond .accessFault
  else if cmd = 2 ∧ st = 1 then s.txnArm n (bitOf v 4) sameCycle
  else if cmd = 3 ∧ (st = 1 ∨ st = 2) then s.abortTxn n 1
  else if cmd = 4 ∧ (st = 3 ∨ st = 4) then ((s.fset (Reg.txnStatus n) 2 0 0).putTxn n Txn.idle).syncTxn
  else s.txnRefuse n

/-- A write of TXN_n_CTRL that shares its cycle with no other arm. -/
def State.txnCtrlWrite (s : State) (who : Initiator) (n : Nat) (v : Word) : State := s.txnCtrlCycle who n v false

/-! ### Staging (R112, R113) -/

/-- The entry that the STAGE registers hold. -/
def State.stagedEntry (s : State) (n : Nat) : TxnEntry where
  kind := s.fget (Reg.txnStageAddrHi n) 17 16
  addr := (s.rget (Reg.txnStageAddrLo n)).toNat + 2 ^ 32 * s.fget (Reg.txnStageAddrHi n) 15 0
  lo := s.rget (Reg.txnStageDataLo n)
  hi := s.rget (Reg.txnStageDataHi n)

/-- The buckle that a register address names, if it is BKL_VALi or BKL_ADDi. -/
def buckleAt (a : Nat) : Option Nat :=
  let k := blockIndex a
  let o := a % 0x10000
  if 1 ≤ k ∧ k ≤ 4 ∧ o < 0x8000 then some (4096 * (k - 1) + o % 0x4000 / 4) else none

/-- May the owner signal this buckle (R99). -/
def mayStageSignal (who : Initiator) (b : Nat) : Bool := isTrusted who || !isProtected b

/-- Does the target of an entry accept it from this owner (R113). Vouched destinations are accepted here (R125). -/
def State.targetAccepts (s : State) (who : Initiator) (e : TxnEntry) : Bool :=
  if e.kind = 2 ∨ e.kind = 3 then mayStageSignal who (e.addr % 16384)
  else if e.addr % (if e.kind = 0 then 4 else 8) ≠ 0 then false
  else
    match regionOf e.addr with
    | .registers =>
      decide (e.kind = 0) && inBlock e.addr && decide (blockIndex e.addr ≠ 5) && s.reachable e.addr && s.regPermits who e.addr e.lo &&
        (match buckleAt e.addr with
         | some b => mayStageSignal who b
         | none => true)
    | .reflexSram =>
      let n := if e.kind = 0 then 4 else 8
      isTrusted who || (!s.sealedAt e.addr n && !s.inQdrRing e.addr n)
    | .tierA => s.reachable e.addr && s.pocketWritable who (bankGroup e.addr)
    | _ => false

/-- Append one entry, or abort (R112, R113). A push beyond the 256th entry records CAPACITY (9) also where its target is bad
(DESIGN CHOICE, log entry 37: R113 gives no order). -/
def State.stageEntry (s : State) (n : Nat) (e : TxnEntry) : State :=
  let es := (s.txn n).entries
  if 256 ≤ es.length then s.abortTxn n 9
  else if !s.targetAccepts (s.txnOwner n) e then s.abortTxn n 8
  else
    let s := s.putTxn n { s.txn n with entries := es ++ [e] }
    let s := s.fset (Reg.txnStatus n) 24 16 (es.length + 1)
    if e.words.any fun w => s.vouched w.1 then s.flag (Reg.txnStatus n) 25 else s

/-- A write of TXN_n_STAGE_PUSH. -/
def State.stagePush (s : State) (who : Initiator) (n : Nat) (v : Word) : State :=
  if s.txnState n ≠ 0 && !s.isOwner who n then s.respond .accessFault
  else if !bitOf v 0 then s
  else if s.txnState n ≠ 1 then s.txnRefuse n
  else s.stageEntry n (s.stagedEntry n)

/-- R114: the signals of an op are staged into its transaction on the owner's behalf; false when it is not OPEN or an
entry was refused. -/
def State.stageSignals (s : State) (n : Nat) : List (Nat × Signal) → State × Bool
  | [] => (s, s.txnState n = 1)
  | (b, g) :: gs =>
    if s.txnState n ≠ 1 then (s, false)
    else (s.stageEntry n ⟨if g.isSet then 2 else 3, b, g.amount, 0⟩).stageSignals n gs

/-! ### Timeout (R126) -/

/-- The timeout of transaction n has passed (R126). Its microseconds are counted as 125 beats each, so they stand still while
the beat is stopped (DESIGN CHOICE, log entry 37: R126 names no clock). -/
def State.txnExpired (s : State) (n : Nat) : Bool :=
  decide ((s.txn n).openBeat + beatsPerUs * max 1 (s.fget (Reg.txnTimeout n) 23 0) ≤ s.beat)

/-- An OPEN or ARMED transaction whose timeout has passed aborts. -/
def State.txnTimeout (s : State) (n : Nat) : State := if s.txnExpired n then s.abortTxn n 3 else s

/-! ### Snapshots (R128 to R130) -/

/-- Is a snapshot range valid: 1 to 32 words within one register block. -/
def snapValid (word len : Nat) : Bool :=
  let a := 0x10000000 + 4 * word
  decide (1 ≤ len ∧ len ≤ 32) && (blockTable (blockIndex a)).isSome &&
    decide (blockIndex a = blockIndex (a + 4 * (len - 1)))

/-- GO for slot k: the range as it stands now, to be latched at the start of the second beat from here (R128). -/
def State.snapStart (s : State) (k : Nat) : State :=
  if s.bit Reg.txnSnapStatus k then s
  else
    { s.flag Reg.txnSnapStatus k with
      snaps := s.snaps ++
        [⟨k, s.fget (Reg.txnSnapCfg k) 27 2, s.fget (Reg.txnSnapLen k) 5 0, s.beat + 2, none⟩] }

/-- A write of TXN_SNAP_GO. -/
def State.snapGo (s : State) (v : Word) : State :=
  (List.range 8).foldl (fun s k => if bitOf v k then s.snapStart k else s) s

/-- Is this instant of a period, in ns, inside one of the on-intervals. -/
def onAt (ivs : List (Nat × Nat)) (t : Nat) : Bool := ivs.any fun v => decide (v.1 ≤ t ∧ t < v.2)

/-- MIO_PWMn_STATUS with the switches as they are now (R484). -/
def State.pwmStatus (s : State) (n : Nat) : Word :=
  let r := spGet (fun _ => PwmRun.idle) s.mio.pwms n
  let t := 8 * (s.beat - r.start)
  withField (withField (s.rget (Reg.mioPwmStatus n)) 1 1 (b2n (onAt r.hi t))) 2 2 (b2n (onAt r.lo t))

/-- RELEASE of Quadrille's publications (R436): with REL_SRC = 1 the release buckle's value. -/
def State.pubRelease (s : State) : Word :=
  if s.bit Reg.qdrPubCfg 2 then s.buckle (s.fget Reg.qdrPubBkl 29 16) else s.rget Reg.qdrPubRelease

/-- IOM_EXT_STATUS: while an op occupies the Tensor Plane, how many of the 16 walkers work is a free number, at least the
walks of replaced roots (R81, log entry 26). -/
def State.walksView (s : State) : Word :=
  let old := s.fget Reg.iomExtStatus 20 16
  let now := if s.ten.run.isSome then old + Config.freeNat s.freeCtr % (17 - old) else old
  withField (s.rget Reg.iomExtStatus) 20 16 now

/-- The value of a register as a read sees it: RELEASE shows the buckle with REL_SRC = 1 (R400, R436); a PWM pair's status
shows its switches; IOM_EXT_STATUS the walks in flight. -/
def State.regView (s : State) (a : Nat) : Word :=
  if a = Reg.qdrPubRelease then s.pubRelease else if a = Reg.iomExtStatus then s.walksView else
  if 0x10111034 ≤ a ∧ a < 0x10111A00 ∧ a % 0x40 = 0x34 then s.release ((a - 0x10111034) / 0x40)
  else if 0x10180420 ≤ a ∧ a < 0x10180A00 ∧ a % 0x40 = 0x20 then s.pwmStatus ((a - 0x10180420) / 0x40)
  else s.rget a

/-- SNAPSHOT_LATCH: the slots of this latch beat take their words before any event of the beat acts (R128, R700), without a side
effect (R130). -/
def State.snapLatch (s : State) : State :=
  { s with snaps := s.snaps.map fun r =>
      if r.latchBeat = s.beat ∧ r.latched.isNone then
        { r with latched := some (if snapValid r.word r.len then
            (List.range r.len).map fun i => s.regView (0x10000000 + 4 * (r.word + i)) else []) }
      else r }

/-- SNAPSHOT_COMPLETE for slot k (R129). A slot with an invalid range shows BUSY from GO like any other and sets ERR at its
completion (DESIGN CHOICE, log entry 37: R129 does not say when ERR is set). -/
def State.snapDone (s : State) (k : Nat) : State :=
  match s.snaps.find? fun r => r.slot = k with
  | none => s
  | some r =>
    match r.latched with
    | none => s
    | some ws =>
      let s := { s with snaps := s.snaps.filter fun r => r.slot ≠ k }.bput Reg.txnSnapStatus k false
      if snapValid r.word r.len then
        let s := (List.range ws.length).foldl (fun s i => s.rset (Reg.txnSnapData k i) (ws.getD i 0)) s
        s.set64 (Reg.txnSnapBeatLo k) r.latchBeat
      else s.flag Reg.txnSnapStatus (8 + k)

/-! ### The block's write rule and its commands -/

/-- The write rule of the TXN_ block. -/
def State.txnWrite (s : State) (who : Initiator) (o : Nat) (v : Word) : State :=
  let n := (o - 0x1000) / 0x40
  let r := o % 0x40
  if 0x1000 ≤ o ∧ o < 0x2000 then
    if r = 0 then s.txnCtrlWrite who n v
    else if r = 0x34 then s.stagePush who n v
    else if r = 0x14 then (s.putTyped (0x10050000 + o) v 0).txnTimeout n
    else s.putTyped (0x10050000 + o) v 0
  else if o = 0x10 then s.snapGo v
  else s.putTyped (0x10050000 + o) v 0

/-- TXN_OPEN (R110). -/
def execTxnOpen (who : Initiator) (n : Nat) (s : State) : Out :=
  s.named (decide (n < 64)) <| s.softWrite who (Reg.txnCtrl n) 1 fun s v => s.txnCtrlWrite who n v

/-- TXN_ARM (R115, R121). -/
def execTxnArm (who : Initiator) (n : Nat) (timestamp sameCycle : Bool) (s : State) : Out :=
  s.named (decide (n < 64)) <|
    s.softWrite who (Reg.txnCtrl n) (toWord (2 + 16 * b2n timestamp)) fun s v =>
      s.txnCtrlCycle who n v sameCycle

/-- TXN_ABORT (R110). -/
def execTxnAbort (who : Initiator) (n : Nat) (s : State) : Out :=
  s.named (decide (n < 64)) <| s.softWrite who (Reg.txnCtrl n) 3 fun s v => s.txnCtrlWrite who n v

/-- TXN_RELEASE (R110). -/
def execTxnRelease (who : Initiator) (n : Nat) (s : State) : Out :=
  s.named (decide (n < 64)) <| s.softWrite who (Reg.txnCtrl n) 4 fun s v => s.txnCtrlWrite who n v

/-- TXN_STAGE_PUSH (R112). -/
def execTxnStagePush (who : Initiator) (n : Nat) (s : State) : Out :=
  s.named (decide (n < 64)) <| s.softWrite who (Reg.txnStagePush n) 1 fun s v => s.stagePush who n v

/-- TXN_TIMEOUT (R126). -/
def execTxnTimeout (n : Nat) (s : State) : Out := .next (if n < 64 then s.txnTimeout n else s)

/-- TXN_SNAP_GO (R128). -/
def execTxnSnapGo (who : Initiator) (slots : Nat) (s : State) : Out :=
  .next (s.softWrite who Reg.txnSnapGo (toWord (slots % 256)) fun s v => s.snapGo v)

/-- SNAPSHOT_LATCH (R128). -/
def execSnapshotLatch (s : State) : Out := .next s.snapLatch

/-- SNAPSHOT_COMPLETE (R129). -/
def execSnapshotComplete (slot : Nat) (s : State) : Out := .next (s.snapDone slot)

end Sys2Proof.Machine
end

