-- ==== Sys2Proof/Machine/Cinch.lean ====
section
/-!
DEFINITION. Machine/Cinch.lean: the safety island: states, causes, watchdog, verdicts, frames and coverage
(R516 to R559). The safe-state command itself and the grid are in later files.
-/

namespace Sys2Proof.Machine

/-- The state of Cinch (R521): 0 BOOT, 1 RUN, 2 SAFE_STATE, 3 SAFE_STOP. -/
def State.cinState (s : State) : Nat := s.fget Reg.cinStatus 1 0

/-- Change what Cinch holds beside its registers. -/
def State.withCin (s : State) (f : Cinch → Cinch) : State := { s with cin := f s.cin }

/-! ### Standing causes (R526, R528) -/

/-- Are all watched rails and regulators within tolerance (R526, R677). -/
def State.railsGood (s : State) : Bool := decide (s.fget Reg.sysRailStatus 7 0 = 255)

/-- Does the condition of some cause other than HANDOFF, WDOG and FIRMWARE still hold. -/
def State.conditionHolds (s : State) : Bool :=
  s.cin.beatBad || (s.cin.vinLost && !s.railsGood) || s.cin.demand ||
    (s.bit Reg.cinFault 24 && Config.stillHolds 9 s.beat) || (s.bit Reg.cinFault 25 && Config.stillHolds 10 s.beat)

/-- Does a cause stand. -/
def State.causeStands (s : State) : Bool :=
  s.conditionHolds || s.bit Reg.cinStatus 10 || !s.cin.held.isEmpty

/-! ### The safety outputs (R522) -/

/-- The outputs toggle from here, CIN_SAFE_A high first, and CIN_STO_N is high. -/
def State.outputsRun (s : State) : State :=
  ((s.fset Reg.cinOutStatus 3 0 0xD).bput Reg.cinStatus 3 false).withCin fun c => { c with phase := 0 }

/-- The outputs are static and low. -/
def State.outputsSafe (s : State) : State := (s.fset Reg.cinOutStatus 3 0 0).bput Reg.cinStatus 3 true

/-- A state other than RUN: the safe-state command stands (R521). -/
def State.enterSafe (s : State) (k : Nat) : State :=
  ((s.fset Reg.cinStatus 1 0 k).flag Reg.cinStatus 2).outputsSafe

/-- REARM and RUN attempts are spent. -/
def State.spendRun (s : State) : State :=
  (s.bput Reg.cinStatus 11 false).withCin fun c => { c with runReq := none, entry := none }

/-! ### Faults (R528 to R531) -/

/-- CIN_FAULT records a cause. -/
def State.recordCause (s : State) (cause code : Nat) : State :=
  let s := if s.fget Reg.cinFault 7 0 = 0 then
      ((s.fset Reg.cinFault 7 0 cause).fset Reg.cinFault 15 8 (if cause = 8 then code else 0)).set64
        Reg.cinFaultBeatLo s.beat
    else s
  (s.flag Reg.cinFault (cause + 15)).flag Reg.cinStatus 4

/-- The fault moves Cinch to SAFE_STATE from RUN or SAFE_STOP (R528, R529, R527). -/
def State.toSafeState (s : State) (cause : Nat) : State :=
  let fromRun := s.cinState = 1
  let s := (s.enterSafe 2).spendRun
  let s := s.withCin fun c => { c with
    command := c.command || (fromRun && cause ≠ 4)
    killArmed := c.killArmed || cause ≠ 4
    killBase := if fromRun then none else c.killBase }
  s.bput Reg.cinReq 2 false

/-- A cause is detected (R528). -/
def State.cinFault (s : State) (cause code : Nat) : State :=
  let s := s.recordCause cause code
  let s := s.withCin fun c => { c with
    faultBeat := some s.beat
    held := if cause = 3 ∨ cause = 8 then (cause :: c.held).dedup else c.held
    killNow := c.killNow || cause = 4
    wdog := if cause = 3 then none else c.wdog }
  let s := if s.cin.entry.isSome then s.spendRun else s
  if s.cinState = 1 ∨ s.cinState = 3 then s.toSafeState cause else s

/-- A hand-off request changes (R531): its rise is a fault. -/
def State.handoffLevel (s : State) (on : Bool) : State :=
  if on && !s.bit Reg.cinStatus 10 then
    ((s.flag Reg.cinStatus 10).withCin fun c => { c with handoffBeat := some s.beat }).cinFault 7 0
  else s.bput Reg.cinStatus 10 on

/-- LOCKSTEP_MISMATCH (R518, R519). -/
def execLockstepMismatch (s : State) : Out := .next (s.cinFault 1 0)

/-- CIN_ECC_ERROR (R520). -/
def execCinEccError (s : State) : Out := .next (s.cinFault 2 0)

/-- The power-fault monitor reports loss of VIN_MAIN (R31, R677). -/
def State.vinMainLoss (s : State) : State := (s.withCin fun c => { c with vinLost := true }).cinFault 5 0

/-- VIN_MAIN_LOSS (R31). -/
def execVinMainLoss (s : State) : Out := .next s.vinMainLoss

/-- OUTPUT_READBACK_MISMATCH (R523). -/
def execOutputReadbackMismatch (s : State) : Out := .next (s.cinFault 9 0)

/-- CIN_CLOCK_DEVIATION (R528). -/
def execCinClockDeviation (s : State) : Out := .next (s.cinFault 10 0)

/-- CIN_DEMAND (R528). -/
def execCinDemand (s : State) : Out :=
  .next (((s.bput Reg.cinOutStatus 5 false).withCin fun c => { c with demand := true }).cinFault 11 0)

/-- CIN_DEMAND_RELEASE (R528). -/
def execCinDemandRelease (s : State) : Out :=
  .next ((s.flag Reg.cinOutStatus 5).withCin fun c => { c with demand := false })

/-! ### RUN, STOP, REARM (R524 to R527, R704) -/

/-- 10 s in beats. -/
def tenSeconds : Nat := 1250000000

/-- STOP (R527). -/
def State.cinStop (s : State) : State :=
  if s.cinState = 1 then
    (s.enterSafe 3).spendRun.withCin fun c => { c with command := true, killArmed := true, killBase := none }
  else if s.cinState = 0 then
    (s.fset Reg.cinStatus 1 0 3).spendRun.withCin fun c => { c with killBase := some s.beat }
  else s

/-- REARM (R526). -/
def State.cinRearm (s : State) : State :=
  if s.cinState = 0 then s.withCin fun c => { c with held := [] }
  else if s.cinState = 2 && !s.conditionHolds && !s.bit Reg.cinStatus 10 then
    (s.flag Reg.cinStatus 11).withCin fun c => { c with held := [], rearmBeat := s.beat }
  else s

/-- RUN (R524). -/
def State.cinRun (s : State) : State :=
  if s.cinState = 0 && !s.causeStands then
    if s.bit Reg.cinOutCfg 0 then s.withCin fun c => { c with entry := some (s.beat + 1) }
    else s.withCin fun c => { c with runReq := some s.beat }
  else if s.cinState = 3 && !s.bit Reg.cinReq 2 then s.withCin fun c => { c with runReq := some s.beat }
  else s

/-- A write of CIN_CTRL acts in the order FW_FAULT, STOP, REARM, RUN (R704); STOP and RUN clear both requests of
CIN_REQ. -/
def State.cinCtrlWrite (s : State) (v : Word) : State :=
  let s := if bitOf v 3 then s.cinFault 8 (fieldOf v 15 8) else s
  let s := if bitOf v 1 || bitOf v 0 then s.fset Reg.cinReq 1 0 0 else s
  let s := if bitOf v 1 then s.cinStop else s
  let s := if bitOf v 2 then s.cinRearm else s
  if bitOf v 0 then s.cinRun else s

/-- A write of CIN_CTRL with one bit set besides what `value` sets. -/
def cinCtrlCommand (who : Initiator) (bit : Nat) (value : Word) (s : State) : Out :=
  .next (s.softWrite who Reg.cinCtrl (value ||| maskOf bit bit) fun s v => s.cinCtrlWrite v)

/-- CIN_RUN (R524). -/
def execCinRun (who : Initiator) (value : Word) (s : State) : Out := cinCtrlCommand who 0 value s

/-- CIN_STOP (R527). -/
def execCinStop (who : Initiator) (value : Word) (s : State) : Out := cinCtrlCommand who 1 value s

/-- CIN_REARM (R526). -/
def execCinRearm (who : Initiator) (value : Word) (s : State) : Out := cinCtrlCommand who 2 value s

/-- CIN_FW_FAULT (R528). -/
def execCinFwFault (who : Initiator) (value : Word) (s : State) : Out := cinCtrlCommand who 3 value s

/-- A write of CIN_REQ (R527, R559): CORE_HOLD is ignored outside SAFE_STOP; the watchdog stops with it (R533). -/
def State.cinReqWrite (s : State) (v : Word) : State :=
  let hold := if s.cinState = 3 then bitOf v 2 else s.bit Reg.cinReq 2
  let s := (s.putTyped Reg.cinReq v 0).bput Reg.cinReq 2 hold
  if hold then s.withCin fun c => { c with wdog := none } else s

/-- A write of CIN_REQ with one bit given. -/
def cinReqCommand (who : Initiator) (value : Word) (s : State) : Out :=
  .next (s.softWrite who Reg.cinReq value fun s v => s.cinReqWrite v)

/-- CIN_STOP_REQ (R527). -/
def execCinStopReq (who : Initiator) (value : Word) (s : State) : Out := cinReqCommand who (value ||| 1) s

/-- CIN_RUN_REQ (R559). -/
def execCinRunReq (who : Initiator) (value : Word) (s : State) : Out := cinReqCommand who (value ||| 2) s

/-- CORE_HOLD_WRITE (R527). -/
def execCoreHoldWrite (who : Initiator) (value : Word) (s : State) : Out := cinReqCommand who value s

/-- A restart edge completes a path to RUN when its 10 s have not passed (R524, R526). -/
def State.edgeCompletes (s : State) : Bool :=
  if s.cinState = 2 then s.bit Reg.cinStatus 11 && decide (s.beat ≤ s.cin.rearmBeat + tenSeconds)
  else if s.cinState = 1 then false
  else match s.cin.runReq with
    | none => false
    | some b => decide (s.beat ≤ b + tenSeconds)

/-- RESTART_EDGE (R524, R532): an edge in the beat of a fault leads nowhere. -/
def execRestartEdge (s : State) : Out :=
  let s := s.flag Reg.cinOutStatus 4
  .next <|
    if !s.edgeCompletes then s
    else if s.cin.faultBeat = some s.beat then s.spendRun
    else s.withCin fun c => { c with entry := some (s.beat + 1) }

/-- A hand-off request that rose in this beat is the only cause that stands (R532). -/
def State.handoffNow (s : State) : Bool :=
  s.bit Reg.cinStatus 10 && s.cin.handoffBeat == some s.beat && !s.conditionHolds && s.cin.held.isEmpty

/-- Entry to RUN (R524): CIN_FAULT starts anew, a stopped watchdog starts (R533), the command is withdrawn. -/
def State.enterRun (s : State) : State :=
  let s := (s.fset Reg.cinStatus 1 0 1).bput Reg.cinStatus 2 false
  let s := ((s.rset Reg.cinFault 0).set64 Reg.cinFaultBeatLo 0).spendRun.outputsRun
  let s := { s with mio := { s.mio with killed := false } }
  s.withCin fun c => { c with
    command := false, killArmed := false, killBase := none, wdog := some (c.wdog.getD s.beat) }

/-- CINCH_RUN_ENTRY (R524, R532): in the beat after the restart edge, or after the RUN write. -/
def execCinchRunEntry (s : State) : Out :=
  .next <|
    match s.cin.entry with
    | none => s
    | some b =>
      if s.beat ≠ b then s
      else if s.handoffNow then s.enterRun.cinFault 7 0
      else if s.causeStands then s.spendRun
      else s.enterRun

/-- REARM_EXPIRY (R526). -/
def execRearmExpiry (s : State) : Out :=
  .next <|
    if s.bit Reg.cinStatus 11 && s.cin.entry.isNone && decide (s.cin.rearmBeat + tenSeconds ≤ s.beat) then
      s.bput Reg.cinStatus 11 false
    else s

/-- CIN_RUN_WINDOW_EXPIRY (R524). -/
def execCinRunWindowExpiry (s : State) : Out :=
  .next <|
    match s.cin.runReq with
    | none => s
    | some b =>
      if s.cin.entry.isNone && decide (b + tenSeconds ≤ s.beat) then s.withCin fun c => { c with runReq := none }
      else s

/-! ### The watchdog and the beat monitor (R533, R534) -/

/-- A WDOG fault. -/
def State.wdogFault (s : State) : State := s.cinFault 3 0

/-- A write of CIN_WDOG_KICK (R533). -/
def State.wdogKick (s : State) (v : Word) : State :=
  let good := fieldOf v 15 0 = 0xC1A5
  match s.cin.wdog with
  | none =>
    if good && !s.bit Reg.cinReq 2 then s.withCin fun c => { c with wdog := some s.beat } else s
  | some b =>
    if good && decide (b + beatsPerUs * s.fget Reg.cinWdogCfg 15 0 ≤ s.beat ∧
        s.beat ≤ b + beatsPerUs * max 1 (s.fget Reg.cinWdogCfg 31 16)) then
      s.withCin fun c => { c with wdog := some s.beat }
    else s.wdogFault

/-- WDOG_KICK (R533). -/
def execWdogKick (who : Initiator) (key : Word) (s : State) : Out :=
  .next (s.softWrite who Reg.cinWdogKick key fun s v => s.wdogKick v)

/-- WDOG_EXPIRY (R533): a running watchdog not kicked within MAX_US. -/
def execWdogExpiry (s : State) : Out :=
  .next <|
    match s.cin.wdog with
    | none => s
    | some b => if b + beatsPerUs * max 1 (s.fget Reg.cinWdogCfg 31 16) < s.beat then s.wdogFault else s

/-- Every fifth check, 50 µs, the safety outputs toggle (R522). -/
def State.outputTick (s : State) : State :=
  if s.cinState ≠ 1 then s
  else if s.cin.phase < 4 then s.withCin fun c => { c with phase := c.phase + 1 }
  else
    ((s.bput Reg.cinOutStatus 0 (!s.bit Reg.cinOutStatus 0)).bput Reg.cinOutStatus 1
      (s.bit Reg.cinOutStatus 0)).withCin fun c => { c with phase := 0 }

/-- BEAT_MONITOR_CHECK (R534): every 10 µs of CLK_CIN; `advance` is the beat count's advance since the last check. -/
def execBeatMonitorCheck (advance : Nat) (s : State) : Out :=
  let tol := max 2 (s.fget Reg.cinBeatMon 7 0)
  let off := decide (advance + tol < 1250 ∨ 1250 + tol < advance)
  .next <|
    let s := s.outputTick
    if off || !s.bit Reg.tmbStatus 0 then
      let s' := s.withCin fun c => { c with beatBad := true }
      if s.cin.beatBad then s' else s'.cinFault 4 0
    else s.withCin fun c => { c with beatBad := false }

/-! ### Verdicts and seals (R538, R540) -/

/-- Cinch vouches for the head request (R540, R541), or its vouch becomes a veto. -/
def State.recordVouch (s : State) (n : Nat) : State :=
  if s.cinState ≠ 1 || s.bit Reg.cfgStatus 4 then s.vetoTxn n 7 0 0
  else if !isTrusted (s.txnOwner n) && !s.gateFor n then s.vetoTxn n 5 0 0
  else
    let s := ((s.flag (Reg.txnStatus n) 26).bump Reg.cinVouchCount 1).dropVouch n
    (s.putTxn n { s.txn n with vouchBeat := some s.beat }).linkStep n

/-- A write of CIN_VERDICT (R540). A verdict in the beat of a fault is not recorded (R532). -/
def State.verdictWrite (s : State) (v : Word) : State :=
  match s.cin.queue with
  | [] => s
  | n :: _ =>
    if fieldOf v 5 0 ≠ n ∨ s.cin.faultBeat = some s.beat then s
    else if bitOf v 8 then s.recordVouch n
    else s.vetoTxn n 6 (fieldOf v 23 16) 0

/-- CIN_VERDICT_WRITE (R540). -/
def execCinVerdictWrite (who : Initiator) (value : Word) (s : State) : Out :=
  .next (s.softWrite who Reg.cinVerdict value fun s v => s.verdictWrite v)

/-- Is range r in Reflex SRAM or Tier B and 64 B to 16 MiB long (R537). -/
def State.sealValid (s : State) (r : Nat) : Bool :=
  let base := s.fget (Reg.cinSealBaseLo r) 31 6 * 64 + s.fget (Reg.cinSealBaseHi r) 15 0 * 2 ^ 32
  let size := s.fget (Reg.cinSealSize r) 24 6 * 64
  decide (64 ≤ size ∧ size ≤ 0x1000000) &&
    decide (regionOf base = .reflexSram ∨ regionOf base = .tierB) &&
    decide (regionOf (base + size - 1) = regionOf base)

/-- A refused configuration value (R559). -/
def State.cinRefuse (s : State) : State := s.flag Reg.cinStatus 9

/-- A write of CIN_SEALr_CTRL (R538, R559): a Reflex core writes UNSEAL alone; Cinch enables, disables and unseals. -/
def State.sealCtrlWrite (s : State) (who : Initiator) (r : Nat) (v : Word) : State :=
  let s := if bitOf v 2 then s.unseal r else s
  if who ≠ .cinch then s
  else if !bitOf v 0 then (s.unseal r).bput (Reg.cinSealCtrl r) 0 false
  else if s.sealValid r then s.bput (Reg.cinSealCtrl r) 0 true
  else s.cinRefuse

/-- SEAL_UNSEAL (R538). -/
def execSealUnseal (who : Initiator) (r : Nat) (value : Word) (s : State) : Out :=
  s.named (decide (r < 16)) <|
    s.softWrite who (Reg.cinSealCtrl r) (value ||| 4) fun s v => s.sealCtrlWrite who r v

/-! ### Frames and coverage (R545 to R553) -/

/-- FRAME_STATUS.HEALTH follows the gate. -/
def State.syncHealth (s : State) : State := s.bput Reg.cinFrameStatus 4 s.gateNow

/-- A golden or checksum failure marks every armed transaction (R547). -/
def State.markFailed (s : State) : State :=
  (List.range 64).foldl (fun s n =>
    if s.txnState n = 2 then s.putTxn n { s.txn n with failSince := true } else s) s

/-- Does this beat lie between EARLY and LATE after the frame's start (R545). -/
def State.inGoldenWindow (s : State) : Bool :=
  match s.cin.frameStart with
  | none => false
  | some b =>
    decide (b + 1250 * s.fget Reg.cinGoldWin 13 0 ≤ s.beat ∧ s.beat ≤ b + 1250 * s.fget Reg.cinGoldWin 29 16)

/-- The expected digest of golden op `id` of a set (R545). -/
def State.expectedDigest (s : State) (set id : Nat) : Nat :=
  s.readNat (cinchBase + s.fget Reg.cinGoldCfg 19 16 * 65536 + 4 * (256 * set + id)) 4

/-- One golden report of Caller 0 (R279, R545). -/
def State.goldenReport (s : State) (set id code digest : Nat) : State :=
  let good := decide (code = 0) && decide (digest = s.expectedDigest set id) && s.inGoldenWindow
  let run := match s.cin.golden with
    | some (k, n, ok) => if k = set then (n + 1, ok && good) else (1, good)
    | none => (1, good)
  let s := if good then s else (s.flag Reg.cinFrameStatus 2).markFailed
  let s := if s.fget Reg.cinGoldCfg 3 0 + 1 ≤ run.1 then
      (if run.2 then s.flag Reg.cinFrameStatus 1 else s).withCin fun c => { c with golden := none }
    else s.withCin fun c => { c with golden := some (set, run.1, run.2) }
  s.syncHealth

/-- One checksum report of the Hide (R195, R546). -/
def State.checksumReport (s : State) (ring : Nat) (mismatch : Bool) : State :=
  if !s.bit Reg.cinChkCfg (16 + ring % 2) then s
  else
    let s := s.fset Reg.cinFrameStatus 31 16 (min 65535 (s.fget Reg.cinFrameStatus 31 16 + 1))
    (if mismatch then (s.flag Reg.cinFrameStatus 3).markFailed else s).syncHealth

/-- A frame ends: the transactions armed in it keep the gate that it leaves (R547). -/
def State.closeFrame (s : State) : State :=
  (List.range 64).foldl (fun s n =>
    if s.txnState n = 2 && (s.txn n).gateThen.isNone then
      s.putTxn n { s.txn n with gateThen := some s.gateNow } else s) s

/-- Does a frame start in this beat (R549). -/
def State.frameStarts (s : State) : Bool :=
  s.beating && s.bit Reg.cinFrameCfg 4 && decide (s.cin.frameStart ≠ some s.beat) &&
    decide (s.beat % max 1 (s.fget Reg.cinFramePeriod 23 0) = s.fget Reg.cinFramePhase 23 0)

/-- CIN_FRAME_START (R549, R551). -/
def execCinFrameStart (s : State) : Out :=
  .next <|
    if s.frameStarts then
      let w : FrameWatch := ⟨s.beat, s.beat + s.fget Reg.cinFrameDeadline 23 0, false⟩
      let s := s.closeFrame.bump Reg.cinFrameNum 1
      let s := ((s.fset Reg.cinFrameStatus 3 0 0).fset Reg.cinFrameStatus 31 16 0).fset Reg.cinGridStatus 1 0 0
      (s.withCin fun c => { c with
        frameStart := some s.beat, watch := c.watch ++ [w], golden := none, gridRecs := [] }).syncHealth
    else s

/-- A frame's result exists (R550): a vouched commit in this beat hits a FRAME entry. -/
def State.frameResult (s : State) : State :=
  let s := s.withCin fun c => { c with watch := c.watch.map fun w =>
    if w.start ≤ s.beat ∧ s.beat ≤ w.deadline then { w with result := true } else w }
  match s.cin.watch.getLast? with
  | none => s
  | some w => if w.result then s.flag Reg.cinFrameStatus 0 else s

/-- The end of one frame's deadline beat (R551, R553). -/
def State.deadlineEnd (s : State) (w : FrameWatch) : State :=
  if w.result then s.fset Reg.cinFrameStatus 15 8 0
  else
    let m := min 255 (s.fget Reg.cinFrameStatus 15 8 + 1)
    let s := ((s.fset Reg.cinFrameStatus 15 8 m).bump Reg.cinFrameMissCount 1).flag Reg.cinStatus 7
    if s.fget Reg.cinFrameCfg 3 2 < m then s.cinFault 6 0 else s

/-- FRAME_DEADLINE_CHECK (R551, R553): at the end of a deadline beat. -/
def execFrameDeadlineCheck (s : State) : Out :=
  .next <|
    let due := s.cin.watch.filter fun w => w.deadline ≤ s.beat
    let s := s.withCin fun c => { c with watch := c.watch.filter fun w => s.beat < w.deadline }
    if s.bit Reg.cinFrameCfg 4 then due.foldl State.deadlineEnd s else s

/-! ### Configuration -/

/-- A configuration write that is kept when `ok`, else refused with CFG_ERR. -/
def State.cinKeep (s : State) (o : Nat) (v : Word) (ok : Bool) : State :=
  if ok then s.putTyped (0x10200000 + o) v 0 else s.cinRefuse

/-- CFG_ERR for an entry of the vouched destinations with an address outside the table (R535). -/
def State.checkVd (s : State) (k : Nat) : State :=
  let kind := s.fget (Reg.cinVdShape k) 25 24
  if (kind = 1 || kind = 2) && !s.vdInUse k then s.cinRefuse else s

/-- The write rule of the CIN_ block. -/
def State.cinWrite (s : State) (who : Initiator) (o : Nat) (v : Word) : State :=
  let beats := fieldOf v 23 0
  let period := s.fget Reg.cinFramePeriod 23 0
  if o = 0x04 then s.cinCtrlWrite v
  else if o = 0x08 then s.cinReqWrite v
  else if o = 0x20 then s.wdogKick v
  else if o = 0x34 then s.verdictWrite v
  else if o = 0x50 then (s.cinKeep o v (decide (fieldOf v 1 0 ≠ 3))).syncHealth
  else if o = 0x54 then
    s.cinKeep o v (decide (1250000 ≤ beats ∧ beats ≤ 12500000 ∧ s.fget Reg.cinFrameDeadline 23 0 ≤ beats ∧
      s.fget Reg.cinFramePhase 23 0 < beats))
  else if o = 0x58 then s.cinKeep o v (decide (beats < period))
  else if o = 0x5C then s.cinKeep o v (decide (1 ≤ beats ∧ beats ≤ period))
  else if o = 0x70 then s.cinKeep o v (decide (fieldOf v 29 16 ≤ fieldOf v 13 0 + 200))
  else if o = 0x74 then (s.putTyped (0x10200000 + o) v 0).syncHealth
  else if o = 0x88 then (if who = .ingress then s.fset Reg.cinRpWr 19 6 (fieldOf v 19 6) else s)
  else if 0x400 ≤ o ∧ o < 0x500 ∧ o % 0x10 = 0xC then s.sealCtrlWrite who ((o - 0x400) / 0x10) v
  else if 0x1000 ≤ o ∧ o < 0x2000 ∧ (o % 0x20 = 0 ∨ o % 0x20 = 4) then
    (s.putTyped (0x10200000 + o) v 0).checkVd ((o - 0x1000) / 0x20)
  else s.putTyped (0x10200000 + o) v 0

end Sys2Proof.Machine
end

