-- ==== Sys2Proof/Machine/Stirrup.lean ====
section
/-!
DEFINITION. Machine/Stirrup.lean: the Stirrup engines and their loops (R441 to R471), with the part of homing and of
the axis faults that the loops meet (R473, R492, R496).
-/

namespace Sys2Proof.Machine

/-! ### Loops -/

/-- Loop l beside its registers. -/
def State.loop (s : State) (l : Nat) : LoopRun := spGet (fun _ => LoopRun.idle) s.stp.loops l

/-- Give loop l a new hidden part. -/
def State.putLoop (s : State) (l : Nat) (r : LoopRun) : State :=
  { s with stp := { s.stp with loops := spSet (fun _ => LoopRun.idle) s.stp.loops l r } }

/-- Field [hi:lo] of register r of loop l. -/
def State.lf (s : State) (l r hi lo : Nat) : Nat := s.fget (Reg.loopReg l r) hi lo

/-- Register r of loop l as a signed number. -/
def State.lint (s : State) (l r : Nat) : Int := (s.rget (Reg.loopReg l r)).toInt

/-- The state of loop l: 0 OFF, 1 RUN, 2 SAFE. -/
def State.loopState (s : State) (l : Nat) : Nat := s.lf l 0x84 1 0

/-- Set a bit of STP_Lj_STATUS. -/
def State.loopFlag (s : State) (l i : Nat) : State := s.flag (Reg.loopReg l 0x84) i

/-- A write is refused (R471). -/
def State.loopRefuse (s : State) (l : Nat) : State := s.loopFlag l 11

/-- The saturation to 0x8000_0001 to 0x7FFF_FFFF (R158, R452). -/
def satQ (x : Int) : Int := max (-(2 ^ 31 - 1)) (min x (2 ^ 31 - 1))

/-- r(v, n) (R452). -/
def roundR (v : Int) (n : Nat) : Int := (v + 2 ^ (n - 1)) / 2 ^ n

/-- mulg(K, x, s) (R452). -/
def mulg (k x : Int) (s : Nat) : Int := roundR (k * x) (16 + s)

/-- mula(A, x) (R452). -/
def mula (a x : Int) : Int := roundR (a * x) 31

/-- min(max(v, lo), hi). -/
def clampI (v lo hi : Int) : Int := min (max v lo) hi

/-- Np of loop l (R453). -/
def State.waltzLen (s : State) (l : Nat) : Nat := s.lf l 0x64 11 0 + 1

/-- The address of a Waltz word of loop l's group, the word counted from WBASE. -/
def State.waltzAddr (s : State) (l n : Nat) : Nat := Reg.stpWaltz (l / 32) (s.lf l 0x68 12 0 + n)

/-- The engine that computes group k (R441). -/
def State.groupEngine (s : State) (k : Nat) : Nat := s.fget Reg.stpGrpMap (4 * k + 2) (4 * k)

/-- ROLE, STATE and GROUP of engine e. -/
def State.engRole (s : State) (e : Nat) : Nat := s.fget (Reg.stpEngStatus e) 1 0
def State.engState (s : State) (e : Nat) : Nat := s.fget (Reg.stpEngStatus e) 3 2
def State.engGroup (s : State) (e : Nat) : Nat := s.fget (Reg.stpEngStatus e) 5 4

/-- Is the engine of loop l's group DRAINING or DRAINED (R464, R470). -/
def State.groupStopped (s : State) (l : Nat) : Bool := decide (2 ≤ s.engState (s.groupEngine (l / 32)))

/-- Cinch's safe-state command stands (R521). -/
def State.safeCommand (s : State) : Bool := s.bit Reg.cinStatus 2

/-! ### Homing's hold on a setpoint (R492) -/

/-- Is the homing sequencer running. -/
def State.homing (s : State) : Bool :=
  s.fget Reg.mioHomeStatus 2 0 = 1 || s.fget Reg.mioHomeStatus 2 0 = 2

/-- The loop that homing moves. -/
def State.homeLoop (s : State) : Nat := s.fget Reg.mioHomeCfg 30 24

/-- Does homing own the setpoint of loop l. -/
def State.homeOwns (s : State) (l : Nat) : Bool := s.homing && s.homeLoop == l

/-- A write of STP_Lj_SP: ignored while homing owns it. -/
def State.spWrite (s : State) (l : Nat) (v : Word) : State :=
  if s.homeOwns l then s else s.rset (Reg.loopReg l 0x18) v

/-- A setpoint moved by d: not-a-number stays not-a-number (R158). -/
def qMoved (w : Word) (d : Int) : Word := if w = qNan then qNan else ofInt32 (satQ (w.toInt + d))

/-- In a sample beat of its loop homing moves the setpoint before the latch. A step that is not-a-number makes the setpoint
not-a-number (R158), and a negative one counts by its magnitude (DESIGN CHOICE, log entry 40). -/
def State.homeMove (s : State) (l : Nat) : State :=
  if s.homeOwns l then
    let step := s.rget (if s.fget Reg.mioHomeStatus 2 0 = 1 then Reg.mioHomeStep else Reg.mioHomeIstep)
    let size : Int := step.toInt.natAbs
    let sp := s.rget (Reg.loopReg l 0x18)
    s.rset (Reg.loopReg l 0x18) <|
      if step = qNan then qNan else qMoved sp (if s.bit Reg.mioHomeCfg 18 then -size else size)
  else s

/-! ### Outputs (R450) -/

/-- Write output u of loop l to its destination. -/
def State.loopEmit (s : State) (l : Nat) (u : Int) : State :=
  let sel := s.lf l 0x0C 24 18
  match s.lf l 0x0C 17 16 with
  | 1 => s.rset (Reg.mioPwmDuty sel) (ofInt32 u)
  | 2 =>
    s.writeBytes (reflexBase + s.lf l 0x14 22 0 / 8 * 8)
      (natToBytes 4 (ofInt32 u).toNat ++ natToBytes 4 (s.rget (Reg.loopReg l 0x9C)).toNat)
  | 3 => s.spWrite (sel % 128) (ofInt32 u)
  | _ => s

/-! ### SAFE (R459 to R463) -/

/-- HANDOFF to Cinch follows the loops' requests (R460, R531). -/
def State.syncHandoff (s : State) : State :=
  s.handoffLevel ((List.range 128).any fun l => s.bit (Reg.loopReg l 0x84) 9)

/-- The beat of a step. -/
def LoopStep.due : LoopStep → Nat
  | .run b _ => b
  | .safe b _ _ => b

/-- Is a step a safe step. Leaving RUN discards the samples (R447); a safe step takes effect at its beat (R459). -/
def LoopStep.isSafe : LoopStep → Bool
  | .run _ _ => false
  | .safe _ _ _ => true

/-- R465: a write of RESTART or ENABLE = 1 in the beat of the loop's entry to SAFE is refused. Where it came before the entry
and was one of CFG, the register takes back its value, unless a write of ENABLE = 0 has replaced it. -/
def State.refuseAsked (s : State) (l cause : Nat) : State :=
  match (s.loop l).asked with
  | none => s
  | some (b, cfg) =>
    if b ≠ s.beat then s else if cause = 1 then s.loopFlag l 12 else (s.loopFlag l 12).rset (Reg.loopReg l 0) cfg

/-- One safe step of a loop in SAFE, made in this beat (R460). The output it starts from is STP_Lj_OUT of this beat (DEDUCED,
log entry 39). -/
def State.safeStep (s : State) (l : Nat) : State :=
  let r := s.loop l
  let u := s.lint l 0x88
  let mag := max 0 (s.lint l 0x58)
  let out : Option Int :=
    match r.act with
    | 0 => some u
    | 1 =>
      let d : Int := if mag = 0 then u.natAbs else min (u.natAbs : Int) mag
      some (if 0 < u then u - d else u + d)
    | _ => if r.stepped then none else some 0
  let finish := if r.act = 1 then out == some 0 else true
  s.putLoop l { r with stepped := true, steps := r.steps ++ [.safe (s.beat + 100) out finish] }

/-- A loop in RUN enters SAFE (R459). -/
def State.enterSafeLoop (s : State) (l cause : Nat) : State :=
  let s := s.refuseAsked l cause
  let act := if cause = 7 then 2 else min 2 (s.lf l 0 8 7)
  let st := Reg.loopReg l 0x84
  let s := ((((s.fset st 1 0 2).fset st 5 2 cause).bput st 6 false).flag st 10).bput st 9 (act = 2)
  let s := (s.flag (Reg.stpSafePend (l / 32)) (l % 32)).tally 0x082 (l / 32) 1
  let s := s.putLoop l { s.loop l with
    act := act, stepped := false, entry := some s.beat, doneBeat := none,
    steps := (s.loop l).steps.filter LoopStep.isSafe }
  (s.safeStep l).syncHandoff

/-- An event that makes a loop in RUN enter SAFE: it cancels a return that waits (R465), and a loop in SAFE records
CINCH (R461). -/
def State.loopSafeCore (s : State) (l cause : Nat) : State :=
  let r := s.loop l
  if s.loopState l = 1 then s.enterSafeLoop l cause
  else if r.returning.isSome then
    let s := (s.loopFlag l 12).putLoop l { r with returning := none }
    if s.loopState l = 2 then s.fset (Reg.loopReg l 0x84) 5 2 cause else s.bput (Reg.loopReg l 0) 0 false
  else if s.loopState l = 2 && cause = 2 then s.fset (Reg.loopReg l 0x84) 5 2 2
  else s

/-- A cause bit of axis a is set (R473): its rise is a fault, and every linked loop acts (R462). -/
def State.axisRaise (s : State) (a i : Nat) : State :=
  if s.bit (Reg.mioAxStatus a) i then s
  else
    let s := ((s.flag (Reg.mioAxStatus a) i).flag (Reg.mioAxStatus a) 0).flag Reg.mioStatus 6
    (List.range 128).foldl (fun s l =>
      if s.lf l 0 9 9 = 1 ∧ s.lf l 0 14 10 = a then s.loopSafeCore l 3 else s) s

/-- Homing ends in ABORTED with a code (R496). -/
def State.homeEnd (s : State) (code : Nat) : State :=
  let s := ((s.fset Reg.mioHomeStatus 2 0 4).fset Reg.mioHomeStatus 7 4 code).flag Reg.mioHomeStatus 9
  let s := { s with mio := { s.mio with homeAbort := some s.beat, homeIndexFrom := 0 } }
  if s.bit Reg.mioHomeCfg 19 then s.axisRaise (s.fget Reg.mioHomeCfg 4 0) 4 else s

/-- A cause of R496 applies; of one beat the lowest code is recorded. -/
def State.homeAbort (s : State) (code : Nat) : State :=
  if s.homing then s.homeEnd code
  else if s.fget Reg.mioHomeStatus 2 0 = 4 && s.mio.homeAbort == some s.beat &&
      decide (code < s.fget Reg.mioHomeStatus 7 4) then
    s.fset Reg.mioHomeStatus 7 4 code
  else s

/-- Homing aborts when its loop has left RUN (R496). -/
def State.homeLoopCheck (s : State) : State :=
  if s.homing && s.loopState s.homeLoop ≠ 1 then s.homeAbort 6 else s

/-- The event that makes loop l enter SAFE, with what it does to homing. -/
def State.loopSafe (s : State) (l cause : Nat) : State := (s.loopSafeCore l cause).homeLoopCheck

/-- A cause is set on axis a by an input, an encoder or a PWM pair, with what it does to homing (R496). -/
def State.axisFault (s : State) (a i : Nat) : State :=
  let s := if s.homing && s.fget Reg.mioHomeCfg 4 0 = a then
      (if i = 2 then s.homeAbort 4 else if i = 3 then s.homeAbort 5 else s) else s
  (s.axisRaise a i).homeLoopCheck

/-- Every loop meets a Cinch safe-state command (R461). -/
def State.loopsCinch (s : State) : State := (List.range 128).foldl (fun s l => s.loopSafe l 2) s

/-! ### OFF, and the draining of an engine (R463, R470) -/

/-- A return to RUN is accepted: the markers of R448 are read in this beat. -/
def State.loopReturn (s : State) (l : Nat) : State :=
  let sel := s.lf l 0x0C 7 3
  s.putLoop l { s.loop l with
    returning := some s.beat
    prevRaw := s.rget (Reg.mioEncRaw sel)
    prevSeq := toWord (s.readNat (reflexBase + s.lf l 0x10 22 0 / 8 * 8 + 4) 4)
    prevFrames := (spGet (fun _ => AbsIn.idle) s.mio.abss sel).frames }

/-- ENABLE = 1 to a loop in OFF (R464, R470): the command that stands refuses it; in a group whose engine drains the loop
stays OFF. -/
def State.loopStart (s : State) (l : Nat) : State :=
  if s.safeCommand then s.loopFlag l 12
  else if s.groupStopped l then s
  else s.loopReturn l

/-- A DRAINED engine returns to service: the loops of its group that are enabled start (R470). -/
def State.engineWake (s : State) (e : Nat) : State :=
  let k := s.engGroup e
  let s := s.fset (Reg.stpEngStatus e) 3 2 1
  (List.range 32).foldl (fun s j =>
    let l := 32 * k + j
    if s.loopState l = 0 && s.lf l 0 0 0 = 1 && (s.loop l).returning.isNone then s.loopStart l else s) s

/-- A DRAINING engine whose group is OFF enters DRAINED (R470). -/
def State.drainCheck (s : State) (k : Nat) : State :=
  let e := s.groupEngine k
  if s.engState e = 2 && (List.range 32).all (fun j => s.loopState (32 * k + j) = 0) then
    let s := (s.fset (Reg.stpEngStatus e) 3 2 3).flag (Reg.stpEngStatus e) 9
    if s.stp.wakeUp.contains e then
      ({ s with stp := { s.stp with wakeUp := s.stp.wakeUp.filter (· ≠ e) } }).engineWake e
    else s
  else s

/-- Loop l enters OFF (R463, R460). -/
def State.loopOff (s : State) (l : Nat) : State :=
  let st := Reg.loopReg l 0x84
  let s := (((s.fset st 1 0 0).fset st 5 2 0).bput st 6 false).bput st 9 false
  ((s.putLoop l { s.loop l with off := false, steps := [] }).syncHandoff).drainCheck (l / 32)

/-- A loop on its way to OFF: at once when SAFE_DONE is set already (R463). -/
def State.loopToOff (s : State) (l : Nat) : State :=
  let s := s.putLoop l { s.loop l with off := true }
  if s.loopState l = 2 && s.lf l 0x84 6 6 = 1 then s.loopOff l else s

/-- ENABLE = 0 reaches loop l (R463, R465). -/
def State.loopStop (s : State) (l : Nat) : State :=
  match s.loopState l with
  | 0 => if (s.loop l).returning.isSome then s.loopSafe l 1 else s
  | 1 => (s.loopSafe l 1).loopToOff l
  | _ => (if (s.loop l).returning.isSome then s.loopSafe l 1 else s).loopToOff l

/-- Loop l enters OFF in the beat after SAFE_DONE, where ENABLE was written 0 (R463). -/
def State.loopOffDue (s : State) (l : Nat) : State :=
  let r := s.loop l
  if s.loopState l = 2 ∧ r.off ∧ (r.doneBeat.any fun b => b < s.beat) then s.loopOff l else s

/-- LOOP_OFF_ENTER (R463). -/
def execLoopOffEnter (loop : Nat) (s : State) : Out :=
  .next <| if loop < 128 ∧ s.placeOpen 7 then s.markTouched (s.loopOffDue loop) else s

/-! ### The sample (R448, R449, R453, R458) -/

/-- The inputs of one sample: sp, ff, fbv, each possibly not-a-number, and whether the feedback is fresh. -/
structure LoopIn where
  sp : Word
  ff : Word
  fbv : Int
  nan : Bool
  fresh : Bool
  deriving DecidableEq, Repr

/-- A counter's value: 0x8000_0000 saturates (R159). -/
def encValue (w : Word) : Int := satQ w.toInt

/-- Does quadrature encoder n report a fault (R476). -/
def State.encFault (s : State) (n : Nat) : Bool := s.bit (Reg.mioEncStatus n) 0

/-- The raw feedback: value, not-a-number, fresh (R448). -/
def State.loopRaw (s : State) (l : Nat) : Int × Bool × Bool :=
  let sel := s.lf l 0x0C 7 3
  let r := s.loop l
  match s.lf l 0x0C 2 0 with
  | 0 => (encValue (s.rget (Reg.mioEncCount sel)), false, !s.encFault sel)
  | 1 => (encValue (s.rget (Reg.mioEncRaw sel) - r.prevRaw), false, !s.encFault sel)
  | 2 =>
    (encValue (s.rget (Reg.mioAbsPos sel)), false,
      (spGet (fun _ => AbsIn.idle) s.mio.abss sel).frames ≠ r.prevFrames)
  | _ =>
    let a := reflexBase + s.lf l 0x10 22 0 / 8 * 8
    let w := toWord (s.readNat a 4)
    (w.toInt, w = 0x80000000, toWord (s.readNat (a + 4) 4) ≠ r.prevSeq)

/-- sp and ff of the sample of this beat (R449). Beyond Reflex SRAM the words of an entry are free. -/
def State.loopSetpoint (s : State) (l : Nat) : (Word × Word) × State :=
  let r := s.loop l
  if s.lf l 0 1 1 = 0 ∨ s.beat < r.trajStart then
    ((s.rget (Reg.loopReg l 0x18), s.rget (Reg.loopReg l 0x1C)), s)
  else
    let n := min ((s.beat - r.trajStart) / max 1 (s.lf l 0x04 23 0)) (r.trajLen - 1)
    let a := reflexBase + r.trajBase / 8 * 8 + 8 * n
    if regionOf a = .reflexSram then ((toWord (s.readNat a 4), toWord (s.readNat (a + 4) 4)), s)
    else
      let (x, s) := s.drawNat
      let (y, s) := s.drawNat
      ((toWord x, toWord y), s)

/-- The inputs of the sample of this beat. -/
def State.loopIn (s : State) (l : Nat) : LoopIn × State :=
  let (raw, isNan, fresh) := s.loopRaw l
  let ((sp, ff), s) := s.loopSetpoint l
  let fbv := satQ (raw * 2 ^ min 16 (s.lf l 0x0C 12 8))
  (⟨sp, ff, fbv, sp = 0x80000000 || ff = 0x80000000 || (fresh && isNan), fresh⟩, s)

/-- After a sample beat the markers of R448 move, whether or not the sample is applied. -/
def State.loopMark (s : State) (l : Nat) : State :=
  let r := s.loop l
  (s.loopReturn l).putLoop l { (s.loopReturn l).loop l with returning := r.returning }

/-- A limit register: 0x8000_0000 acts as 0x8000_0001 (R452). -/
def State.loopLimit (s : State) (l r : Nat) : Int := satQ (s.lint l r)

/-- The control law (R453), with the bumpless preset of R464 where it is due. -/
def State.loopLaw (s : State) (l : Nat) (x : LoopIn) : RunStep :=
  let r := s.loop l
  let sh (k : Nat) : Nat := s.lf l 0x40 (4 * k + 3) (4 * k)
  let sp := x.sp.toInt
  let ff := x.ff.toInt
  let imin := s.loopLimit l 0x44
  let imax := s.loopLimit l 0x48
  let omin := s.loopLimit l 0x4C
  let omax := s.loopLimit l 0x50
  let uPrev := s.lint l 0x88
  let e := sp - x.fbv
  let xv := if s.lf l 0 2 2 = 1 then -x.fbv else e
  let xPrev := if r.preset then xv else r.xPrev
  let spPrev := if r.preset then sp else r.spPrev
  let dPrev := if r.preset then 0 else s.lint l 0x90
  let p := mulg (s.lint l 0x20) e (sh 0)
  let d := satQ (mula (s.lint l 0x28) dPrev + mulg (s.lint l 0x2C) (xv - xPrev) (sh 2))
  let f := ff + mulg (s.lint l 0x30) (sp - spPrev) (sh 3)
  let np := s.waltzLen l
  let idx := s.lf l 0x6C 11 0 % np
  let wen : Bool := s.lf l 0 5 5 = 1
  let word (n : Nat) : Int := satQ (s.rget (s.waltzAddr l n)).toInt
  let w := if wen then word ((idx + s.lf l 0x64 27 16) % np) else 0
  let iPrev := if r.preset then clampI (uPrev - (p + f + w)) imin imax else s.lint l 0x8C
  let v := p + iPrev + d + f + w
  let u0 := clampI v omin omax
  let rate := max 0 (s.lint l 0x54)
  let u := if rate ≠ 0 then clampI u0 (uPrev - rate) (uPrev + rate) else u0
  let osat : Bool := u ≠ v
  let di0 := mulg (s.lint l 0x24) e (sh 1)
  let aw := s.lf l 0 4 3
  let di :=
    if (aw = 1 ∨ aw = 3) ∧ ((v > u ∧ di0 > 0) ∨ (v < u ∧ di0 < 0)) then 0
    else if aw = 2 then di0 + mulg (s.lint l 0x34) (u - v) (sh 4)
    else di0
  let i := clampI (iPrev + di) imin imax
  { sample := s.beat, u := u, d := d, i := i, x := xv, sp := sp, fbv := x.fbv, fb := x.fbv, err := satQ e, osat := osat,
    isat := i ≠ iPrev + di,
    waltz := if wen ∧ s.lf l 0 6 6 = 1 ∧ osat = false then
        some (s.lf l 0x68 12 0 + idx,
          clampI (mula (s.lint l 0x3C) (word idx) + mulg (s.lint l 0x38) e (sh 5)) omin omax)
      else none,
    idx := if wen then some ((idx + 1) % np) else none }

/-- The freeze count after a fresh sample (R458). -/
def State.freezeCount (s : State) (l : Nat) (x : LoopIn) : Nat :=
  let r := s.loop l
  if s.lf l 0x5C 31 16 = 0 then 0
  else if x.fbv = r.fbPrev ∧ s.lint l 0x60 ≤ ((x.sp.toInt - x.fbv).natAbs : Int) then r.freeze + 1
  else 0

/-- A sample of a loop in RUN (R458, then R453). -/
def State.loopRunSample (s : State) (l : Nat) : State :=
  let (x, s) := s.loopIn l
  let s := s.loopMark l
  let r := s.loop l
  if x.nan then s.loopSafe l 6
  else if !x.fresh then
    let s := s.putLoop l { r with miss := r.miss + 1 }
    if max 1 (s.lf l 0x5C 7 0) ≤ r.miss + 1 then s.loopSafe l 4 else (s.count (Reg.loopReg l 0xA0) 1).tally 0x081 (l / 32) 1
  else
    let fr := s.freezeCount l x
    let s := s.putLoop l { r with miss := 0, freeze := fr }
    if s.lf l 0x5C 31 16 ≠ 0 ∧ max 2 (s.lf l 0x5C 31 16) ≤ fr then s.loopSafe l 5
    else
      s.putLoop l { s.loop l with steps := (s.loop l).steps ++ [.run (s.beat + 100) (s.loopLaw l x)] }

/-- A loop whose return has been accepted is in RUN from this sample beat (R464, R525). -/
def State.loopResume (s : State) (l : Nat) : State :=
  if (s.loop l).returning.isNone then s
  else if s.safeCommand then s.loopSafe l 2
  else
    let st := Reg.loopReg l 0x84
    let s := (((s.fset st 1 0 1).fset st 5 2 0).bput st 6 false).bput st 9 false
    (s.putLoop l { s.loop l with
      returning := none, preset := true, miss := 0, freeze := 0, off := false, doneBeat := none,
      steps := (s.loop l).steps.filter LoopStep.isSafe }).syncHandoff

/-- Is this beat a sample beat of loop l, and is the loop to be sampled (R445). -/
def State.loopDue (s : State) (l : Nat) : Bool :=
  decide (s.beat % max 1 (s.lf l 0x04 23 0) = s.lf l 0x08 23 0) &&
    (s.loopState l ≠ 0 || (s.loop l).returning.isSome)

/-- One loop at its sample beat; `bad` when its state or its Waltz words hold an uncorrectable error (R459). -/
def State.loopSampleOne (s : State) (l : Nat) (bad : Bool) : State :=
  let s := (s.homeMove l).loopResume l
  match s.loopState l with
  | 1 => if bad then s.loopSafe l 9 else s.loopRunSample l
  | 2 => if (s.loop l).entry = some s.beat then s else s.safeStep l
  | _ => s

/-- The sample of loop l is discarded by an engine fault (R466). -/
def State.loopSkip (s : State) (l : Nat) : State :=
  let s := (s.homeMove l).loopResume l
  if s.loopState l = 0 then s else (s.loopMark l).count (Reg.loopReg l 0xA4) 1

/-! ### Engines (R466 to R470) -/

/-- Set ROLE, STATE and GROUP of engine e. -/
def State.putEngine (s : State) (e role state group : Nat) : State :=
  ((s.fset (Reg.stpEngStatus e) 1 0 role).fset (Reg.stpEngStatus e) 3 2 state).fset (Reg.stpEngStatus e) 5 4 group

/-- Group k moves from engine `old` to engine `e`. A DRAINING engine becomes DRAINED, and a write of ENABLE = 1 that waits for
that takes effect: it is a STANDBY engine by then and returns to IDLE (R466, R468, R470). -/
def State.moveGroup (s : State) (k e old : Nat) : State :=
  let drained := decide (2 ≤ s.engState old)
  let woken := s.stp.wakeUp.contains old
  let s := (s.fset Reg.stpGrpMap (4 * k + 2) (4 * k) e).fset Reg.stpGrpMap 18 16 old
  let s := (s.putEngine e 0 1 k).putEngine old 1 (if drained && !woken then 3 else 0) k
  let s := { s with stp := { s.stp with wakeUp := s.stp.wakeUp.filter (· ≠ old) } }
  if drained then s.flag (Reg.stpEngStatus old) 9 else s

/-- May the other engine take over from engine `e` (R466, R470). -/
def State.canFailOver (s : State) (e other : Nat) : Bool :=
  s.bit Reg.stpGcfg 0 && s.engRole other ≠ 0 && s.engState other ≠ 3 && s.bit (Reg.stpEngImage other) 16 &&
    s.fget (Reg.stpEngImage other) 15 0 = s.fget (Reg.stpEngImage e) 15 0

/-- What the shadow of group k does with the samples of this beat (R467); `compared` unless the active engine discards them. -/
def State.shadowStep (s : State) (k : Nat) (findings : List SampleFinding) (compared : Bool) : State :=
  let e := s.fget Reg.stpGrpMap 18 16
  if s.engRole e = 2 && s.engGroup e = k && decide (s.stp.shadowFrom < s.beat) then
    if findings.contains .shadowFault then
      (s.flag (Reg.stpEngStatus e) 8).count (Reg.stpEngFaultCount e) 1
    else if !compared then s
    else
      let s := s.count (Reg.stpEngShadowSamples e) 1
      if findings.contains .shadowDiffers then
        (s.count (Reg.stpEngShadowMismatch e) 1).flag (Reg.stpEngStatus e) 10
      else s
  else s

/-- An engine fault of the engine that computes group k, met in the sample of this beat (R466). -/
def State.engineFault (s : State) (k : Nat) (findings : List SampleFinding) (due : List Nat) : State :=
  let e := s.groupEngine k
  let other := s.fget Reg.stpGrpMap 18 16
  let s := (s.flag (Reg.stpEngStatus e) 8).count (Reg.stpEngFaultCount e) 1
  let s := s.shadowStep k findings false
  let s := due.foldl State.loopSkip s
  if s.canFailOver e other then s.moveGroup k other e
  else (List.range 32).foldl (fun s j => s.loopSafe (32 * k + j) 7) s

/-- LOOP_SAMPLE (R445 to R460): at the end of a beat, every loop of one group whose sample beat it is. -/
def execLoopSample (group : Nat) (findings : List SampleFinding) (s : State) : Out :=
  .next <|
    let due := ((List.range 32).map (32 * group + ·)).filter s.loopDue
    if ¬ group < 4 ∨ s.pwr.refLost ∨ spGet (fun _ => 0) s.stp.sampled group = s.beat + 1 ∨ due = [] then s
    else
      let s := { s with stp := { s.stp with sampled := spSet (fun _ => 0) s.stp.sampled group (s.beat + 1) } }
      let e := s.groupEngine group
      if s.engState e = 3 then s
      else if findings.contains .engineFault then s.engineFault group findings due
      else
        due.foldl (fun s l => s.loopSampleOne l (findings.contains (.memoryError l))) (s.shadowStep group findings true)

/-- A sample's output and state take effect (R447, R453). -/
def State.applyRun (s : State) (l : Nat) (x : RunStep) : State :=
  let reg := Reg.loopReg l
  let put (s : State) (r : Nat) (v : Int) : State := s.rset (reg r) (ofInt32 v)
  let s := put (put (put (put (put s 0x88 x.u) 0x8C x.i) 0x90 x.d) 0x94 x.err) 0x98 x.fbv
  let s := (((s.bump (reg 0x9C) 1).tally 0x080 (l / 32) 1).set64 (reg 0xA8) x.sample).bput (reg 0x84) 7 x.osat
  let s := s.bput (reg 0x84) 8 x.isat
  let s := match x.waltz with
    | some (n, v) => s.rset (Reg.stpWaltz (l / 32) n) (ofInt32 v)
    | none => s
  let s := match x.idx with
    | some n => s.fset (reg 0x6C) 11 0 n
    | none => s
  (s.putLoop l { s.loop l with xPrev := x.x, spPrev := x.sp, fbPrev := x.fb, preset := false }).loopEmit l x.u

/-- A safe step takes effect (R459, R460). SAFE_DONE is 0 outside SAFE, and a step of an earlier entry does not set it. -/
def State.applySafe (s : State) (l : Nat) (u : Option Int) (finish : Bool) : State :=
  let s := match u with
    | some v => (s.rset (Reg.loopReg l 0x88) (ofInt32 v)).loopEmit l v
    | none => s
  if finish && s.loopState l = 2 && s.lf l 0x84 6 6 = 0 && ((s.loop l).entry.all fun b => decide (b + 100 ≤ s.beat)) then
    (s.loopFlag l 6).putLoop l { s.loop l with doneBeat := some s.beat }
  else s

/-- A step of loop l takes effect. -/
def State.applyStep (s : State) (l : Nat) : LoopStep → State
  | .run _ x => s.applyRun l x
  | .safe _ u f => s.applySafe l u f

/-- The steps of loop l that are due take effect. -/
def State.loopApply (s : State) (l : Nat) : State :=
  let r := s.loop l
  (r.steps.filter fun p => p.due ≤ s.beat).foldl (fun s p => s.applyStep l p)
    (s.putLoop l { r with steps := r.steps.filter fun p => ¬ p.due ≤ s.beat })

/-- LOOP_OUTPUT_APPLY (R447, R698): at beat b + 100, after the trigger matches of that beat. -/
def execLoopOutputApply (loop : Nat) (s : State) : Out :=
  .next <| if loop < 128 ∧ ¬ s.pwr.refLost ∧ s.placeOpen 7 then s.markTouched ((s.loopApply loop).atPlace 7) else s

/-- The steps of loop l that are due do not take effect: an external reset came in their beat (R388), or the engines stand still
(R688). -/
def State.loopDrop (s : State) (l : Nat) : State :=
  let r := s.loop l
  s.putLoop l { r with steps := r.steps.filter fun p => ¬ p.due ≤ s.beat }

/-- What is due in this beat and was not commanded takes effect before the beat ends: outputs (R447), and entries to OFF
(R463); in the beat of an external reset no output does (R388), and none without the system reference (R688). -/
def State.loopsDue (s : State) : State :=
  if s.order = 9 ∨ s.pwr.refLost then (s.stp.loops.map (·.1)).foldl State.loopDrop s
  else (s.stp.loops.map (·.1)).foldl (fun s l => (s.loopOffDue l).loopApply l) s

/-! ### Writes of the loop registers -/

/-- The structural fields of STP_Lj_CFG (R456). -/
def cfgStructural : Word := 0x00007E3E

/-- Does a write of register r change a structural field (R456). -/
def State.structuralChange (s : State) (l r : Nat) (v : Word) : Bool :=
  let d := s.rget (Reg.loopReg l r) ^^^ v
  if r = 0 then d &&& cfgStructural ≠ 0
  else if r = 0x04 ∨ r = 0x08 then d &&& maskOf 23 0 ≠ 0
  else if r = 0x0C then d &&& (maskOf 24 16 ||| maskOf 12 0) ≠ 0
  else if r = 0x10 ∨ r = 0x14 then d &&& maskOf 22 0 ≠ 0
  else if r = 0x64 then d &&& (maskOf 11 0 ||| maskOf 27 16) ≠ 0
  else false

/-- Is a value of the IO register within the limits (R448, R450, R471). -/
def ioValid (v : Word) : Bool :=
  decide (fieldOf v 2 0 ≤ 3 ∧ fieldOf v 12 8 ≤ 16) &&
    (decide (2 ≤ fieldOf v 2 0) || decide (fieldOf v 7 3 ≤ 15)) &&
    (decide (fieldOf v 2 0 ≠ 2) || decide (fieldOf v 7 3 ≤ 7)) &&
    (decide (fieldOf v 17 16 ≠ 1) || decide (fieldOf v 24 18 ≤ 23))

/-- Is a value within the limits of register r (R445, R454, R471). -/
def State.loopValueValid (s : State) (l r : Nat) (v : Word) : Bool :=
  let base := s.lf l 0x68 12 0
  match r with
  | 0x00 => !bitOf v 0 || decide (s.lf l 0x08 23 0 < s.lf l 0x04 23 0)
  | 0x04 => decide (125 ≤ fieldOf v 23 0)
  | 0x0C => ioValid v
  | 0x10 | 0x14 | 0x70 => decide (fieldOf v 2 0 = 0)
  | 0x64 =>
    let np := fieldOf v 11 0 + 1
    decide (2 ≤ np ∧ fieldOf v 27 16 < np ∧ base + np ≤ 8192)
  | 0x68 => decide (fieldOf v 12 0 + s.waltzLen l ≤ 8192)
  | 0x6C => decide (fieldOf v 11 0 < s.waltzLen l)
  | 0x74 => decide (1 ≤ fieldOf v 16 0 ∧ fieldOf v 16 0 ≤ 65536)
  | _ => true

/-- Is a write of register r of loop l refused (R454, R456, R471, R492). -/
def State.loopWriteRefused (s : State) (l r : Nat) (v : Word) : Bool :=
  (s.structuralChange l r v && s.loopState l ≠ 0) || !s.loopValueValid l r v

/-- Did loop l, which is in SAFE, enter it in this beat (R465). -/
def State.entryNow (s : State) (l : Nat) : Bool := s.loopState l = 2 && (s.loop l).entry == some s.beat

/-- A write that asks for the return of loop l reaches it in this beat (R465). -/
def State.loopAsk (s : State) (l : Nat) : State :=
  s.putLoop l { s.loop l with asked := some (s.beat, s.rget (Reg.loopReg l 0)) }

/-- A write of STP_Lj_CFG that the limits do not refuse. One of ENABLE = 1 that is refused changes nothing (R464, R465). -/
def State.loopCfgPut (s : State) (l : Nat) (v : Word) : State :=
  if bitOf v 0 then
    if s.entryNow l || (s.loopState l = 0 && s.safeCommand) then s.loopFlag l 12
    else
      let s := (s.loopAsk l).putRw (Reg.loopReg l 0) v
      if s.loopState l = 0 ∧ (s.loop l).returning.isNone then s.loopStart l else s
  else (s.putRw (Reg.loopReg l 0) v).loopStop l

/-- Is a write of RESTART to loop l, which is not in RUN, refused (R464, R465). -/
def State.restartRefused (s : State) (l : Nat) : Bool :=
  s.loopState l = 0 || s.safeCommand || s.groupStopped l || s.entryNow l ||
    (s.lf l 0x84 5 2 = 3 && s.bit (Reg.mioAxStatus (s.lf l 0 14 10)) 0)

/-- A write of STP_Lj_CTRL.RESTART (R464, R465). -/
def State.loopRestart (s : State) (l : Nat) : State :=
  if s.loopState l = 1 then s.loopAsk l
  else if s.restartRefused l then s.loopFlag l 12
  else if (s.loop l).returning.isSome then s
  else s.loopReturn l

/-- A write of STP_Lj_CTRL: RESTART, then SAFE, which cancels a return that the same write asks for (R465). -/
def State.loopCtrlWrite (s : State) (l : Nat) (v : Word) : State :=
  let s := if bitOf v 0 then s.loopRestart l else s
  if bitOf v 1 then s.loopSafe l 8 else s

/-- A write of STP_Lj_TRAJ_START_HI applies the trajectory (R449). -/
def State.trajWrite (s : State) (l : Nat) (v : Word) : State :=
  let s := s.rset (Reg.loopReg l 0x7C) v
  s.putLoop l { s.loop l with
    trajBase := s.lf l 0x70 22 0, trajLen := s.lf l 0x74 16 0, trajStart := s.get64 (Reg.loopReg l 0x78) }

/-- A write of STP_Lj_WALTZ_IDX sets the index for the next sample (R454): a sample under way leaves it. -/
def State.waltzIdxWrite (s : State) (l : Nat) (v : Word) : State :=
  let s := s.putRw (Reg.loopReg l 0x6C) v
  let keep : LoopStep → LoopStep
    | .run b x => .run b { x with idx := none }
    | p => p
  s.putLoop l { s.loop l with steps := (s.loop l).steps.map keep }

/-- A write of STP_Lj_STATUS: SAFE_PEND follows SAFE_SET. -/
def State.loopStatusWrite (s : State) (l : Nat) (v : Word) : State :=
  let s := s.putTyped (Reg.loopReg l 0x84) v 0
  s.bput (Reg.stpSafePend (l / 32)) (l % 32) (s.lf l 0x84 10 10 = 1)

/-- The write rule of register r of loop l. -/
def State.loopWrite (s : State) (l r : Nat) (v : Word) : State :=
  if s.loopWriteRefused l r v then s.loopRefuse l
  else
    match r with
    | 0x00 => s.loopCfgPut l v
    | 0x18 => s.spWrite l v
    | 0x64 =>
      let moved := decide (fieldOf (s.rget (Reg.loopReg l 0x64) ^^^ v) 11 0 ≠ 0)
      let s := s.putRw (Reg.loopReg l 0x64) v
      if moved then s.fset (Reg.loopReg l 0x6C) 11 0 0 else s
    | 0x6C => s.waltzIdxWrite l v
    | 0x7C => s.trajWrite l v
    | 0x80 => s.loopCtrlWrite l v
    | 0x84 => s.loopStatusWrite l v
    | _ => s.putTyped (Reg.loopReg l r) v 0

/-- A write of register r of loop l by a command row. -/
def loopCommand (who : Initiator) (l r : Nat) (v : Word) (s : State) : Out :=
  s.named (decide (l < 128)) <| s.softWrite who (Reg.loopReg l r) v fun s v => s.loopWrite l r v

/-- LOOP_ENABLE (R464): a write of STP_Lj_CFG with ENABLE = 1. -/
def execLoopEnable (who : Initiator) (loop : Nat) (cfg : Word) (s : State) : Out :=
  loopCommand who loop 0 (cfg ||| 1) s

/-- LOOP_DISABLE (R463): a write of STP_Lj_CFG with ENABLE = 0. -/
def execLoopDisable (who : Initiator) (loop : Nat) (cfg : Word) (s : State) : Out :=
  loopCommand who loop 0 (cfg &&& ~~~ 1) s

/-- LOOP_RESTART (R464). -/
def execLoopRestart (who : Initiator) (loop : Nat) (s : State) : Out := loopCommand who loop 0x80 1 s

/-- LOOP_SAFE (R459). -/
def execLoopSafe (who : Initiator) (loop : Nat) (s : State) : Out := loopCommand who loop 0x80 2 s

/-- The registers with structural fields (R456). -/
def structuralRegs : List Nat := [0x00, 0x04, 0x08, 0x0C, 0x10, 0x14, 0x64]

/-- LOOP_CFG_WRITE (R456). -/
def execLoopCfgWrite (who : Initiator) (loop offset : Nat) (value : Word) (s : State) : Out :=
  s.named (decide (loop < 128) && structuralRegs.contains offset) <|
    s.softWrite who (Reg.loopReg loop offset) value fun s v => s.loopWrite loop offset v

/-- TRAJ_START_HI_WRITE (R449). -/
def execTrajStartHiWrite (who : Initiator) (loop : Nat) (value : Word) (s : State) : Out :=
  loopCommand who loop 0x7C value s

/-- WALTZ_IDX_WRITE (R454). -/
def execWaltzIdxWrite (who : Initiator) (loop : Nat) (value : Word) (s : State) : Out :=
  loopCommand who loop 0x6C value s

/-- WALTZ_BASE_WRITE (R454). -/
def execWaltzBaseWrite (who : Initiator) (loop : Nat) (value : Word) (s : State) : Out :=
  loopCommand who loop 0x68 value s

/-! ### Writes of the engine registers -/

/-- ENABLE = 0 (R470). -/
def State.engineDisable (s : State) (e : Nat) : State :=
  if s.engRole e ≠ 0 then
    if s.engState e = 3 then s
    else
      (s.putEngine e 1 3 (s.engGroup e)).flag (Reg.stpEngStatus e) 9
  else if 2 ≤ s.engState e then
    { s with stp := { s.stp with wakeUp := s.stp.wakeUp.filter (· ≠ e) } }
  else
    let k := s.engGroup e
    let s := s.fset (Reg.stpEngStatus e) 3 2 2
    let s := (List.range 32).foldl (fun s j =>
      let l := 32 * k + j
      let keep := s.lf l 0 0 0
      (s.loopStop l).fset (Reg.loopReg l 0) 0 0 keep) s
    s.drainCheck k

/-- ENABLE = 1 (R470). -/
def State.engineEnable (s : State) (e : Nat) : State :=
  if s.engState e = 2 then { s with stp := { s.stp with wakeUp := (e :: s.stp.wakeUp).dedup } }
  else if s.engState e = 3 then
    (if s.engRole e = 0 then s.engineWake e else s.fset (Reg.stpEngStatus e) 3 2 0)
  else s

/-- SHADOW_START (R467). -/
def State.shadowStart (s : State) (e : Nat) (v : Word) : State :=
  if s.engRole e = 1 ∧ s.engState e ≠ 3 then
    let s := (s.putEngine e 2 1 (fieldOf v 5 4)).rset (Reg.stpEngShadowSamples e) 0
    let s := s.rset (Reg.stpEngShadowMismatch e) 0
    { s with stp := { s.stp with shadowFrom := s.beat } }
  else s

/-- SHADOW_STOP (R467). -/
def State.shadowStop (s : State) (e : Nat) : State :=
  if s.engRole e = 2 then s.putEngine e 1 0 (s.engGroup e) else s

/-- A write of STP_ENG_CTRL: ENABLE, then SHADOW_STOP, then SHADOW_START. -/
def State.engCtrlWrite (s : State) (e : Nat) (v : Word) : State :=
  let s := s.putRw (Reg.stpEngCtrl e) v
  let s := if bitOf v 0 then s.engineEnable e else s.engineDisable e
  let s := if bitOf v 2 then s.shadowStop e else s
  if bitOf v 1 then s.shadowStart e v else s

/-- A write of STP_ENG_CTRL by a command row. -/
def engCommand (who : Initiator) (e : Nat) (v : Word) (s : State) : Out :=
  s.named (decide (e < 5)) <| s.softWrite who (Reg.stpEngCtrl e) v fun s v => s.engCtrlWrite e v

/-- SHADOW_START (R467). -/
def execShadowStart (who : Initiator) (engine : Nat) (value : Word) (s : State) : Out :=
  engCommand who engine (value ||| 2) s

/-- SHADOW_STOP (R467). -/
def execShadowStop (who : Initiator) (engine : Nat) (value : Word) (s : State) : Out :=
  engCommand who engine (value ||| 4) s

/-- ENGINE_DISABLE (R470). -/
def execEngineDisable (who : Initiator) (engine : Nat) (value : Word) (s : State) : Out :=
  engCommand who engine (value &&& ~~~ 1) s

/-- ENGINE_ENABLE (R470). -/
def execEngineEnable (who : Initiator) (engine : Nat) (value : Word) (s : State) : Out :=
  engCommand who engine (value ||| 1) s

/-- The first refusal of R469 that applies to a hand-over; 0 is none. -/
def State.handoverErr (s : State) (v : Word) : Nat :=
  let e := fieldOf v 6 4
  if 5 ≤ e || s.engRole e ≠ 2 || s.engGroup e ≠ fieldOf v 1 0 || s.stp.handover.isSome then 1
  else if !s.bit (Reg.stpEngImage e) 16 then 2
  else if (s.rget (Reg.stpEngShadowSamples e)).toNat < max 1 (s.fget Reg.stpShadowMin 23 0) then 3
  else if s.rget (Reg.stpEngShadowMismatch e) ≠ 0 && !bitOf v 8 then 4
  else 0

/-- A direct hand-over is refused (R469). -/
def State.handoverRefuse (s : State) (err : Nat) : State :=
  (s.flag Reg.stpHandoverStatus 1).fset Reg.stpHandoverStatus 7 4 err

/-- A hand-over takes effect in this beat (R468). -/
def State.handoverDo (s : State) (v : Word) : State :=
  let k := fieldOf v 1 0
  let s := s.moveGroup k (fieldOf v 6 4) (s.groupEngine k)
  (s.set64 Reg.stpHandoverBeatLo s.beat).flag Reg.stpHandoverStatus 0

/-- A direct write of STP_HANDOVER (R468, R469): one with GO that is refused changes nothing else. -/
def State.handoverWrite (s : State) (v : Word) : State :=
  if !bitOf v 31 then s.putRw Reg.stpHandover v
  else if s.handoverErr v ≠ 0 then s.handoverRefuse (s.handoverErr v)
  else
    let s := s.putRw Reg.stpHandover v
    { s with stp := { s.stp with handover := some (v, s.beat + 2) } }

/-- HANDOVER_GO (R468). -/
def execHandoverGo (who : Initiator) (value : Word) (s : State) : Out :=
  .next (s.softWrite who Reg.stpHandover (value ||| 0x80000000) fun s v => s.handoverWrite v)

/-- A direct hand-over whose beat H is this one takes effect, or is refused (R468, R469). -/
def State.handoverDue (s : State) : State :=
  match s.stp.handover with
  | none => s
  | some (v, h) =>
    if s.beat ≠ h then s
    else
      let s := { s with stp := { s.stp with handover := none } }
      if s.handoverErr v ≠ 0 then s.handoverRefuse (s.handoverErr v) else s.handoverDo v

/-- HANDOVER_APPLY (R468, R469, R700): at beat H, before every event of that beat. -/
def execHandoverApply (s : State) : Out := .next s.handoverDue

/-- The write rule of STP block e. -/
def State.stpWrite (s : State) (e o : Nat) (v : Word) : State :=
  if o = 0x04 then s.engCtrlWrite e v
  else if e = 0 ∧ o = 0x10C then s.handoverWrite v
  else if 0x1000 ≤ o ∧ o < 0x3000 ∧ e < 4 then s.loopWrite (32 * e + (o - 0x1000) / 0x100) (o % 0x100) v
  else s.putTyped (0x10130000 + 0x10000 * e + o) v 0

end Sys2Proof.Machine
end

