-- ==== Sys2Proof/Machine/Motion.lean ====
section
/-!
DEFINITION. Machine/Motion.lean: encoders, absolute encoders, PWM pairs, limit inputs, homing and UARTs (R472 to R499).
-/

namespace Sys2Proof.Machine

/-- Change what motion I/O holds beside its registers. -/
def State.withMio (s : State) (f : Motion → Motion) : State := { s with mio := f s.mio }

/-! ### Axes (R473, R474) -/

/-- The axes that name this encoder: kind 1 quadrature, 2 absolute. -/
def State.encAxes (s : State) (kind n : Nat) : List Nat :=
  (List.range 32).filter fun a => s.fget (Reg.mioAxCfg a) 1 0 = kind && s.fget (Reg.mioAxCfg a) 5 2 = n

/-- An encoder's fault stands: the axes that name it have their ENC cause set (R476, R483). -/
def State.encRaise (s : State) (kind n : Nat) : State :=
  (s.encAxes kind n).foldl (fun s a => s.axisFault a 3) s

/-- The fault of the encoder that axis a names. -/
def State.axisEncFault (s : State) (a : Nat) : Bool :=
  let n := s.fget (Reg.mioAxCfg a) 5 2
  match s.fget (Reg.mioAxCfg a) 1 0 with
  | 1 => s.bit (Reg.mioEncStatus n) 0
  | 2 => n < 8 && s.bit (Reg.mioAbsStatus n) 0
  | _ => false

/-- Does limit input i belong to axis a. -/
def State.limOn (s : State) (i a : Nat) : Bool :=
  s.bit (Reg.mioLimCfg i) 15 && s.fget (Reg.mioLimCfg i) 20 16 = a

/-- Bounces of input i in the current window. -/
def State.bounces (s : State) (i : Nat) : Nat := spGet (fun _ => 0) s.mio.limBounce i

/-- Is input i over its CHAT_MAX (R489). -/
def State.chattering (s : State) (i : Nat) : Bool :=
  let m := s.fget (Reg.mioLimCfg i) 29 22
  decide (m ≠ 0 ∧ m < s.bounces i)

/-- Is input i a limit input: ROLE LIMIT_POS or LIMIT_NEG, with LIMIT_FAULT. -/
def State.limFaults (s : State) (i : Nat) : Bool :=
  let role := s.fget (Reg.mioLimCfg i) 14 13
  (role = 1 || role = 2) && s.bit (Reg.mioLimCfg i) 21

/-- Does the condition of cause bit k of axis a still hold (R474). -/
def State.causeHolds (s : State) (a k : Nat) : Bool :=
  match k with
  | 1 => (List.range 32).any fun i => s.limOn i a && s.limFaults i && s.bit (Reg.mioLimStatus i) 0
  | 2 => (List.range 32).any fun i => s.limOn i a && s.chattering i
  | 3 => s.axisEncFault a
  | _ => false

/-- FAULT and MIO_STATUS.AXIS_FAULT follow the cause bits (R473). -/
def State.syncAxis (s : State) (a : Nat) : State :=
  let s := s.bput (Reg.mioAxStatus a) 0 (s.fget (Reg.mioAxStatus a) 5 1 ≠ 0)
  s.bput Reg.mioStatus 6 ((List.range 32).any fun a => s.bit (Reg.mioAxStatus a) 0)

/-- A write of MIO_AXa_STATUS (R474). -/
def State.axisClear (s : State) (a : Nat) (v : Word) : State :=
  ([1, 2, 3, 4, 5].foldl (fun s k =>
    if bitOf v k && !s.causeHolds a k then s.bput (Reg.mioAxStatus a) k false else s) s).syncAxis a

/-- AXIS_CAUSE_CLEAR (R474). -/
def execAxisCauseClear (who : Initiator) (axis : Nat) (value : Word) (s : State) : Out :=
  s.named (decide (axis < 32)) <| s.softWrite who (Reg.mioAxStatus axis) value fun s v => s.axisClear axis v

/-! ### Homing (R491 to R496) -/

/-- The axis that homing moves, and its encoder. -/
def State.homeAxis (s : State) : Nat := s.fget Reg.mioHomeCfg 4 0
def State.homeEnc (s : State) : Nat := s.fget (Reg.mioAxCfg s.homeAxis) 5 2

/-- The counter of encoder n. -/
def State.encCount (s : State) (n : Nat) : Word := s.rget (Reg.mioEncCount n)

/-- How far the counter has moved from a value (R93). -/
def State.encMoved (s : State) (n : Nat) (start : Int) : Nat := (s.encCount n - ofInt32 start).toInt.natAbs

/-- The checks of R496 on the counter. -/
def State.homeCountCheck (s : State) : State :=
  if !s.homing then s
  else if (s.rget Reg.mioHomeTravel).toNat < s.encMoved s.homeEnc s.mio.homeStart then s.homeAbort 2
  else if s.fget Reg.mioHomeStatus 2 0 = 2 && decide
      (s.fget (Reg.mioEncCpr s.homeEnc) 23 0 < s.encMoved s.homeEnc s.mio.homeEntry) then s.homeAbort 3
  else s

/-- Do the conditions of R491 hold. -/
def State.homeReady (s : State) : Bool :=
  let i := s.fget Reg.mioHomeCfg 12 8
  let l := s.homeLoop
  !s.homing && s.fget (Reg.mioAxCfg s.homeAxis) 1 0 = 1 && s.loopState l = 1 && s.lf l 0x0C 2 0 = 0 &&
    s.lf l 0x0C 7 3 = s.homeEnc && s.limOn i s.homeAxis && s.fget (Reg.mioLimCfg i) 14 13 ≠ 0 &&
    s.fget Reg.mioHomeCfg 17 16 ≠ 3

/-- GO (R491). -/
def State.homeGo (s : State) : State :=
  if !s.homeReady then s.homeEnd 9
  else
    let c := (s.encCount s.homeEnc).toInt
    let s := s.fset Reg.mioHomeStatus 2 0 (if s.fget Reg.mioHomeCfg 17 16 = 2 then 2 else 1)
    s.withMio fun m => { m with homeStart := c, homeEntry := c, homeIndexFrom := 0, homeAbort := none }

/-- A write of MIO_HOME_CTRL: GO, then ABORT. -/
def State.homeCtrlWrite (s : State) (v : Word) : State :=
  let s := if bitOf v 0 then s.homeGo else s
  if bitOf v 1 then s.homeAbort 7 else s

/-- HOME_GO (R491). -/
def execHomeGo (who : Initiator) (value : Word) (s : State) : Out :=
  .next (s.softWrite who Reg.mioHomeCtrl (value ||| 1) fun s v => s.homeCtrlWrite v)

/-- HOME_ABORT (R496). -/
def execHomeAbort (who : Initiator) (value : Word) (s : State) : Out :=
  .next (s.softWrite who Reg.mioHomeCtrl (value ||| 2) fun s v => s.homeCtrlWrite v)

/-- Shift what a loop remembers by d (R495). -/
def LoopRun.shift (r : LoopRun) (d : Int) (onMeas : Bool) : LoopRun :=
  let dx := if onMeas then -d else 0
  let move : LoopStep → LoopStep
    | .run b x => .run b { x with fb := satQ (x.fb + d), x := x.x + dx, sp := x.sp + d }
    | p => p
  { r with fbPrev := satQ (r.fbPrev + d), xPrev := r.xPrev + dx, spPrev := r.spPrev + d, steps := r.steps.map move }

/-- Homing sets the counter to HOME_POS without a bump (R495). -/
def State.homeSet (s : State) : State :=
  let n := s.homeEnc
  let l := s.homeLoop
  let delta := (s.rget Reg.mioHomePos - s.encCount n).toInt
  let d := delta * 2 ^ min 16 (s.lf l 0x0C 12 8)
  let s := s.rset (Reg.mioEncCount n) (s.rget Reg.mioHomePos)
  let s := s.rset (Reg.loopReg l 0x18) (qMoved (s.rget (Reg.loopReg l 0x18)) d)
  s.putLoop l ((s.loop l).shift d (s.lf l 0 2 2 = 1))

/-- Homing is DONE. -/
def State.homeDone (s : State) : State := (s.fset Reg.mioHomeStatus 2 0 3).flag Reg.mioHomeStatus 8

/-- The expected switch trips in SWITCH (R493). -/
def State.homeSwitch (s : State) : State :=
  if s.fget Reg.mioHomeCfg 17 16 = 0 then s.homeSet.homeDone
  else s.withMio fun m => { m with homeIndexFrom := 1 }

/-- The first index in INDEX (R494). -/
def State.homeIndex (s : State) : State :=
  let n := s.homeEnc
  let s := s.homeSet.rset (Reg.mioEncIndexRef n) (s.rget Reg.mioHomePos)
  ((s.flag (Reg.mioEncCfg n) 11).flag (Reg.mioEncStatus n) 3).homeDone

/-! ### Quadrature encoders (R475 to R480) -/

/-- The sense of a legal change to (a, b) from a state with A at a0. -/
def encUp (a0 a b : Bool) : Bool := ((a != a0) == (a != b)) == Config.aLeadsUp

/-- An encoder counts (R475). -/
def State.encStep (s : State) (n : Nat) (up : Bool) : State :=
  let d : Word := if up != s.bit (Reg.mioEncCfg n) 1 then 1 else -1
  ((s.rset (Reg.mioEncCount n) (s.encCount n + d)).rset (Reg.mioEncRaw n)
    (s.rget (Reg.mioEncRaw n) + d)).homeCountCheck

/-- The inputs of encoder n. -/
def State.encPins (s : State) (n : Nat) : EncPins := spGet (fun _ => EncPins.low) s.mio.encs n

/-- Give encoder n new inputs. -/
def State.putEncPins (s : State) (n : Nat) (p : EncPins) : State :=
  s.withMio fun m => { m with encs := spSet (fun _ => EncPins.low) m.encs n p }

/-- FILT of encoder n. -/
def State.encFilt (s : State) (n : Nat) : Nat := s.fget (Reg.mioEncCfg n) 5 2

/-- The input is sampled at level v in a beat. -/
def PinFilter.sample (p : PinFilter) (beat : Nat) (v : Bool) : PinFilter :=
  if v = p.raw then p else { p with raw := v, since := beat }

/-- Has the input held a level other than its filtered one for FILT + 1 consecutive beats, this one included (R475). -/
def PinFilter.due (p : PinFilter) (filt beat : Nat) : Bool := p.raw != p.level && decide (p.since + filt ≤ beat)

/-- The filtered level takes the level that the input has held for FILT + 1 beats (R475). -/
def PinFilter.settle (p : PinFilter) (filt beat : Nat) : PinFilter :=
  if p.due filt beat then { p with level := p.raw } else p

/-- The filtered (A, B) of encoder n changes from `old`: a legal change counts, and a change of both is illegal (R475, R476). -/
def State.encChange (s : State) (n : Nat) (old new : Bool × Bool) : State :=
  if !s.bit (Reg.mioEncCfg n) 0 || old == new then s
  else if old.1 ≠ new.1 ∧ old.2 ≠ new.2 then (s.flag (Reg.mioEncStatus n) 0).encRaise 1 n
  else s.encStep n (encUp old.1 new.1 new.2)

/-- ENCODER_STATE_CHANGE (R475, R476): the three inputs are sampled in this beat at levels a, b and z, and have kept in every
beat since the last such command the levels of that command. The filtered levels of A and B change where the new level has
been held for FILT + 1 beats; a fall of filtered Z shows nowhere, and its rise is the command ENCODER_INDEX. -/
def execEncoderStateChange (encoder : Nat) (a b z : Bool) (s : State) : Out :=
  .next <|
    if ¬ encoder < 16 ∨ ¬ s.beating ∨ ¬ s.placeOpen 4 then s
    else
      let p := s.encPins encoder
      let filt := s.encFilt encoder
      let qa := (p.a.sample s.beat a).settle filt s.beat
      let qb := (p.b.sample s.beat b).settle filt s.beat
      let qz := p.z.sample s.beat z
      let qz := if qz.raw then qz else qz.settle filt s.beat
      s.markTouched <|
        ((s.putEncPins encoder ⟨qa, qb, qz⟩).encChange encoder (p.a.level, p.b.level) (qa.level, qb.level)).atPlace 4

/-- The deviation of an index (R479). -/
def State.indexDev (s : State) (n : Nat) : Int :=
  let cpr : Int := s.fget (Reg.mioEncCpr n) 23 0
  let d := (s.encCount n - s.rget (Reg.mioEncIndexRef n)).toInt % cpr
  if (cpr + 1) / 2 ≤ d then d - cpr else d

/-- The check of an index (R479). -/
def State.indexCheck (s : State) (n : Nat) : State :=
  let d := s.indexDev n
  if s.bit (Reg.mioEncCfg n) 11 && decide (s.fget (Reg.mioEncCpr n) 23 0 ≠ 0) &&
      decide (s.fget (Reg.mioEncCfg n) 27 16 < d.natAbs) then
    ((s.rset (Reg.mioEncIndexDev n) (ofInt32 d)).flag (Reg.mioEncStatus n) 2).fset (Reg.mioEncStatus n) 31 16
      (s.fget (Reg.mioEncStatus n) 31 16 + 1)
  else s

/-- What the index does to the counter (R480). -/
def State.indexRezero (s : State) (n : Nat) : State :=
  let k := s.fget (Reg.mioEncCfg n) 10 9
  if k = 1 ∨ k = 2 then
    let s := (s.rset (Reg.mioEncCount n) (s.rget (Reg.mioEncIndexRef n))).flag (Reg.mioEncStatus n) 3
    if k = 1 then s.fset (Reg.mioEncCfg n) 10 9 0 else s
  else s

/-- Is an index qualified (R478). -/
def State.indexQualified (s : State) (n : Nat) : Bool :=
  s.bit (Reg.mioEncCfg n) 0 &&
    (!s.bit (Reg.mioEncCfg n) 6 ||
      s.fget (Reg.mioEncCfg n) 8 7 = 2 * b2n (s.encPins n).b.level + b2n (s.encPins n).a.level)

/-- What a qualified index of encoder n does (R478 to R480, R494). -/
def State.indexTake (s : State) (n : Nat) : State :=
  let s := (s.rset (Reg.mioEncIndexPos n) (s.encCount n)).flag (Reg.mioEncStatus n) 1
  let s := (s.indexCheck n).indexRezero n
  if !s.homing || s.homeEnc ≠ n then s
  else if s.fget Reg.mioHomeStatus 2 0 = 2 then s.homeIndex
  else s.homeCountCheck

/-- ENCODER_INDEX (R475, R478 to R480, R494): filtered Z rises in this beat, event order 4. -/
def execEncoderIndex (encoder : Nat) (s : State) : Out :=
  .next <|
    let p := s.encPins encoder
    if encoder < 16 ∧ s.beating ∧ s.placeOpen 4 ∧ p.z.raw ∧ p.z.due (s.encFilt encoder) s.beat then
      let t := s.putEncPins encoder { p with z := p.z.settle (s.encFilt encoder) s.beat }
      s.markTouched ((if t.indexQualified encoder then t.indexTake encoder else t).atPlace 4)
    else s

/-! ### Absolute encoders (R481 to R483) -/

/-- Absolute input n beside its registers. -/
def State.absIn (s : State) (n : Nat) : AbsIn := spGet (fun _ => AbsIn.idle) s.mio.abss n

/-- Give absolute input n a new hidden part. -/
def State.putAbs (s : State) (n : Nat) (r : AbsIn) : State :=
  s.withMio fun m => { m with abss := spSet (fun _ => AbsIn.idle) m.abss n r }

/-- A binary number from its Gray code of at most 32 bits. -/
def grayDecode (g : Nat) : Nat :=
  [16, 8, 4, 2, 1].foldl (fun v k => v ^^^ (v / 2 ^ k)) g

/-- ABS_FRAME_START (R481): the data line in the frame's start beat. -/
def execAbsFrameStart (input : Nat) (lineHigh : Bool) (s : State) : Out :=
  .next <|
    if input < 8 ∧ s.bit (Reg.mioAbsCfg input) 0 ∧
        s.beat % max 1 (s.fget (Reg.mioAbsPeriod input) 23 0) = s.fget (Reg.mioAbsPhase input) 23 0 ∧ s.beating then
      s.putAbs input { s.absIn input with start := some (s.beat, lineHigh) }
    else s

/-- Is a code within MAX_STEP of the last valid one (R482). -/
def State.absStepOk (s : State) (n code : Nat) : Bool :=
  let bits := s.fget (Reg.mioAbsCfg n) 5 1 + 1
  let m := (s.rget (Reg.mioAbsMaxStep n)).toNat
  match (s.absIn n).last with
  | none => true
  | some c => decide (m = 0) || decide ((sext bits (code + 2 ^ bits - c % 2 ^ bits)).natAbs ≤ m)

/-- A valid frame (R482). -/
def State.absValid (s : State) (n code : Nat) : State :=
  let r := s.absIn n
  ((s.rset (Reg.mioAbsPos n) (toWord code + s.rget (Reg.mioAbsOffset n))).flag (Reg.mioAbsStatus n) 1).putAbs n
    { r with start := none, last := some code, frames := r.frames + 1, badRun := 0 }

/-- An invalid frame (R483). -/
def State.absInvalid (s : State) (n : Nat) : State :=
  let r := s.absIn n
  let s := (s.count (Reg.mioAbsErrCount n) 1).bput (Reg.mioAbsStatus n) 1 false
  let s := s.putAbs n { r with start := none, badRun := r.badRun + 1 }
  if max 1 (s.fget (Reg.mioAbsCfg n) 31 25) ≤ r.badRun + 1 then
    (s.flag (Reg.mioAbsStatus n) 0).encRaise 2 n
  else s

/-- The clock periods of a frame: one without data, the data bits, and the error and parity bits that are enabled (R481). -/
def absPeriods (cfg : Word) : Nat := fieldOf cfg 5 1 + 2 + b2n (bitOf cfg 7) + b2n (bitOf cfg 8)

/-- The length of a frame in beats, from its start to its last sample, where the clock rises at the end of each period
(DEDUCED, log entry 42). -/
def absFrameBeats (cfg : Word) : Nat := 2 * fieldOf cfg 18 9 * absPeriods cfg + fieldOf cfg 24 19

/-- ABS_FRAME_END (R482, R483): at the end of the beat of the frame's last sample, which comes SDLY beats after a rising
edge in the frame's last clock period. The frame of an input that has been disabled is no frame. -/
def execAbsFrameEnd (input code : Nat) (errorBit parityOk : Bool) (s : State) : Out :=
  .next <|
    match (s.absIn input).start with
    | none => s
    | some (start, high) =>
      let cfg := s.rget (Reg.mioAbsCfg input)
      let last := 2 * fieldOf cfg 18 9 * (absPeriods cfg - 1) + fieldOf cfg 24 19
      let c := code % 2 ^ (fieldOf cfg 5 1 + 1)
      let c := if bitOf cfg 6 then grayDecode c else c
      if !bitOf cfg 0 then s.putAbs input { s.absIn input with start := none }
      else if s.beat < start + last then s
      else s.markTouched <|
        if high && (parityOk || !bitOf cfg 8) && (!errorBit || !bitOf cfg 7) && s.absStepOk input c then
          s.absValid input c
        else s.absInvalid input

/-! ### PWM pairs (R484 to R487) -/

/-- PWM pair n beside its registers. -/
def State.pwm (s : State) (n : Nat) : PwmRun := spGet (fun _ => PwmRun.idle) s.mio.pwms n

/-- Give PWM pair n a new hidden part. -/
def State.putPwm (s : State) (n : Nat) (r : PwmRun) : State :=
  s.withMio fun m => { m with pwms := spSet (fun _ => PwmRun.idle) m.pwms n r }

/-- Non-empty intervals only. -/
def onIntervals (ivs : List (Nat × Nat)) : List (Nat × Nat) := ivs.filter fun v => v.1 < v.2

/-- The earliest turn-on at the start of a period: DEAD after the other switch's last turn-off in the period before,
which was `p` ns long (R486). -/
def wrapDelay (dead p : Nat) (other : List (Nat × Nat)) : Nat :=
  match other.getLast? with
  | none => 0
  | some v => dead - (p - v.2)

/-- The two switches in a complementary mode: the high side nominally on [h0, h1) of a period of p ns, with dead time
(R486). `old` is the period before, `q` ns long. -/
def complementary (dead p h0 h1 q : Nat) (old : PwmRun) : List (Nat × Nat) × List (Nat × Nat) :=
  if h0 = h1 then ([], onIntervals [(wrapDelay dead q old.hi, p)])
  else
    (onIntervals [(if h0 = 0 then wrapDelay dead q old.lo else h0 + dead, h1)],
      onIntervals [(wrapDelay dead q old.hi, h0), (h1 + dead, p)])

/-- Do two non-empty intervals come within DEAD ns of each other, around a period of p ns (R487). -/
def tooClose (dead p : Nat) (x y : Nat × Nat) : Bool :=
  if x.1 < y.2 ∧ y.1 < x.2 then true
  else if x.2 ≤ y.1 then decide (y.1 - x.2 < dead ∨ x.1 + p - y.2 < dead)
  else decide (x.1 - y.2 < dead ∨ y.1 + p - x.2 < dead)

/-- What the pair latches and computes at a period start: the on-intervals, and whether the command is refused
(R486, R487). For a DUTY that is not-a-number, which R161 never uses as a value, the high-side time is free (log entry 40). -/
def State.pwmLatch (s : State) (n : Nat) : PwmRun × Bool :=
  let cfg := s.rget (Reg.mioPwmCfg n)
  let p := 8 * s.fget (Reg.mioPwmPeriod n) 16 0
  let dead := s.fget (Reg.mioPwmTiming n) 9 0
  let old := s.pwm n
  let q := 8 * (s.beat - old.start)
  let d := (clampI (s.rget (Reg.mioPwmDuty n)).toInt 0 65536).toNat
  let h := if s.rget (Reg.mioPwmDuty n) = qNan then Config.freeNat s.freeCtr % (p + 1) else (2 * d * p + 65536) / 131072
  let edge (r : Nat) : Nat := min p (s.fget r 19 0)
  let mk (v : List (Nat × Nat) × List (Nat × Nat)) : PwmRun := ⟨s.beat, v.1, v.2⟩
  let checked (hi lo : List (Nat × Nat)) : PwmRun × Bool :=
    if hi.any fun x => lo.any fun y => tooClose dead p x y then (mk ([], []), true) else (mk (hi, lo), false)
  if bitOf cfg 4 && bitOf cfg 5 then checked [(0, p)] [(0, p)]
  else if bitOf cfg 4 then (mk ([(0, p)], []), false)
  else if bitOf cfg 5 then (mk ([], [(0, p)]), false)
  else
    match fieldOf cfg 1 0 with
    | 0 => (mk ([], []), false)
    | 1 => (mk (complementary dead p 0 h q old), false)
    | 2 => (mk (complementary dead p ((p - h) / 2) ((p - h) / 2 + h) q old), false)
    | _ =>
      checked (onIntervals [(edge (Reg.mioPwmHiOn n), edge (Reg.mioPwmHiOff n))])
        (onIntervals [(edge (Reg.mioPwmLoOn n), edge (Reg.mioPwmLoOff n))])

/-- A refused period (R487). -/
def State.pwmRefuse (s : State) (n : Nat) : State :=
  let s := ((s.flag (Reg.mioPwmStatus n) 0).flag Reg.mioStatus 7).count (Reg.mioPwmRefusedCount n) 1
  if s.bit (Reg.mioPwmCfg n) 6 then s.axisFault (s.fget (Reg.mioPwmCfg n) 12 8) 5 else s

/-- Motion I/O is DRAINED once every pair is off (R499). -/
def State.mioSettle (s : State) : State :=
  if s.fget Reg.mioStatus 1 0 = 2 &&
      (List.range 24).all fun n => (s.pwm n).hi.isEmpty && (s.pwm n).lo.isEmpty then
    (s.fset Reg.mioStatus 1 0 3).flag Reg.mioStatus 5
  else s

/-- PWM_PERIOD_START (R484, R485). -/
def execPwmPeriodStart (pair : Nat) (s : State) : Out :=
  .next <|
    if ¬ pair < 24 ∨
        s.beat % max 1 (s.fget (Reg.mioPwmPeriod pair) 16 0) ≠ s.fget (Reg.mioPwmTiming pair) 31 15 then s
    else s.markTouched <|
      if s.mio.killed || s.fget Reg.mioStatus 1 0 ≠ 1 then (s.putPwm pair ⟨s.beat, [], []⟩).mioSettle
      else
        let (r, refused) := s.pwmLatch pair
        let s := { s.putPwm pair r with freeCtr := s.freeCtr + 1 }
        if refused then s.pwmRefuse pair else s

/-- The levels of the pins PWMn_H and PWMn_L now (R484): POL selects the active level. -/
def State.pwmPins (s : State) (n : Nat) : Bool × Bool :=
  let w := s.pwmStatus n
  (bitOf w 1 != s.bit (Reg.mioPwmCfg n) 2, bitOf w 2 != s.bit (Reg.mioPwmCfg n) 3)

/-- Every PWM pair is forced off (R529). -/
def State.pwmKill (s : State) : State := (s.withMio fun m => { m with pwms := [], killed := true }).mioSettle

/-! ### Limit and home inputs (R488 to R490) -/

/-- The raw state of input i changes: the debounce starts, or a bounce counts (R488, R489). -/
def State.limRaw (s : State) (i : Nat) (active : Bool) : State :=
  if s.bit Reg.mioLimRaw i = active then s
  else
    let s := (s.bput Reg.mioLimRaw i active).withMio fun m => { m with
      limSince := spSet (fun _ => 0) m.limSince i s.beat }
    if s.bit Reg.mioLimState i ≠ active then s
    else
      let s := s.withMio fun m => { m with limBounce := spSet (fun _ => 0) m.limBounce i (s.bounces i + 1) }
      let s := s.fset (Reg.mioLimStatus i) 15 8 (min 255 (s.bounces i))
      if !s.chattering i then s
      else
        let s := s.flag (Reg.mioLimStatus i) 2
        if s.bit (Reg.mioLimCfg i) 15 then s.axisFault (s.fget (Reg.mioLimCfg i) 20 16) 2 else s

/-- LIMIT_RAW_CHANGE (R488): the pin takes a level. -/
def execLimitRawChange (input : Nat) (level : Bool) (s : State) : Out :=
  .next <|
    if input < 32 ∧ s.beating ∧ s.placeOpen 3 then
      s.markTouched ((s.limRaw input (level != s.bit (Reg.mioLimCfg input) 0)).atPlace 3)
    else s

/-- Has the raw state of input i, which differs from the debounced one, held for L beats (R488). -/
def State.limHeld (s : State) (i : Nat) : Bool :=
  let len := max 1 (s.fget (Reg.mioLimCfg i) 8 1) * 2 ^ s.fget (Reg.mioLimCfg i) 12 9
  s.bit Reg.mioLimRaw i != s.bit Reg.mioLimState i &&
    decide (spGet (fun _ => 0) s.mio.limSince i + len ≤ s.beat + 1)

/-- The debounced state of input i takes the raw state; a change to active is a trip. -/
def State.limTake (s : State) (i : Nat) : State :=
  let v := s.bit Reg.mioLimRaw i
  let s := (s.bput Reg.mioLimState i v).bput (Reg.mioLimStatus i) 0 v
  if v then s.flag (Reg.mioLimStatus i) 1 else s

/-- Homing meets the trips of one beat (R493, R496). -/
def State.homeTrips (s : State) (trips : List Nat) : State :=
  let exp := s.fget Reg.mioHomeCfg 12 8
  if !s.homing then s
  else if trips.any fun i => i ≠ exp && s.limOn i s.homeAxis then s.homeAbort 1
  else if trips.contains exp && s.fget Reg.mioHomeStatus 2 0 = 1 && s.mio.homeIndexFrom = 0 then s.homeSwitch
  else s

/-- LIMIT_DEBOUNCE_EXPIRY (R488, R490): every input whose raw level has now held for its L beats. -/
def execLimitDebounceExpiry (s : State) : Out :=
  let due := (List.range 32).filter s.limHeld
  let trips := due.filter fun i => s.bit Reg.mioLimRaw i
  let spared (i : Nat) : Bool := s.homing && i == s.fget Reg.mioHomeCfg 12 8 && s.limOn i s.homeAxis
  let faults := trips.filter fun i => s.bit (Reg.mioLimCfg i) 15 && s.limFaults i && !spared i
  .next <| if ¬ s.beating ∨ ¬ s.placeOpen 3 ∨ due = [] then s else s.markTouched <| State.atPlace (k := 3) <|
    faults.foldl (fun s i => s.axisFault (s.fget (Reg.mioLimCfg i) 20 16) 1)
      ((due.foldl State.limTake s).homeTrips trips)

/-- CHATTER_WINDOW_START (R489): at a beat that is a multiple of the window's length. -/
def execChatterWindowStart (s : State) : Out :=
  .next <|
    if s.beat % 2 ^ s.fget Reg.mioCtrl 12 8 = 0 then
      (List.range 32).foldl (fun s i => s.fset (Reg.mioLimStatus i) 15 8 0)
        (s.withMio fun m => { m with limBounce := [] })
    else s

/-! ### UARTs (R497) -/

/-- UART u beside its registers. -/
def State.uart (s : State) (u : Nat) : Uart := spGet (fun _ => Uart.idle) s.mio.uarts u

/-- The registers that show the queues of UART u. -/
def State.showUart (s : State) (u : Nat) : State :=
  let r := s.uart u
  let s := (s.fset (Reg.mioUartStatus u) 6 0 r.rx.length).fset (Reg.mioUartStatus u) 14 8 r.tx.length
  s.rset (Reg.mioUartRx u) <|
    match r.rx with
    | [] => 0
    | (b, f, p) :: _ => toWord (b.toNat + 256 * b2n f + 512 * b2n p + 2 ^ 31)

/-- Give UART u a new hidden part. -/
def State.putUart (s : State) (u : Nat) (r : Uart) : State :=
  (s.withMio fun m => { m with uarts := spSet (fun _ => Uart.idle) m.uarts u r }).showUart u

/-- An enabled UART with nothing on the line takes the next byte. -/
def State.uartFeed (s : State) (u : Nat) : State :=
  let r := s.uart u
  match r.tx with
  | [] => s
  | b :: bs =>
    if s.bit (Reg.mioUartCfg u) 20 && r.sending.isNone then s.putUart u { r with tx := bs, sending := some b } else s

/-- UART_RX_FRAME: a frame ends, `falseStarts` false starts since the frame before. -/
def execUartRxFrame (uart : Nat) (byte : Byte) (framing parityBad : Bool) (falseStarts : Nat) (s : State) : Out :=
  .next <|
    let cfg := s.rget (Reg.mioUartCfg uart)
    if uart < 4 ∧ bitOf cfg 20 then
      let bad := parityBad && bitOf cfg 17
      let b := if bitOf cfg 16 then byte else byte &&& 0x7F
      let s := s.count (Reg.mioUartErrCount uart) (falseStarts + b2n framing + b2n bad)
      let r := s.uart uart
      if 64 ≤ r.rx.length then s.flag (Reg.mioUartStatus uart) 16
      else s.putUart uart { r with rx := r.rx ++ [(b, framing, bad)] }
    else s

/-- A write of MIO_UARTu_POP. -/
def State.uartPop (s : State) (u : Nat) (v : Word) : State :=
  if bitOf v 0 then s.putUart u { s.uart u with rx := (s.uart u).rx.tail } else s

/-- UART_RX_POP. -/
def execUartRxPop (who : Initiator) (uart : Nat) (s : State) : Out :=
  s.named (decide (uart < 4)) <| s.softWrite who (Reg.mioUartPop uart) 1 fun s v => s.uartPop uart v

/-- A write of MIO_UARTu_TX. -/
def State.uartTx (s : State) (u : Nat) (v : Word) : State :=
  let r := s.uart u
  if 64 ≤ r.tx.length then s
  else (s.putUart u { r with tx := r.tx ++ [BitVec.ofNat 8 v.toNat] }).uartFeed u

/-- UART_TX_WRITE. -/
def execUartTxWrite (who : Initiator) (uart : Nat) (byte : Byte) (s : State) : Out :=
  s.named (decide (uart < 4)) <|
    s.softWrite who (Reg.mioUartTx uart) (toWord byte.toNat) fun s v => s.uartTx uart v

/-- UART_TX_FRAME_DONE. -/
def execUartTxFrameDone (uart : Nat) (s : State) : Out :=
  .next <|
    if uart < 4 ∧ (s.uart uart).sending.isSome then
      (s.putUart uart { s.uart uart with sending := none }).uartFeed uart
    else s

/-! ### ENABLE and configuration (R498, R499) -/

/-- ENABLE = 0 (R499). -/
def State.mioDisable (s : State) : State :=
  if s.fget Reg.mioStatus 1 0 = 1 then ((s.fset Reg.mioStatus 1 0 2).homeAbort 8).mioSettle else s

/-- Is a write of MIO_CTRL refused (R489). -/
def ctrlBad (v : Word) : Bool := decide (fieldOf v 12 8 < 10 ∨ 24 < fieldOf v 12 8)

/-- A write of MIO_CTRL. -/
def State.mioCtrlWrite (s : State) (v : Word) : State :=
  if ctrlBad v then s.flag Reg.mioStatus 4
  else
    let s := s.putRw Reg.mioCtrl v
    if bitOf v 0 then s.fset Reg.mioStatus 1 0 1 else s.mioDisable

/-- MOTION_IO_DISABLE (R499). -/
def execMotionIoDisable (who : Initiator) (value : Word) (s : State) : Out :=
  .next (s.softWrite who Reg.mioCtrl (value &&& ~~~ 1) fun s v => s.mioCtrlWrite v)

/-- MOTION_IO_ENABLE (R499). -/
def execMotionIoEnable (who : Initiator) (value : Word) (s : State) : Out :=
  .next (s.softWrite who Reg.mioCtrl (value ||| 1) fun s v => s.mioCtrlWrite v)

/-- Does a write change the bits of mask m. -/
def State.changes (s : State) (a : Nat) (v m : Word) : Bool := (s.rget a ^^^ v) &&& m ≠ 0

/-- Is a write at offset o refused (R498). -/
def State.mioRefused (s : State) (o : Nat) (v : Word) : Bool :=
  let a := 0x10180000 + o
  if o = 0x04 then ctrlBad v
  else if 0x100 ≤ o ∧ o < 0x300 then
    let on := s.bit (Reg.mioEncCfg ((o - 0x100) / 0x20)) 0
    if o % 0x20 = 0 then on && s.changes a v (maskOf 27 16 ||| maskOf 8 1)
    else o % 0x20 = 0x0C && on && s.changes a v (maskOf 23 0)
  else if 0x300 ≤ o ∧ o < 0x400 then
    let n := (o - 0x300) / 0x20
    let on := s.bit (Reg.mioAbsCfg n) 0
    if o % 0x20 = 0 then
      (on && s.changes a v (maskOf 31 1)) || decide (fieldOf v 5 1 < 7 ∨ fieldOf v 18 9 < 6 ∨ 625 < fieldOf v 18 9 ∨
        s.fget (Reg.mioAbsPeriod n) 23 0 < absFrameBeats v + 125)
    else if o % 0x20 = 4 then
      (on && s.changes a v (maskOf 23 0)) || decide (fieldOf v 23 0 < absFrameBeats (s.rget (Reg.mioAbsCfg n)) + 125)
    else on && ((o % 0x20 = 8 && s.changes a v (maskOf 23 0)) ||
      ((o % 0x20 = 0xC || o % 0x20 = 0x14) && s.changes a v 0xFFFFFFFF))
  else if 0x400 ≤ o ∧ o < 0xA00 then
    let n := (o - 0x400) / 0x40
    let on := decide (s.fget (Reg.mioPwmCfg n) 1 0 ≠ 0)
    let r := o % 0x40
    if r = 0 then on && s.changes a v (maskOf 12 8 ||| maskOf 6 6 ||| maskOf 3 2)
    else if r = 4 then
      decide (fieldOf v 16 0 < 250 ∨ 125000 < fieldOf v 16 0) || (on && s.changes a v (maskOf 16 0))
    else if r = 8 then on && s.changes a v (maskOf 31 15 ||| maskOf 9 0)
    else decide (0x10 ≤ r ∧ r ≤ 0x1C) && decide (1000000 < fieldOf v 19 0)
  else if 0xC00 ≤ o ∧ o ≤ 0xC10 then s.homing && s.changes a v 0xFFFFFFFF
  else if 0xD00 ≤ o ∧ o < 0xD80 then o % 0x20 = 0 && decide (fieldOf v 15 0 < 4)
  else false

/-- A write of MIO_LIMi_CFG: a new polarity changes the raw state. -/
def State.limCfgWrite (s : State) (i : Nat) (v : Word) : State :=
  let flips := s.bit (Reg.mioLimCfg i) 0 != bitOf v 0
  let s := s.putRw (Reg.mioLimCfg i) v
  if flips then s.limRaw i (!s.bit Reg.mioLimRaw i) else s

/-- A write of MIO_AXa_CFG: a standing fault of the encoder that it names sets the ENC cause (R476). -/
def State.axCfgWrite (s : State) (a : Nat) (v : Word) : State :=
  let s := s.putRw (Reg.mioAxCfg a) v
  if s.axisEncFault a then s.axisFault a 3 else s

/-- The write rule of the MIO_ block. -/
def State.mioWrite (s : State) (o : Nat) (v : Word) : State :=
  let a := 0x10180000 + o
  if s.mioRefused o v then s.flag Reg.mioStatus 4
  else if o = 0x04 then s.mioCtrlWrite v
  else if 0x100 ≤ o ∧ o < 0x300 ∧ o % 0x20 = 4 then (s.rset a v).homeCountCheck
  else if 0xA00 ≤ o ∧ o < 0xA80 then s.limCfgWrite ((o - 0xA00) / 4) v
  else if 0xB00 ≤ o ∧ o < 0xC00 ∧ o % 8 = 0 then s.axCfgWrite ((o - 0xB00) / 8) v
  else if 0xB00 ≤ o ∧ o < 0xC00 ∧ o % 8 = 4 then s.axisClear ((o - 0xB00) / 8) v
  else if o = 0xC14 then s.homeCtrlWrite v
  else if 0xD00 ≤ o ∧ o < 0xD80 ∧ o % 0x20 = 0 then
    (s.putRw a v).uartFeed ((o - 0xD00) / 0x20)
  else if 0xD00 ≤ o ∧ o < 0xD80 ∧ o % 0x20 = 8 then s.uartPop ((o - 0xD00) / 0x20) v
  else if 0xD00 ≤ o ∧ o < 0xD80 ∧ o % 0x20 = 0xC then s.uartTx ((o - 0xD00) / 0x20) v
  else s.putTyped a v 0

/-! ### Cinch's command reaches the loops and the pairs (R461, R529, R530) -/

/-- The armed transactions that name a vouched destination abort on the safe-state command (R123). -/
def State.txnsCinch (s : State) : State :=
  (List.range 64).foldl (fun s n =>
    if s.txnState n = 2 && s.needsVouch n then s.abortTxn n 0xA else s) s

/-- Cinch's command reaches the transactions and the loops (R123, R461). -/
def State.safeCommanded (s : State) : State :=
  s.markTouched <|
    ((s.txnsCinch.loopsCinch).withCin fun c => { c with command := false, killBase := some s.beat }).atPlace 1

/-- SAFE_STATE_COMMAND (R529, R461): the first effect of its beat. -/
def execSafeStateCommand (s : State) : Out :=
  .next <| if s.cin.command ∧ s.placeOpen 1 then s.safeCommanded else s

/-- Has PWM_KILL_US passed since the command. -/
def State.killDue (s : State) : Bool :=
  let us := s.fget Reg.cinOutCfg 31 16
  s.cin.killNow || (s.cin.killArmed && us ≠ 0xFFFF && s.cin.killBase.any fun b => b + beatsPerUs * us ≤ s.beat)

/-- PWM_KILL_EXPIRY (R529, R530). -/
def execPwmKillExpiry (s : State) : Out :=
  .next <| if s.killDue then s.pwmKill.withCin fun c => { c with killNow := false, killArmed := false } else s

end Sys2Proof.Machine
end

