-- ==== Sys2Proof/Machine/Solver.lean ====
section
/-!
DEFINITION. Machine/Solver.lean: the sparse solver unit (R500 to R515).
-/

namespace Sys2Proof.Machine

/-! ### The descriptor -/

/-- N, NNZ, MAXIT and the offsets of a descriptor. -/
def ssuN (d : List Byte) : Nat := bitsOf (descWord d 0x04) 12 0
def ssuNnz (d : List Byte) : Nat := bitsOf (descWord d 0x08) 16 0
def ssuMaxit (d : List Byte) : Nat := bitsOf (descWord d 0x0C) 12 0
def ssuOut (d : List Byte) : Nat := reflexBase + bitsOf (descWord d 0x28) 22 0
def ssuWork (d : List Byte) : Nat := reflexBase + bitsOf (descWord d 0x2C) 22 0

/-- Exponent k: EA, EB, EX, ER, EP, EQ, EZ in turn (R506). -/
def ssuExp (d : List Byte) (k : Nat) : Int := sext 8 ((d.getD (0x10 + k) 0).toNat)

/-- Is an offset field within its bits, and a multiple of `m`. -/
def offsetOk (d : List Byte) (o m : Nat) : Bool :=
  decide (bitsOf (descWord d o) 31 23 = 0 ∧ descWord d o % m = 0)

/-- Does the descriptor keep to its table. -/
def descOk (d : List Byte) : Bool :=
  let w0 := descWord d 0
  let wc := descWord d 0x0C
  decide (bitsOf w0 3 0 = 1 ∧ bitsOf w0 7 4 = 0 ∧ bitsOf w0 31 10 = 0) &&
  decide (1 ≤ ssuN d ∧ ssuN d ≤ 4096 ∧ bitsOf (descWord d 4) 31 13 = 0) &&
  decide (1 ≤ ssuNnz d ∧ ssuNnz d ≤ 65536 ∧ bitsOf (descWord d 8) 31 17 = 0) &&
  decide (1 ≤ ssuMaxit d ∧ ssuMaxit d ≤ 4096 ∧ bitsOf wc 15 13 = 0 ∧ bitsOf wc 31 21 = 0) &&
  ((List.range 7).all fun k => decide (-32 ≤ ssuExp d k ∧ ssuExp d k ≤ 31)) &&
  decide (bitsOf (descWord d 0x14) 31 24 = 0) &&
  ([0x18, 0x1C, 0x20, 0x24, 0x28].all fun o => offsetOk d o 4) && offsetOk d 0x2C 8 &&
  decide (bitsOf (descWord d 0x30) 14 14 = 0 ∧ bitsOf (descWord d 0x30) 31 16 = 0 ∧
    bitsOf (descWord d 0x34) 31 24 = 0 ∧ descWord d 0x38 = 0 ∧ descWord d 0x3C = 0)

/-- Do `n` bytes at `a` lie in Reflex SRAM. -/
def inReflex (a n : Nat) : Bool := decide (reflexBase ≤ a ∧ a + n ≤ reflexBase + 0x800000)

/-- Does every array of the descriptor lie in Reflex SRAM. -/
def descInside (d : List Byte) : Bool :=
  ((ssuArrays d).all fun r => inReflex r.1 r.2) && inReflex (ssuOut d) (16 + 4 * ssuN d) &&
    inReflex (ssuWork d) (36 * ssuN d)

/-! ### The problem -/

/-- A problem as the SSU reads it: rows of (column, value code), and b. -/
structure Problem where
  rows : List (List (Nat × Int))
  b : List Int
  deriving DecidableEq, Repr

/-- `n` unsigned numbers of `w` bytes from address a. -/
def State.readArray (s : State) (a w n : Nat) : List Nat := (List.range n).map fun i => s.readNat (a + w * i) w

/-- The row pointers. -/
def State.rowPtrs (s : State) (d : List Byte) : List Nat :=
  s.readArray (reflexBase + bitsOf (descWord d 0x18) 22 0) 4 (ssuN d + 1)

/-- The value codes and b, as words. -/
def State.ssuVals (s : State) (d : List Byte) : List Nat :=
  s.readArray (reflexBase + bitsOf (descWord d 0x20) 22 0) 4 (ssuNnz d)
def State.ssuB (s : State) (d : List Byte) : List Nat :=
  s.readArray (reflexBase + bitsOf (descWord d 0x24) 22 0) 4 (ssuN d)

/-- The entries of A in storage order. -/
def State.ssuEntries (s : State) (d : List Byte) : List (Nat × Int) :=
  (s.readArray (reflexBase + bitsOf (descWord d 0x1C) 22 0) 2 (ssuNnz d)).zip ((s.ssuVals d).map (sext 32))

/-- Does a list rise, strictly with `strict`. -/
def rising (strict : Bool) : List Nat → Bool
  | a :: b :: t => (if strict then decide (a < b) else decide (a ≤ b)) && rising strict (b :: t)
  | _ => true

/-- Cut the entries into rows by the row pointers. -/
def cutRows (es : List (Nat × Int)) : List Nat → List (List (Nat × Int))
  | a :: b :: t => ((es.drop a).take (b - a)) :: cutRows es (b :: t)
  | _ => []

/-- The problem that a descriptor names. -/
def State.ssuProblem (s : State) (d : List Byte) : Problem :=
  ⟨cutRows (s.ssuEntries d) (s.rowPtrs d), (s.ssuB d).map (sext 32)⟩

/-- Does row i hold its diagonal entry. -/
def hasDiag (i : Nat) (row : List (Nat × Int)) : Bool := row.any fun e => e.1 = i

/-- The structure of A is as R505 states. -/
def State.ssuStructureOk (s : State) (d : List Byte) : Bool :=
  let ptr := s.rowPtrs d
  let rows := (s.ssuProblem d).rows
  ptr.head? == some 0 && ptr.getLast? == some (ssuNnz d) && rising false ptr &&
    (rows.all fun r => rising true (r.map (·.1)) && r.all fun e => decide (e.1 < ssuN d)) &&
    (bitsOf (descWord d 0) 8 8 = 0 ||
      (List.range (ssuN d)).all fun i => hasDiag i (rows.getD i []))

/-- An input element is not-a-number. -/
def State.ssuNan (s : State) (d : List Byte) : Bool :=
  (s.ssuVals d).contains 0x80000000 || (s.ssuB d).contains 0x80000000

/-! ### Scalars and vectors (R506 to R508) -/

/-- A value in the scalar format: a mantissa of 62 bits, rounded to nearest with ties to even. -/
def scalRound : Num → Num
  | .fin g m e =>
    let k := Nat.log2 m
    if k ≤ 61 then .fin g m e else .fin g (shiftRound m (k - 61) .nearest) (e + (k - 61 : Nat))
  | x => x

/-- The scalar of an exact sum v × 2^e. -/
def scalOf (v e : Int) : Num := scalRound (numOfInt v e false)

/-- Quotient of two scalars. -/
def scalDiv (x y : Num) : Num := scalRound (x.div y)

/-- Is a scalar positive. -/
def scalPos (x : Num) : Bool := (Num.fin false 0 0).lt x

/-- v × 2^e rounded to a multiple of 2^q by r() (R452, R507). -/
def toScale (v e q : Int) : Int := if q ≤ e then v * 2 ^ (e - q).toNat else roundR v (q - e).toNat

/-- Scalar times element v × 2^f, rounded to a multiple of 2^q. -/
def scalTimes (x : Num) (v f q : Int) : Int :=
  match x with
  | .fin g m e => toScale ((if g then -(m : Int) else m) * v) (e + f) q
  | _ => 0

/-- Is a Q1.31 or Q16.16 value within R158. -/
def inQ (v : Int) : Bool := decide (-(2 ^ 31 - 1) ≤ v ∧ v ≤ 2 ^ 31 - 1)

/-- Is an internal x within 64 bits. -/
def inX (v : Int) : Bool := decide (-(2 ^ 63) ≤ v ∧ v ≤ 2 ^ 63 - 1)

/-- The dot product of two vectors of codes. -/
def dot : List Int → List Int → Int
  | a :: as, b :: bs => a * b + dot as bs
  | _, _ => 0

/-- One row of A times a vector of codes. -/
def rowTimes (row : List (Nat × Int)) (v : List Int) : Int :=
  row.foldl (fun t e => t + e.2 * v.getD e.1 0) 0

/-! ### The method (R509) -/

/-- The vectors and scalars of a solve. -/
structure Cg where
  x : List Int
  r : List Int
  z : List Int
  p : List Int
  q : List Int
  rho : Num
  k : Nat
  deriving DecidableEq, Repr

/-- Status codes (R513). -/
def ssuConverged : Nat := 0
def ssuNotConverged : Nat := 1
def ssuIllPosed : Nat := 2
def ssuRange : Nat := 3
def ssuInputNan : Nat := 4
def ssuTimeout : Nat := 5
def ssuDescInvalid : Nat := 6
def ssuDrained : Nat := 7
def ssuMemory : Nat := 8

/-- The scale exponents of r, p, q, z and x: their least significant bits. -/
def lsbR (d : List Byte) : Int := ssuExp d 3 - 31
def lsbP (d : List Byte) : Int := ssuExp d 4 - 31
def lsbQ (d : List Byte) : Int := ssuExp d 5 - 31
def lsbZ (d : List Byte) : Int := ssuExp d 6 - 31
def lsbX (d : List Byte) : Int := ssuExp d 2 - 48
def lsbA (d : List Byte) : Int := ssuExp d 0 - 31
def lsbB (d : List Byte) : Int := ssuExp d 1 - 16

/-- The diagonal codes. -/
def Problem.diag (a : Problem) : List Int :=
  (List.range a.rows.length).map fun i =>
    ((a.rows.getD i []).find? fun e => e.1 = i).elim 0 (·.2)

/-- The inverse of the diagonal in the scalar format, or 1 (R509). -/
def Problem.dinv (a : Problem) (d : List Byte) : List Num :=
  if bitsOf (descWord d 0) 8 8 = 0 then a.rows.map fun _ => .fin false 1 0
  else a.diag.map fun c => scalDiv (.fin false 1 0) (numOfInt c (lsbA d) false)

/-- z = Dinv × r to scale EZ. -/
def precondition (d : List Byte) (dinv : List Num) (r : List Int) : List Int :=
  List.zipWith (fun g v => scalTimes g v (lsbR d) (lsbZ d)) dinv r

/-- b − A x to scale ER: the exact value of each row, at the smaller of the two scales. -/
def residual (d : List Byte) (a : Problem) (x : List Int) : List Int :=
  let ea := lsbA d + lsbX d
  let lo := min ea (lsbB d)
  List.zipWith (fun row b =>
    toScale (b * 2 ^ (lsbB d - lo).toNat - rowTimes row x * 2 ^ (ea - lo).toNat) lo (lsbR d)) a.rows a.b

/-- The state before the first iteration. -/
def cgStart (d : List Byte) (a : Problem) (x : List Int) : Cg :=
  let r := residual d a x
  let z := precondition d (a.dinv d) r
  { x := x, r := r, z := z, p := z.map fun v => toScale v (lsbZ d) (lsbP d), q := [],
    rho := scalOf (dot r z) (lsbR d + lsbZ d), k := 0 }

/-- The residual test of R509. -/
def cgDone (d : List Byte) (a : Problem) (c : Cg) : Bool :=
  let rr := scalOf (dot c.r c.r) (2 * lsbR d)
  let bb := scalOf (dot a.b a.b) (2 * lsbB d)
  !(bb.scale (-2 * (bitsOf (descWord d 0x0C) 20 16 : Nat))).lt rr

/-- Are r, z and p in range. -/
def Cg.inRange (c : Cg) : Bool := c.r.all inQ && c.z.all inQ && c.p.all inQ && c.q.all inQ && c.x.all inX

/-- One iteration: the new state, or the status that ends the solve. -/
def cgStep (d : List Byte) (a : Problem) (c : Cg) : Cg × Option Nat :=
  let q := a.rows.map fun row => toScale (rowTimes row c.p) (lsbA d + lsbP d) (lsbQ d)
  let c := { c with q := q }
  if !q.all inQ then (c, some ssuRange)
  else
    let pq := scalOf (dot c.p q) (lsbP d + lsbQ d)
    if !scalPos pq || !scalPos c.rho then (c, some ssuIllPosed)
    else
      let alpha := scalDiv c.rho pq
      let x := List.zipWith (fun x p => x + scalTimes alpha p (lsbP d) (lsbX d)) c.x c.p
      let r := List.zipWith (fun r q => r - scalTimes alpha q (lsbQ d) (lsbR d)) c.r q
      let z := precondition d (a.dinv d) r
      let rhoN := scalOf (dot r z) (lsbR d + lsbZ d)
      let beta := scalDiv rhoN c.rho
      let p := List.zipWith (fun z p =>
        toScale z (lsbZ d) (lsbP d) + scalTimes beta p (lsbP d) (lsbP d)) z c.p
      let n : Cg := { x := x, r := r, z := z, p := p, q := q, rho := rhoN, k := c.k + 1 }
      if n.inRange then (n, none) else (n, some ssuRange)

/-- The loop of R509. `stop` is an iteration before which something outside the method ends the solve, and its
status: the deadline (R512) or bad memory. -/
def cgLoop (d : List Byte) (a : Problem) (stop : Option (Nat × Nat)) : Nat → Cg → Nat × Cg
  | 0, c => (ssuNotConverged, c)
  | fuel + 1, c =>
    if cgDone d a c then (ssuConverged, c)
    else if c.k = ssuMaxit d then (ssuNotConverged, c)
    else
      match stop with
      | some (k, st) =>
        if k ≤ c.k then (st, c)
        else
          match cgStep d a c with
          | (c, some st) => (st, c)
          | (c, none) => cgLoop d a stop fuel c
      | none =>
        match cgStep d a c with
        | (c, some st) => (st, c)
        | (c, none) => cgLoop d a stop fuel c

/-- The solve of problem `a` from x (R509). -/
def cgSolve (d : List Byte) (a : Problem) (stop : Option (Nat × Nat)) (x : List Int) : Nat × Cg :=
  let c := cgStart d a x
  if bitsOf (descWord d 0) 8 8 = 1 && a.diag.any fun v => decide (v ≤ 0) then (ssuIllPosed, c)
  else if !c.inRange then (ssuRange, c)
  else cgLoop d a stop (ssuMaxit d + 1) c

/-- The result elements in Q16.16 (R506). -/
def cgResult (c : Cg) : List Int := c.x.map fun v => roundR v 32

/-! ### Starts (R501, R502) -/

/-- Is problem p pending or running. -/
def State.ssuBusy (s : State) (p : Nat) : Bool := s.fget (Reg.ssuPStatus p) 1 0 ≠ 0

/-- A start of problem p (R501, R502): further starts of the beat count as the same one. In DRAINED it is ignored and
counted (R515). -/
def State.ssuStart (s : State) (p : Nat) : State :=
  if spGet (fun _ => 0) s.ssu.starts p = s.beat + 1 then s
  else
  let s := { s with ssu := { s.ssu with starts := spSet (fun _ => 0) s.ssu.starts p (s.beat + 1) } }
  if s.ssuBusy p then (s.count Reg.ssuOverlapCount 1).flag Reg.ssuStatus 6
  else if s.fget Reg.ssuStatus 1 0 = 3 then s.count Reg.ssuOverlapCount 1
  else
    { s.fset (Reg.ssuPStatus p) 1 0 1 with
      ssu := { s.ssu with pending := s.ssu.pending ++ [(p, ⟨s.beat, none, [], none⟩)] } }

/-- COLD (R510). -/
def State.ssuCold (s : State) (p : Nat) : State := s.bput (Reg.ssuPStatus p) 2 false

/-- A write of SSU_Pp_CTRL: COLD, then GO. -/
def State.ssuCtrlWrite (s : State) (p : Nat) (v : Word) : State :=
  let s := if bitOf v 1 then s.ssuCold p else s
  if bitOf v 0 then s.ssuStart p else s

/-- A write of SSU_Pp_CTRL by a command row. -/
def ssuCommand (who : Initiator) (p : Nat) (v : Word) (s : State) : Out :=
  s.named (decide (p < 8)) <| s.softWrite who (Reg.ssuPCtrl p) v fun s v => s.ssuCtrlWrite p v

/-- SSU_GO (R501). -/
def execSsuGo (who : Initiator) (problem : Nat) (value : Word) (s : State) : Out :=
  ssuCommand who problem (value ||| 1) s

/-- SSU_COLD (R510). -/
def execSsuCold (who : Initiator) (problem : Nat) (value : Word) (s : State) : Out :=
  ssuCommand who problem (value ||| 2) s

/-! ### The end of a solve (R511, R513) -/

/-- Write bytes that lie in Reflex SRAM. -/
def State.reflexPut (s : State) (a : Nat) (bs : List Byte) : State :=
  if inReflex a bs.length then s.writeBytes a bs else s

/-- The elements of a result record, then its header (R511). -/
def State.ssuRecord (s : State) (p : Nat) (st : SsuStart) (d : List Byte) (status iter : Nat) (cycles : Word)
    (elems : List Word) : State :=
  let s := (elems.zipIdx).foldl (fun s e => s.reflexPut (ssuOut d + 16 + 4 * e.2) (natToBytes 4 e.1.toNat)) s
  s.reflexPut (ssuOut d)
    (natToBytes 4 (s.rget (Reg.ssuPSeq p)).toNat ++ natToBytes 4 (status + 256 * iter) ++
      natToBytes 4 st.beat ++ natToBytes 4 cycles.toNat)

/-- What a solve that did not converge writes: not-a-number in every element (R513). -/
def nanElems (d : List Byte) : List Word := List.replicate (ssuN d) 0x80000000

/-- A failed solve is counted (R513). -/
def State.ssuNoteFail (s : State) (p status : Nat) : State :=
  if status = 0 then s
  else
    (((s.count Reg.ssuFailCount 1).tally 0x089 p 1).rset Reg.ssuLastErr (toWord (status + 256 * p))).flag Reg.ssuStatus 5

/-- Problem p ends with a status (R511, R513). -/
def State.ssuFinish (s : State) (p : Nat) (st : SsuStart) (status iter : Nat) (cycles : Word)
    (elems : List Word) : State :=
  let d := st.desc.getD []
  let seq := s.rget (Reg.ssuPSeq p)
  let s := (s.ssuRecord p st d status iter cycles elems).ssuNoteFail p status
  let s := (s.rset (Reg.ssuPSeq p) (seq + 1)).rset (Reg.ssuPLast p) (toWord (status + 256 * iter))
  let s := ((s.bump Reg.ssuSolveCount 1).tally 0x088 p 1).fset (Reg.ssuPStatus p) 1 0 0
  if bitsOf (descWord d 0x30) 15 15 = 1 then s.bklSet .ssu (bitsOf (descWord d 0x30) 13 0) (seq + 1) else s

/-- A pending problem ends with DRAINED (R515). -/
def State.ssuDrop (s : State) (q : Nat × SsuStart) : State :=
  let (c, s) := s.drawNat
  s.ssuFinish q.1 q.2 ssuDrained 0 (toWord c) (nanElems (q.2.desc.getD []))

/-- DRAINING with no solve in progress: every pending problem ends, the lowest first, and the SSU is DRAINED. -/
def State.ssuSettle (s : State) : State :=
  if s.fget Reg.ssuStatus 1 0 = 2 && s.ssu.running.isNone then
    let s := s.ssuLatch
    let ps := (List.range 8).filterMap fun p => s.ssu.pending.find? fun q => q.1 = p
    let s := ps.foldl State.ssuDrop { s with ssu := { s.ssu with pending := [] } }
    (s.fset Reg.ssuStatus 1 0 3).flag Reg.ssuStatus 7
  else s

/-- The solve in progress has ended. -/
def State.ssuFree (s : State) : State :=
  let s := { s with ssu := { s.ssu with running := none } }
  (if s.fget Reg.ssuStatus 1 0 = 1 then s.fset Reg.ssuStatus 1 0 0 else s).ssuSettle

/-- Has the deadline of a start passed (R512). -/
def State.ssuLate (s : State) (st : SsuStart) : Bool :=
  let dl := bitsOf (descWord (st.desc.getD []) 0x34) 23 0
  decide (dl ≠ 0 ∧ st.beat + dl ≤ s.beat)

/-- The pending problem with the lowest number whose descriptor is latched (R503). -/
def State.ssuNext (s : State) : Option (Nat × SsuStart) :=
  (List.range 8).findSome? fun p => s.ssu.pending.find? fun q => q.1 = p ∧ q.2.desc.isSome

/-- A start that finds no valid warm vector (R510). -/
def State.ssuCountCold (s : State) (p : Nat) : State :=
  (s.fset (Reg.ssuPStatus p) 15 8 (s.fget (Reg.ssuPStatus p) 15 8 + 1)).flag (Reg.ssuPStatus p) 3

/-- The warm vector of problem p that a solve uses, if any (R510). -/
def State.warmOf (s : State) (p : Nat) (d : List Byte) : Option (List Word) :=
  let w := spGet (fun _ => []) s.ssu.warm p
  if bitsOf (descWord d 0) 9 9 = 1 ∧ s.bit (Reg.ssuPStatus p) 2 ∧ w.length = ssuN d then some w else none

/-- The start of a solve. -/
def State.ssuBegin (s : State) (p : Nat) (st : SsuStart) : State :=
  let d := st.desc.getD []
  let warm := s.warmOf p d
  let s := { s with ssu := { s.ssu with
    pending := s.ssu.pending.filter (·.1 ≠ p)
    running := some (p, { st with
      warm := warm
      inputs := (ssuWork d, s.readBytes (ssuWork d) (36 * ssuN d)) :: st.inputs }) } }
  let s := ((s.fset Reg.ssuStatus 1 0 1).fset Reg.ssuStatus 4 2 p).fset (Reg.ssuPStatus p) 1 0 2
  if s.ssuLate st && decide (st.beat + 1 < s.beat) then
    let (c, s) := s.drawNat
    (s.ssuFinish p st ssuTimeout 0 (toWord c) (nanElems d)).ssuFree
  else if warm.isSome then s
  else (s.ssuCountCold p)

/-- SSU_SOLVE_START (R503, R512). -/
def execSsuSolveStart (s : State) : Out :=
  .next <|
    if s.fget Reg.ssuStatus 1 0 ≠ 0 ∨ s.ssu.running.isSome then s
    else
      match s.ssuNext with
      | none => s
      | some (p, st) => s.ssuBegin p st

/-- The arrays, the work area and the warm vector are as R504 requires. -/
def State.ssuIntact (s : State) (st : SsuStart) : Bool :=
  let d := st.desc.getD []
  (st.inputs.all fun r => s.readBytes r.1 r.2.length == r.2) &&
    (match st.warm with
     | none => true
     | some w => s.readBytes (ssuWork d + 32 * ssuN d) (4 * ssuN d) == w.flatMap fun v => natToBytes 4 v.toNat)

/-- What the solve in progress ends with: the status, and the vectors where the method ran. -/
def State.ssuOutcome (s : State) (st : SsuStart) (stop : Option (Nat × Nat)) : Nat × Option Cg :=
  let d := st.desc.getD []
  if !descOk d then (ssuDescInvalid, none)
  else if !descInside d then (ssuMemory, none)
  else if !s.ssuStructureOk d then (ssuDescInvalid, none)
  else if s.ssuNan d then (ssuInputNan, none)
  else
    let x0 := match st.warm with
      | some w => w.map fun v => v.toInt * 2 ^ 32
      | none => List.replicate (ssuN d) 0
    let (status, c) := cgSolve d (s.ssuProblem d) stop x0
    if status = ssuConverged && !(cgResult c).all inQ then (ssuRange, some c) else (status, some c)

/-- Free words. -/
def State.drawWords (s : State) : Nat → List Word × State
  | 0 => ([], s)
  | n + 1 =>
    let (x, s) := s.drawNat
    let (xs, s) := s.drawWords n
    (toWord x :: xs, s)

/-- The warm vector of problem p becomes a result (R510). -/
def State.warmPut (s : State) (p : Nat) (d : List Byte) (es : List Word) : State :=
  let s := s.reflexPut (ssuWork d + 32 * ssuN d) (es.flatMap fun v => natToBytes 4 v.toNat)
  { s.flag (Reg.ssuPStatus p) 2 with ssu := { s.ssu with warm := spSet (fun _ => []) s.ssu.warm p es } }

/-- A vector element as the work area holds it: saturated (R507, R158). -/
def workBytes (vs : List Int) : List Byte := vs.flatMap fun v => natToBytes 4 (ofInt32 (satQ v)).toNat

/-- The internal x as the work area holds it, saturated to its 64 bits. -/
def xBytes (vs : List Int) : List Byte :=
  vs.flatMap fun v => natToBytes 8 (BitVec.ofInt 64 (clampI v (-(2 ^ 63)) (2 ^ 63 - 1))).toNat

/-- The work area after a solve: x, Dinv (whose layout is open), r, p, q, z and the warm vector. -/
def State.ssuWorkPut (s : State) (p : Nat) (d : List Byte) (c : Cg) (elems : Option (List Word)) : State :=
  let n := ssuN d
  let (dv, s) := s.drawWords (2 * n)
  let s := s.reflexPut (ssuWork d) (xBytes c.x)
  let s := s.reflexPut (ssuWork d + 8 * n) (dv.flatMap fun v => natToBytes 4 v.toNat)
  let s := ((s.reflexPut (ssuWork d + 16 * n) (workBytes c.r)).reflexPut (ssuWork d + 20 * n) (workBytes c.p)).reflexPut
    (ssuWork d + 24 * n) (workBytes c.q)
  let s := s.reflexPut (ssuWork d + 28 * n) (workBytes c.z)
  match elems with
  | none => s
  | some es => s.warmPut p d es

/-- The solve in progress ends after R504 was broken: result values, status and what it leaves in the work area are open. Only
an end with CONVERGED replaces the warm vector. -/
def State.ssuEndOpen (s : State) (p : Nat) (st : SsuStart) (cycles : Word) : State :=
  let d := st.desc.getD []
  let (status, s) := s.drawNat
  let (iter, s) := s.drawNat
  let (es, s) := s.drawWords (ssuN d)
  let (ws, s) := s.drawWords (8 * ssuN d)
  let s := s.reflexPut (ssuWork d) (ws.flatMap fun v => natToBytes 4 v.toNat)
  let s := if status % 9 = ssuConverged then s.warmPut p d es else s
  (s.ssuFinish p st (status % 9) (iter % 4097) cycles es).ssuFree

/-- The solve in progress ends with the outcome of its method. -/
def State.ssuEnd (s : State) (p : Nat) (st : SsuStart) (cycles : Word) (o : Nat × Option Cg) : State :=
  let d := st.desc.getD []
  let iter := match o.2 with
    | some c => c.k
    | none => 0
  let good := match o.2 with
    | some c => if o.1 = ssuConverged then some ((cgResult c).map ofInt32) else none
    | none => none
  let s := match o.2 with
    | some c => s.ssuWorkPut p d c good
    | none => s
  (s.ssuFinish p st o.1 iter cycles (good.getD (nanElems d))).ssuFree

/-- SSU_SOLVE_END (R509, R511, R513): `errorAt` is an iteration that met uncorrectable data. -/
def execSsuSolveEnd (cycles : Word) (errorAt : Option Nat) (s : State) : Out :=
  .next <|
    match s.ssu.running with
    | none => s
    | some (p, st) =>
      if s.ssuIntact st then s.ssuEnd p st cycles (s.ssuOutcome st (errorAt.map fun k => (k, ssuMemory)))
      else s.ssuEndOpen p st cycles

/-- SSU_DEADLINE_EXPIRY (R512): the deadline is found passed before iteration `iterations`. -/
def execSsuDeadlineExpiry (iterations : Nat) (cycles : Word) (s : State) : Out :=
  .next <|
    match s.ssu.running with
    | none => s
    | some (p, st) =>
      let o := s.ssuOutcome st (some (iterations, ssuTimeout))
      if s.ssuLate st && o.1 = ssuTimeout then s.ssuEnd p st cycles o else s

/-! ### ENABLE (R515) -/

/-- The estimate of R514 for a solve of `k` iterations, in CLK_RFX cycles without memory waits. -/
def ssuCycles (d : List Byte) (k : Nat) : Nat :=
  let nz := (ssuNnz d + 7) / 8
  let v := (ssuN d + 7) / 8
  (64 + nz + 2 * v) + k * (nz + 4 * v + 48) + (v + 32)

/-- A write of SSU_CTRL. ENABLE = 1 in DRAINING takes the SSU back to its solve (DESIGN CHOICE, log entry 43: R515 speaks of
DRAINED only). -/
def State.ssuEnableWrite (s : State) (v : Word) : State :=
  let was := s.fget Reg.ssuStatus 1 0
  let s := s.putRw Reg.ssuCtrl v
  if bitOf v 0 then
    (if 2 ≤ was then s.fset Reg.ssuStatus 1 0 (if s.ssu.running.isSome then 1 else 0) else s)
  else if was ≤ 1 then (s.fset Reg.ssuStatus 1 0 2).ssuSettle
  else s

/-- SSU_DISABLE (R515). -/
def execSsuDisable (who : Initiator) (value : Word) (s : State) : Out :=
  .next (s.softWrite who Reg.ssuCtrl (value &&& ~~~ 1) fun s v => s.ssuEnableWrite v)

/-- SSU_ENABLE (R515). -/
def execSsuEnable (who : Initiator) (value : Word) (s : State) : Out :=
  .next (s.softWrite who Reg.ssuCtrl (value ||| 1) fun s v => s.ssuEnableWrite v)

/-- The write rule of the SSU_ block. -/
def State.ssuWrite (s : State) (o : Nat) (v : Word) : State :=
  if o = 4 then s.ssuEnableWrite v
  else if 0x100 ≤ o ∧ o < 0x200 ∧ o % 0x20 = 8 then s.ssuCtrlWrite ((o - 0x100) / 0x20) v
  else s.putTyped (0x10190000 + o) v 0

end Sys2Proof.Machine
end

