-- ==== Sys2Proof/Machine/Quadrille.lean ====
section
/-!
DEFINITION. Machine/Quadrille.lean: Quadrille sensor fusion: its job ring, projection, vote grid, tracks and
publication (R411 to R440).
-/

namespace Sys2Proof.Machine

/-- Change what Quadrille holds beside its registers. -/
def State.withQdr (s : State) (f : Quad → Quad) : State := { s with qdr := f s.qdr }

/-- The state of Quadrille: 0 IDLE, 1 BUSY, 2 DRAINING, 3 DRAINED. -/
def State.qdrState (s : State) : Nat := s.fget Reg.qdrStatus 1 0

/-! ### The job ring (R412 to R415) -/

/-- Slots of the ring. -/
def State.qdrRingSize (s : State) : Nat := 2 ^ s.fget Reg.qdrRingCfg 27 24

/-- The address of the descriptor with ring index `i`. -/
def State.qdrSlot (s : State) (i : Word) : Nat :=
  reflexBase + s.fget Reg.qdrRingCfg 22 6 * 64 + 64 * (i.toNat % s.qdrRingSize)

/-- The descriptor at HEAD, where the ring holds one. -/
def State.qdrHead (s : State) : Option (List Byte) :=
  if s.rget Reg.qdrRingHead = s.rget Reg.qdrRingTail then none
  else some (s.readBytes (s.qdrSlot (s.rget Reg.qdrRingHead)) 64)

/-- A 64-bit field of a descriptor. -/
def descAddr (d : List Byte) (o : Nat) : Nat := descWord d o + 2 ^ 32 * descWord d (o + 4)

/-- JOB, WAIT and the sources of a descriptor. -/
def qJob (d : List Byte) : Nat := bitsOf (descWord d 0) 11 8
def qFlag (d : List Byte) (i : Nat) : Bool := bitsOf (descWord d 0) i i = 1
def qCam (d : List Byte) : Nat := bitsOf (descWord d 0x0C) 4 0
def qSrc (d : List Byte) : Nat := bitsOf (descWord d 0x0C) 11 8
def qCount (d : List Byte) : Nat := descWord d 0x18

/-- The bits of word `o` that a job type uses. -/
def qUsed (job o : Nat) : Word :=
  let pts := job = 1 ∨ job = 3 ∨ job = 4
  let time := job = 4 ∨ job = 5 ∨ job = 6
  match o with
  | 0x00 => maskOf 11 0 ||| (if job = 1 then maskOf 17 16 ||| maskOf 19 19 else if job = 4 then maskOf 18 18 else 0)
  | 0x04 => maskOf 13 0 ||| maskOf 15 15 ||| maskOf 29 16 ||| maskOf 31 31
  | 0x08 | 0x3C => 0xFFFFFFFF
  | 0x0C =>
    (if job = 1 then maskOf 4 0 ||| maskOf 18 16 ||| maskOf 23 20 else 0) ||| (if pts then maskOf 11 8 else 0)
  | 0x10 | 0x14 | 0x18 => if pts then 0xFFFFFFFF else 0
  | 0x20 | 0x24 | 0x28 | 0x2C => if job = 1 then 0xFFFFFFFF else 0
  | 0x30 | 0x34 => if time then 0xFFFFFFFF else 0
  | 0x38 => if time then maskOf 29 0 else 0
  | _ => 0

/-- Is the descriptor valid: GEN, VERSION, JOB, reserved fields and ranges. -/
def qValid (d : List Byte) : Bool :=
  let w0 := descWord d 0
  decide (bitsOf w0 3 0 = 1 ∧ bitsOf w0 7 4 = 0 ∧ qJob d ≤ 6) &&
  ((List.range 16).all fun i => toWord (descWord d (4 * i)) &&& ~~~ qUsed (qJob d) (4 * i) = 0) &&
  (qJob d ≠ 1 ||
    (decide (qCam d ≤ 23 ∧ bitsOf (descWord d 0x0C) 23 20 ≤ 3) &&
      (!qFlag d 17 || regionOf (descAddr d 0x20) = .tierA)))

/-- Does the wait of a descriptor let it start (R413); without the main domain its buckle does not answer (R682). -/
def State.qdrWaitOk (s : State) (d : List Byte) : Bool :=
  let w := descWord d 4
  bitsOf w 15 15 = 0 ||
    (s.mainOn && atOrAfter (s.buckle (bitsOf w 13 0)) (toWord (descWord d 8)))

/-- The descriptor that may start now, if any. -/
def State.qdrNext (s : State) : Option (List Byte) :=
  if s.qdrState = 0 && s.bit Reg.qdrCtrl 0 && !s.bit Reg.qdrStatus 2 && s.qdr.job.isNone then
    match s.qdrHead with
    | none => none
    | some d => if qValid d && !s.qdrWaitOk d then none else some d
  else none

/-- Take the next job when it has this type: it ends with code 0x01 where its descriptor is invalid, else `act` gives
its effect, and it takes `cycles` cycles where it has no error. -/
def State.qdrTake (s : State) (kind : Nat) (cycles : State → List Byte → Nat)
    (act : State → List Byte → State × QdrJob → State × QdrJob) : State :=
  match s.qdrNext with
  | none => s
  | some d =>
    if qJob d ≠ kind then s
    else
      let j : QdrJob := ⟨s.rget Reg.qdrRingHead, kind, if qValid d then 0 else 1, d, none, 0, 0, s.beat, 0⟩
      let n := cycles s d
      let s := s.fset Reg.qdrStatus 1 0 1
      let (s, j) := if qValid d then act s d (s, j) else (s, j)
      s.withQdr fun q => { q with job := some { j with cycles := if j.code = 0 then n else 0 } }

/-- A job that only sets a status code. -/
def QdrJob.fail (j : QdrJob) (code : Nat) : QdrJob := { j with code := code }

/-- Read bytes for a job: code 5 where they cannot be read, 4 where they are bad. -/
def State.qdrLoad (s : State) (a n : Nat) : State × (Nat × List Byte) :=
  if !s.readable a || !s.readable (a + (n - 1)) then (s, (5, []))
  else
    match s.engineLoad a n with
    | (s, none) => (s, (4, []))
    | (s, some bs) => (s, (0, bs))

/-- Write bytes for a job: code 5 where the write is refused, 4 where it meets bad data. -/
def State.qdrStore (s : State) (a : Nat) (bs : List Byte) : State × Nat :=
  if bs.isEmpty then (s, 0)
  else
    match s.longDenied .quadrille a bs.length with
    | some d => (s.noteDenied d, 5)
    | none =>
      let (s, ok) := s.storeBytes a bs []
      (s, if ok then 0 else 4)

/-! ### Calibration (R417, R418) -/

/-- Word i of a camera entry, or of a range-sensor entry, of the selected set. -/
def State.calBase (s : State) : Nat :=
  reflexBase + s.fget (Reg.qdrCalBase (s.fget Reg.qdrCalSel 0 0)) 22 6 * 64
def State.camWord (s : State) (c i : Nat) : Nat := s.readNat (s.calBase + 128 * c + 4 * i) 4
def State.senWord (s : State) (k i : Nat) : Nat := s.readNat (s.calBase + 3072 + 64 * k + 4 * i) 4

/-- A calibration entry is read: code 5 where the set leaves Reflex SRAM, 4 where its data is uncorrectable (R438). -/
def State.calRead (s : State) (o n : Nat) : State × Nat :=
  if !inReflex s.calBase 4096 then (s, 5)
  else
    let (s, r) := s.qdrLoad (s.calBase + o) n
    (s, r.1)

/-- VALID of a camera and of a range-sensor entry. -/
def State.camValid (s : State) (c : Nat) : Bool := s.camWord c 25 % 2 = 1
def State.senValid (s : State) (k : Nat) : Bool := s.senWord k 12 % 2 = 1

/-! ### Points (R416, R420) -/

/-- A point record. -/
structure Point where
  x : Word
  y : Word
  z : Word
  attr : Nat
  deriving DecidableEq, Repr

/-- The point record in 16 bytes. -/
def pointOf (bs : List Byte) : Point :=
  ⟨toWord (descWord bs 0), toWord (descWord bs 4), toWord (descWord bs 8), bitsOf (descWord bs 12) 15 0⟩

/-- Is a coordinate not-a-number. -/
def Point.bad (p : Point) : Bool := p.x = qNan || p.y = qNan || p.z = qNan

/-- Row i of a rotation and translation applied to a vector of FP32 codes; `m` gives word i of the entry. -/
def rotate (m : Nat → Nat) (x y z i : Nat) : Nat :=
  ffma (m (3 * i + 2)) z (ffma (m (3 * i + 1)) y (ffma (m (3 * i)) x (m (9 + i))))

/-- A point in the machine frame. -/
def State.toMachine (s : State) (k : Nat) (p : Point) : Nat × Nat × Nat :=
  let r := rotate (s.senWord k) (qToF32 16 p.x) (qToF32 16 p.y) (qToF32 16 p.z)
  (r 0, r 1, r 2)

/-- The whole number at or below a non-negative FP32 value. -/
def fFloor (c : Nat) : Nat :=
  match f32 c with
  | .fin false m e => if 0 ≤ e then m * 2 ^ e.toNat else m / 2 ^ (-e).toNat
  | _ => 0

/-- a ≤ b in FP32; false when one is NaN. -/
def fle (a b : Nat) : Bool := !fIsNan a && !fIsNan b && !flt b a

/-- FP32 two. -/
def fTwo : Nat := 0x40000000

/-- The distorted pixel of a point in the camera frame (R420): u, v, or none when it is rejected. A pixel that is NaN, whose
comparisons with the image's edges R420 leaves without a result, is rejected (DESIGN CHOICE, log entry 51). -/
def State.toPixel (s : State) (c : Nat) (px py pz : Nat) : Option (Nat × Nat) :=
  let w := s.camWord c
  if flt pz (w 22) || flt (w 23) pz then none
  else
    let xn := fdiv px pz
    let yn := fdiv py pz
    let r2 := ffma yn yn (fmul xn xn)
    if flt (w 24) r2 then none
    else
      let radial := ffma r2 (ffma r2 (ffma r2 (w 18) (w 17)) (w 16)) fOne
      let xy := fmul xn yn
      let txd := ffma (w 20) (ffma (fmul fTwo xn) xn r2) (fmul (fmul fTwo (w 19)) xy)
      let tyd := ffma (w 19) (ffma (fmul fTwo yn) yn r2) (fmul (fmul fTwo (w 20)) xy)
      let u := ffma (w 12) (ffma xn radial txd) (w 14)
      let v := ffma (w 13) (ffma yn radial tyd) (w 15)
      let inside (a n : Nat) : Bool := fle 0 a && flt a (fOfInt n)
      if inside u (bitsOf (w 21) 15 0) && inside v (bitsOf (w 21) 31 16) then some (u, v) else none

/-- A point of sensor k projected into camera c: u, v and the depth. -/
def State.projectPoint (s : State) (k c : Nat) (p : Point) : Option (Nat × Nat × Nat) :=
  let (x, y, z) := s.toMachine k p
  let r := rotate (s.camWord c) x y z
  (s.toPixel c (r 0) (r 1) (r 2)).map fun (u, v) => (u, v, r 2)

/-! ### PROJECT (R420 to R423) -/

/-- An empty cell. -/
def AccCell.empty : AccCell := ⟨0, 0, 0, 0⟩

/-- One point more in a cell (R421). -/
def AccCell.add (a : AccCell) (depth attr : Nat) : AccCell :=
  ⟨fadd a.n fOne, if a.n = 0 then depth else if flt depth a.zmin then depth else a.zmin,
    fadd a.zsum depth, fadd a.asum (fOfInt attr)⟩

/-- Cell k of the accumulator. -/
def State.accCell (s : State) (k : Nat) : AccCell := spGet (fun _ => AccCell.empty) s.qdr.acc k

/-- Add a projected point to the accumulator of a map `fw` cells wide. -/
def State.accAdd (s : State) (fw k u v depth attr : Nat) : State :=
  let i := fFloor v / 2 ^ k * fw + fFloor u / 2 ^ k
  s.withQdr fun q => { q with acc := spSet (fun _ => AccCell.empty) q.acc i ((s.accCell i).add depth attr) }

/-- Annotate point i (R422). -/
def State.annotate (s : State) (d : List Byte) (i u v : Nat) : State × Nat :=
  if qFlag d 19 then s.qdrStore (descAddr d 0x28 + 8 * i) (natToBytes 4 u ++ natToBytes 4 v) else (s, 0)

/-- Point i of a PROJECT job. -/
def State.projectOne (s : State) (d : List Byte) (fw i : Nat) (p : Point) : State × Nat :=
  if p.bad then (s.count Reg.qdrPtNanCount 1).annotate d i fNan fNan
  else
    match s.projectPoint (qSrc d) (qCam d) p with
    | none => (s.count Reg.qdrPtOutCount 1).annotate d i fNan fNan
    | some (u, v, depth) =>
      (s.accAdd fw (bitsOf (descWord d 0x0C) 18 16) u v depth p.attr).annotate d i u v

/-- Run `f` over the records of a job from record i, stopping at the first code that is not 0. -/
def State.overRecords (size : Nat) (f : State → Nat → List Byte → State × Nat) (base : Nat) :
    Nat → Nat → State → State × Nat
  | 0, _, s => (s, 0)
  | n + 1, i, s =>
    match s.qdrLoad (base + size * i) size with
    | (s, (0, bs)) =>
      match f s i bs with
      | (s, 0) => overRecords size f base n (i + 1) s
      | r => r
    | (s, (c, _)) => (s, c)

/-- The bytes of one feature pixel (R423). -/
def featBytes (fmt : Nat) (a : AccCell) : List Byte :=
  let chans := if a.n = 0 then [0, 0, 0, 0] else [a.zmin, fdiv a.zsum a.n, a.n, fdiv a.asum a.n]
  let enc (c : Nat) : Nat :=
    match fmtOf fmt with
    | some f => (f.encode (f32 c) .nearest true).1
    | none => 0
  padTo 16 (packElems (fmtBits fmt) (chans.map enc))

/-- Write the rows of a feature map from row y. -/
def State.featRows (s : State) (fmt fw out : Nat) : Nat → Nat → State × Nat
  | 0, _ => (s, 0)
  | n + 1, y =>
    let row := padTo 64 ((List.range fw).flatMap fun x => featBytes fmt (s.accCell (y * fw + x)))
    match s.qdrStore (out + row.length * y) row with
    | (s, 0) => s.featRows fmt fw out n (y + 1)
    | r => r

/-- Empty the accumulator. -/
def State.accEmpty (s : State) : State := s.withQdr fun q => { q with acc := [] }

/-- FW and FH of a job (R423). -/
def State.featSize (s : State) (d : List Byte) : Nat × Nat :=
  let c := 2 ^ bitsOf (descWord d 0x0C) 18 16
  let w := s.camWord (qCam d) 21
  (ceilDiv (bitsOf w 15 0) c, ceilDiv (bitsOf w 31 16) c)

/-- Is COUNT within the limits of R439. -/
def countOk (d : List Byte) (most : Nat) : Bool := decide (1 ≤ qCount d ∧ qCount d ≤ most)

/-- A PROJECT job (R420 to R423): the state and its code. -/
def State.projectJob (s : State) (d : List Byte) : State × Nat :=
  let (s, cam) := s.calRead (128 * qCam d) 128
  let (s, sen) := s.calRead (3072 + 64 * qSrc d) 64
  if !countOk d 1048576 then (s, 3)
  else if cam ≠ 0 then (s, cam)
  else if sen ≠ 0 then (s, sen)
  else if !s.camValid (qCam d) || !s.senValid (qSrc d) then (s, 2)
  else
    let (fw, fh) := s.featSize d
    if 65536 < fw * fh then (s, 3)
    else
      let s := if qFlag d 16 then s else s.accEmpty
      match State.overRecords 16 (fun s i bs => s.projectOne d fw i (pointOf bs)) (descAddr d 0x10)
          (qCount d) 0 s with
      | (s, 0) =>
        if qFlag d 17 then
          let (s, c) := s.featRows (bitsOf (descWord d 0x0C) 23 20) fw (descAddr d 0x20) fh 0
          (s.accEmpty, c)
        else (s, 0)
      | r => r

/-- Cycles of a PROJECT job (R438). -/
def State.projectCycles (s : State) (d : List Byte) : Nat :=
  let (fw, fh) := s.featSize d
  64 + ceilDiv (qCount d) 4 + (if qFlag d 17 then fw * fh / 8 else 0) +
    (if qFlag d 16 || s.qdr.acc.isEmpty then 0 else 8192)

/-- PROJECT (R420). -/
def execProject (s : State) : Out :=
  .next <| s.qdrTake 1 State.projectCycles fun s d r =>
    let (s, c) := s.projectJob d
    (if c = 0 then s else s.accEmpty, r.2.fail c)

/-- QDR_JOB_NOP (R413). -/
def execQdrJobNop (s : State) : Out := .next <| s.qdrTake 0 (fun _ _ => 64) fun _ _ r => r

/-! ### The vote grid (R424 to R428) -/

/-- N_LOG2 of QDR_GRID_CFG: values other than 4 to 8 act as 8. -/
def State.gridCfgLog2 (s : State) : Nat :=
  let n := s.fget Reg.qdrGridCfg 3 0
  if 4 ≤ n ∧ n ≤ 8 then n else 8

/-- GRID_CLEAR (R428). -/
def execGridClear (s : State) : Out :=
  .next <| s.qdrTake 2 (fun s _ => 64 + 2 ^ (2 * s.gridCfgLog2) / 8) fun s _ r =>
    let c := s.fget Reg.qdrGridCfg 31 16
    (s.withQdr fun q => { q with votes := [], nLog2 := s.gridCfgLog2, cellMm := max 50 (min 2000 c) }, r.2)

/-- Cells along one side. -/
def State.gridN (s : State) : Nat := 2 ^ s.qdr.nLog2

/-- OR votes of source k into cell (i, j). -/
def State.vote (s : State) (k i j bits : Nat) : State :=
  let c := j * s.gridN + i
  let w := spGet (fun _ => 0) s.qdr.votes c ||| toWord (bits * 2 ^ (2 * k))
  s.withQdr fun q => { q with votes := spSet (fun _ => (0 : Word)) q.votes c w }

/-- An FP32 value as an integer number of 2^-149 m; none where it is not finite. -/
def fFixed (c : Nat) : Option Int :=
  match f32 c with
  | .fin g m e => some (scaledInt g m e (-149))
  | _ => none

/-- One bound on the parameter of a line: num / den, and whether the bound itself is excluded. -/
structure LineBound where
  num : Int
  den : Int
  strict : Bool
  deriving DecidableEq, Repr

/-- Lower and upper bounds on t so that lo ≤ p + t d < hi; none where no t meets them. -/
def lineBounds (p d lo hi : Int) : Option (List LineBound × List LineBound) :=
  if d = 0 then (if lo ≤ p ∧ p < hi then some ([], []) else none)
  else if 0 < d then some ([⟨lo - p, d, false⟩], [⟨hi - p, d, true⟩])
  else some ([⟨p - hi, -d, true⟩], [⟨p - lo, -d, false⟩])

/-- Is the lower bound a compatible with the upper bound b. -/
def boundsMeet (a b : LineBound) : Bool :=
  let l := a.num * b.den
  let r := b.num * a.den
  if a.strict || b.strict then decide (l < r) else decide (l ≤ r)

/-- Does the segment from (px, py) to (qx, qy) touch the half-open box. -/
def segTouches (px py qx qy xlo xhi ylo yhi : Int) : Bool :=
  match lineBounds px (qx - px) xlo xhi, lineBounds py (qy - py) ylo yhi with
  | some (la, ua), some (lb, ub) =>
    (⟨0, 1, false⟩ :: la ++ lb).all fun a => (⟨1, 1, false⟩ :: ua ++ ub).all fun b => boundsMeet a b
  | _, _ => false

/-- The edges of cell i along one axis, in units of 2^-149 mm (R424). -/
def State.cellEdges (s : State) (i : Nat) : Int × Int :=
  let w : Int := s.qdr.cellMm * 2 ^ 149
  let lo := ((i : Int) - (s.gridN : Int) / 2) * w
  (lo, lo + w)

/-- The cells (i, j) of the grid that meet a condition on their edges. -/
def State.cellsWith (s : State) (f : Int × Int → Int × Int → Bool) : List (Nat × Nat) :=
  (List.range s.gridN).flatMap fun j =>
    ((List.range s.gridN).filter fun i => f (s.cellEdges i) (s.cellEdges j)).map fun i => (i, j)

/-- The cells that the line from the origin of sensor k to (x, y) touches, each with whether the line ends in it (R425). A cell
holds its lower edges and not its upper ones. -/
def State.rayCells (s : State) (k x y : Nat) : List (Nat × Nat × Bool) :=
  match fFixed (s.senWord k 9), fFixed (s.senWord k 10), fFixed x, fFixed y with
  | some ox, some oy, some px, some py =>
    let (ox, oy, px, py) := (1000 * ox, 1000 * oy, 1000 * px, 1000 * py)
    let walk := s.cellsWith fun a b => segTouches ox oy px py a.1 a.2 b.1 b.2
    walk.map fun c =>
      let a := s.cellEdges c.1
      let b := s.cellEdges c.2
      (c.1, c.2, decide (a.1 ≤ px ∧ px < a.2 ∧ b.1 ≤ py ∧ py < b.2))
  | _, _, _, _ => []

/-- The votes of one point in the machine frame (R425). -/
def State.voteRay (s : State) (k x y z : Nat) : State :=
  let zlo := s.rget Reg.qdrGridZlo
  let zhi := s.rget Reg.qdrGridZhi
  let below := flt z zlo.toNat
  let between := fle zlo.toNat z && fle z zhi.toNat
  if !below && !between then s
  else (s.rayCells k x y).foldl (fun s c => s.vote k c.1 c.2.1 (if c.2.2 && between then 2 else 1)) s

/-- One point of a RANGE_VOTE job. -/
def State.voteOne (s : State) (k : Nat) (p : Point) : State :=
  if p.bad then s.count Reg.qdrPtNanCount 1
  else
    let (x, y, z) := s.toMachine k p
    s.voteRay k x y z

/-- Cycles of a RANGE_VOTE job (R438). -/
def State.rangeCycles (s : State) (d : List Byte) : Nat :=
  (List.range (qCount d)).foldl (fun n i =>
    let p := pointOf (s.readBytes (descAddr d 0x10 + 16 * i) 16)
    let (x, y, _) := s.toMachine (qSrc d) p
    n + max 1 (ceilDiv (if p.bad then 0 else (s.rayCells (qSrc d) x y).length) 8)) 64

/-- RANGE_VOTE (R425). -/
def execRangeVote (s : State) : Out :=
  .next <| s.qdrTake 3 State.rangeCycles fun s d r =>
    let (s, sen) := s.calRead (3072 + 64 * qSrc d) 64
    if !countOk d 1048576 then (s, r.2.fail 3)
    else if sen ≠ 0 then (s, r.2.fail sen)
    else if !s.senValid (qSrc d) then (s, r.2.fail 2)
    else
      let (s, c) := State.overRecords 16 (fun s _ bs => (s.voteOne (qSrc d) (pointOf bs), 0)) (descAddr d 0x10)
        (qCount d) 0 s
      (s, r.2.fail c)

/-! ### Detections and tracks (R429 to R435) -/

/-- A detection record. -/
structure Detection where
  x : Nat
  y : Nat
  z : Nat
  l : Nat
  w : Nat
  h : Nat
  score : Nat
  cls : Nat
  deriving DecidableEq, Repr

/-- The detection in 32 bytes. -/
def detectionOf (bs : List Byte) : Detection :=
  let f (i : Nat) : Nat := descWord bs (4 * i)
  ⟨f 0, f 1, f 2, f 3, f 4, f 5, f 6, bitsOf (f 7) 7 0⟩

/-- Is an FP32 code finite. -/
def fFinite (c : Nat) : Bool := (fFixed c).isSome

/-- Is a detection valid (R416). -/
def Detection.valid (d : Detection) : Bool :=
  [d.x, d.y, d.z, d.l, d.w, d.h, d.score].all fFinite && [d.l, d.w, d.h].all fun c => !flt c 0

/-- The cells of a detection's footprint (R426). -/
def State.footprint (s : State) (d : Detection) : List (Nat × Nat) :=
  match fFixed d.x, fFixed d.y, fFixed d.l, fFixed d.w with
  | some x, some y, some l, some w =>
    let near (e : Int × Int) (c ext : Int) : Bool :=
      decide ((e.1 + e.2 - 2000 * c).natAbs ≤ (1000 * ext).natAbs)
    s.cellsWith fun a b => near a x l && near b y w
  | _, _, _, _ => []

/-- The footprint of a detection votes occupied (R426). -/
def State.voteFootprint (s : State) (k : Nat) (d : Detection) : State :=
  (s.footprint d).foldl (fun s c => s.vote k c.1 c.2 2) s

/-- 1e-9 in FP32. -/
def fNano : Nat := 0x3089705F

/-- dt of R430 from a number of nanoseconds. -/
def dtOf (ns : Nat) : Nat := fmul (fOfInt ns) fNano

/-- A row of a matrix times a column: the fma chain of R430, from +0. -/
def fmaChain (row col : List Nat) : Nat := (row.zip col).foldl (fun acc e => ffma e.1 e.2 acc) 0

/-- F of R430. -/
def matF (ca : Bool) (dt : Nat) : List (List Nat) :=
  if ca then [[fOne, dt, fmul (fmul dt dt) fHalf], [0, fOne, dt], [0, 0, fOne]] else [[fOne, dt], [0, fOne]]

/-- Q of R430. -/
def matQ (ca : Bool) (q dt : Nat) : List (List Nat) :=
  let d2 := fmul dt dt
  let d3 := fmul d2 dt
  let d4 := fmul d3 dt
  let d5 := fmul d4 dt
  let quot (x : Nat) (k : Int) : Nat := fmul q (fdiv x (fOfInt k))
  if ca then [[quot d5 20, quot d4 8, quot d3 6], [quot d4 8, quot d3 3, quot d2 2], [quot d3 6, quot d2 2, fmul q dt]]
  else [[quot d3 3, quot d2 2], [quot d2 2, fmul q dt]]

/-- The state and covariance of an axis as a vector and a matrix. -/
def TrackAxis.vec (a : TrackAxis) (ca : Bool) : List Nat := if ca then [a.pos, a.vel, a.acc] else [a.pos, a.vel]
def TrackAxis.mat (a : TrackAxis) (ca : Bool) : List (List Nat) :=
  if ca then [[a.p00, a.p01, a.p02], [a.p01, a.p11, a.p12], [a.p02, a.p12, a.p22]]
  else [[a.p00, a.p01], [a.p01, a.p11]]

/-- Element (i, j) of a matrix. -/
def matAt (m : List (List Nat)) (i j : Nat) : Nat := (m.getD i []).getD j 0

/-- Column j of a matrix. -/
def matCol (m : List (List Nat)) (j : Nat) : List Nat := m.map fun r => r.getD j 0

/-- An axis from its vector and the upper triangle of its matrix; unused fields are +0. -/
def axisOf (x : List Nat) (p : Nat → Nat → Nat) (ca : Bool) : TrackAxis :=
  ⟨x.getD 0 0, x.getD 1 0, if ca then x.getD 2 0 else 0, p 0 0, p 0 1, if ca then p 0 2 else 0, p 1 1,
    if ca then p 1 2 else 0, if ca then p 2 2 else 0⟩

/-- Prediction of one axis by dt (R430). -/
def TrackAxis.predict (a : TrackAxis) (ca : Bool) (q dt : Nat) : TrackAxis :=
  let f := matF ca dt
  let m := a.mat ca
  let am := f.map fun row => (List.range f.length).map fun j => fmaChain row (matCol m j)
  axisOf (f.map fun row => fmaChain row (a.vec ca))
    (fun i j => fadd (fmaChain (am.getD i []) (f.getD j [])) (matAt (matQ ca q dt) i j)) ca

/-- A track predicted by dt. -/
def Track.predict (t : Track) (s : State) (dt : Nat) : Track :=
  let q := (s.rget (if t.ca then Reg.qdrQCa else Reg.qdrQCv)).toNat
  { t with x := t.x.predict t.ca q dt, y := t.y.predict t.ca q dt, z := t.z.predict t.ca q dt }

/-- A track's time in ns. -/
def Track.time (t : Track) : Nat := t.sec * 1000000000 + t.ns

/-- The job's time in ns. -/
def jobTime (d : List Byte) : Nat := descAddr d 0x30 * 1000000000 + bitsOf (descWord d 0x38) 29 0

/-- d² of one axis with measurement z and noise r, added to `acc` (R431). -/
def TrackAxis.gate (a : TrackAxis) (z r acc : Nat) : Nat :=
  let y := fsub z a.pos
  fadd acc (fdiv (fmul y y) (fadd a.p00 r))

/-- Noise of source k. -/
def State.srcXy (s : State) (k : Nat) : Nat := (s.rget (Reg.qdrSrcVarxy k)).toNat
def State.srcZ (s : State) (k : Nat) : Nat := (s.rget (Reg.qdrSrcVarz k)).toNat

/-- d² between a track and a detection. -/
def State.gateOf (s : State) (k : Nat) (t : Track) (d : Detection) : Nat :=
  t.z.gate d.z (s.srcZ k) (t.y.gate d.y (s.srcXy k) (t.x.gate d.x (s.srcXy k) 0))

/-- The update of one axis (R431). -/
def TrackAxis.update (a : TrackAxis) (ca : Bool) (z r : Nat) : TrackAxis :=
  let y := fsub z a.pos
  let sv := fadd a.p00 r
  let m := a.mat ca
  let k (i : Nat) : Nat := fdiv (matAt m 0 i) sv
  axisOf ((a.vec ca).zipIdx.map fun e => ffma (k e.2) y e.1)
    (fun i j => fsub (matAt m i j) (fmul (k i) (matAt m 0 j))) ca

/-- An assigned track is updated (R431, R432). -/
def State.updateTrack (s : State) (k : Nat) (t : Track) (d : Detection) (i sec ns : Nat) : Track :=
  let alpha := (s.rget Reg.qdrSizeAlpha).toNat
  let size (old new : Nat) : Nat := ffma alpha (fsub new old) old
  let hits := min 255 (t.hits + 1)
  { t with
    x := t.x.update t.ca d.x (s.srcXy k), y := t.y.update t.ca d.y (s.srcXy k), z := t.z.update t.ca d.z (s.srcZ k)
    len := size t.len d.l, wid := size t.wid d.w, hei := size t.hei d.h
    sec := sec, ns := ns, hits := hits, sources := t.sources ||| 2 ^ k, score := d.score, det := i
    life := if t.life = 3 then 2
      else if t.life = 1 ∧ max 1 (s.fget Reg.qdrTrkCfg 7 4) ≤ hits then 2 else t.life }

/-- A new track (R433). -/
def State.newTrack (s : State) (k : Nat) (d : Detection) (i sec ns : Nat) (id : Word) : Track :=
  let ca := s.bit Reg.qdrTrkCfg 0
  let v (a : Nat) : Nat := (s.rget a).toNat
  let axis (p : Nat) : TrackAxis :=
    ⟨p, 0, 0, v Reg.qdrInitVarp, 0, 0, v Reg.qdrInitVarv, 0, if ca then v Reg.qdrInitVara else 0⟩
  { id := id, life := 1, ca := ca, hits := 1, misses := 0, cls := d.cls, sources := 2 ^ k, score := d.score,
    x := axis d.x, y := axis d.y, z := axis d.z, len := d.l, wid := d.w, hei := d.h, sec := sec, ns := ns, det := i }

/-- The next ID after `id`, which skips 0 (R429). -/
def nextId (id : Word) : Word := if id + 1 = 0 then 1 else id + 1

/-- The order of candidate pairs (d², slot, detection): ascending d², then slot, then detection. -/
def pairBefore (a b : Nat × Nat × Nat) : Bool :=
  if flt a.1 b.1 then true
  else if flt b.1 a.1 then false
  else decide (a.2.1 < b.2.1 ∨ (a.2.1 = b.2.1 ∧ a.2.2 ≤ b.2.2))

/-- Insert into a sorted list. -/
def pairInsert (a : Nat × Nat × Nat) : List (Nat × Nat × Nat) → List (Nat × Nat × Nat)
  | [] => [a]
  | b :: bs => if pairBefore a b then a :: b :: bs else b :: pairInsert a bs

/-- Sort candidate pairs. -/
def pairSort (l : List (Nat × Nat × Nat)) : List (Nat × Nat × Nat) := l.foldr pairInsert []

/-- Assign pairs in order, each while its track and its detection are free: (slot, detection). -/
def assignPairs : List (Nat × Nat × Nat) → List (Nat × Nat) → List (Nat × Nat)
  | [], out => out
  | (_, t, d) :: ps, out =>
    if out.any fun o => o.1 = t ∨ o.2 = d then assignPairs ps out else assignPairs ps (out ++ [(t, d)])

/-- The pairs of detection i that gate, at most the four smallest (R432). -/
def State.candidates (s : State) (k : Nat) (tracks : List (Nat × Track)) (i : Nat) (d : Detection) :
    List (Nat × Nat × Nat) :=
  let strict := s.bit Reg.qdrTrkCfg 1
  let ps := tracks.filterMap fun t =>
    let g := s.gateOf k t.2 d
    if (strict && t.2.cls ≠ d.cls) || !fle g (s.rget Reg.qdrGate).toNat then none else some (g, t.1, i)
  (pairSort ps).take 4

/-- The track table that an ASSOCIATE job works on. -/
structure Assoc where
  table : List (Nat × Track)
  nextId : Word
  refused : Nat
  deriving DecidableEq, Repr

/-- Open a track for an unassigned detection (R433). -/
def State.openTrack (s : State) (k sec ns : Nat) (a : Assoc) (i : Nat) (d : Detection) : Assoc :=
  match (List.range 1024).find? fun n => !(a.table.any fun t => t.1 = n) with
  | none => { a with refused := a.refused + 1 }
  | some n => { a with table := a.table ++ [(n, s.newTrack k d i sec ns a.nextId)], nextId := nextId a.nextId }

/-- The result of ASSOCIATE on valid detections (R432, R433), and the number of tracks excluded. -/
def State.associate (s : State) (d : List Byte) (dets : List (Nat × Detection)) : Assoc × Nat :=
  let k := qSrc d
  let t := jobTime d
  let sec := descAddr d 0x30
  let ns := bitsOf (descWord d 0x38) 29 0
  let tol := 1000 * s.fget Reg.qdrTrkCfg 31 16
  let out := s.qdr.tracks.filter fun x => t + tol < x.2.time
  let live := s.qdr.tracks.filter fun x => ¬ t + tol < x.2.time
  let pred := live.map fun x => (x.1, x.2.predict s (dtOf (t - x.2.time)))
  let pairs := pairSort (dets.flatMap fun e => s.candidates k pred e.1 e.2)
  let asg := assignPairs pairs []
  let det (i : Nat) : Option Detection := (dets.find? fun e => e.1 = i).map (·.2)
  let table := s.qdr.tracks.map fun x =>
    match asg.find? fun o => o.1 = x.1, pred.find? fun p => p.1 = x.1 with
    | some o, some p =>
      match det o.2 with
      | some e => (x.1, s.updateTrack k p.2 e o.2 sec ns)
      | none => x
    | _, _ => x
  let free := dets.filter fun e => !(asg.any fun o => o.2 = e.1)
  (free.foldl (fun a e => s.openTrack k sec ns a e.1 e.2) ⟨table, s.qdr.nextId, 0⟩, out.length)

/-- Read the detections of a job. -/
def State.readDets (s : State) (d : List Byte) : Nat → Nat → List (Nat × Detection) →
    State × Nat × List (Nat × Detection)
  | 0, _, acc => (s, 0, acc)
  | n + 1, i, acc =>
    match s.qdrLoad (descAddr d 0x10 + 32 * i) 32 with
    | (s, (0, bs)) =>
      let e := detectionOf bs
      if e.valid then
        let s := if qFlag d 18 then s.voteFootprint (qSrc d) e else s
        s.readDets d n (i + 1) (acc ++ [(i, e)])
      else (s.count Reg.qdrDetBadCount 1).readDets d n (i + 1) acc
    | (s, (c, _)) => (s, c, acc)

/-- Cycles of an ASSOCIATE job (R438). -/
def State.assocCycles (s : State) (d : List Byte) : Nat :=
  let cells (i : Nat) : Nat :=
    let e := detectionOf (s.readBytes (descAddr d 0x10 + 32 * i) 32)
    if e.valid then (s.footprint e).length else 0
  64 + ceilDiv (s.qdr.tracks.length * qCount d) 4 + 16 * qCount d +
    (if qFlag d 18 then ceilDiv ((List.range (qCount d)).map cells).sum 8 else 0)

/-- ASSOCIATE (R432). -/
def execAssociate (s : State) : Out :=
  .next <| s.qdrTake 4 State.assocCycles fun s d r =>
    if !countOk d 256 then (s, r.2.fail 3)
    else
      match s.readDets d (qCount d) 0 [] with
      | (s, 0, dets) =>
        let (a, out) := s.associate d dets
        (s.count Reg.qdrOosmCount out, { r.2 with tracks := some (a.table, a.nextId), refused := a.refused })
      | (s, c, _) => (s, r.2.fail c)

/-- A track ages (R434): none when it becomes FREE. -/
def State.ageTrack (s : State) (t : Track) : Option Track :=
  let m := if t.sources ≠ 0 then 0 else min 255 (t.misses + 1)
  let t := { t with misses := m, sources := 0 }
  if t.life = 1 then (if 1 ≤ m then none else some t)
  else if t.life = 2 then some (if 1 ≤ m then { t with life := 3 } else t)
  else if max 1 (s.fget Reg.qdrTrkCfg 15 8) ≤ m then none
  else some t

/-- A live track predicted to the job's time; one later than that time takes dt = 0 and keeps its own time (R434 does not say
which time it has afterwards: DESIGN CHOICE, log entry 51). -/
def State.predictTrack (s : State) (d : List Byte) (t : Track) : Track :=
  let u := t.predict s (dtOf (jobTime d - t.time))
  if jobTime d < t.time then u else { u with sec := descAddr d 0x30, ns := bitsOf (descWord d 0x38) 29 0 }

/-- PREDICT (R434). -/
def execPredict (s : State) : Out :=
  .next <| s.qdrTake 5 (fun s _ => 64 + 8 * s.qdr.tracks.length) fun s d r =>
    let table := s.qdr.tracks.filterMap fun x => (s.ageTrack x.2).map fun t => (x.1, s.predictTrack d t)
    (s, { r.2 with tracks := some (table, s.qdr.nextId), deleted := s.qdr.tracks.length - table.length })

/-! ### Publication (R436) -/

/-- Is a vote word occupied, and contested (R427). -/
def voteOccupied (w : Word) : Bool := (List.range 16).any fun k => 2 ≤ fieldOf w (2 * k + 1) (2 * k)
def voteContested (w : Word) : Bool :=
  (List.range 16).any fun k => 2 ≤ fieldOf w (2 * k + 1) (2 * k) &&
    (List.range 16).any fun m => m ≠ k && fieldOf w (2 * m + 1) (2 * m) = 1

/-- The cell that holds a track's (X, Y). -/
def State.trackCell (s : State) (t : Track) : Option Nat :=
  match fFixed t.x.pos, fFixed t.y.pos with
  | some x, some y =>
    let w : Int := s.qdr.cellMm * 2 ^ 149
    let n : Int := s.gridN
    let i := 1000 * x / w + n / 2
    let j := 1000 * y / w + n / 2
    if 0 ≤ i ∧ i < n ∧ 0 ≤ j ∧ j < n then some (j * n + i).toNat else none
  | _, _ => none

/-- The vote word of a cell. -/
def State.voteWord (s : State) (c : Nat) : Word := spGet (fun _ => 0) s.qdr.votes c

/-- One axis of a track record. -/
def TrackAxis.cov (a : TrackAxis) (ca : Bool) : List Byte :=
  natToBytes 4 a.p00 ++ natToBytes 4 a.p01 ++ natToBytes 4 a.p11 ++ natToBytes 4 (if ca then a.p22 else 0)

/-- The 128-byte record of a track slot. -/
def State.trackRecord (s : State) (n : Nat) : List Byte :=
  match s.qdr.tracks.find? fun x => x.1 = n with
  | none => List.replicate 128 0
  | some (_, t) =>
    let cont := match s.trackCell t with
      | some c => voteContested (s.voteWord c)
      | none => false
    let w (v : Nat) : List Byte := natToBytes 4 v
    w t.id.toNat ++ w (t.life + 4 * b2n t.ca + 8 * b2n cont + 256 * t.hits + 65536 * t.misses + 2 ^ 24 * t.cls) ++
      w t.sources ++ w t.score ++ w t.x.pos ++ w t.y.pos ++ w t.z.pos ++ w t.x.vel ++ w t.y.vel ++ w t.z.vel ++
      w t.x.acc ++ w t.y.acc ++ w t.z.acc ++ w t.len ++ w t.wid ++ w t.hei ++ t.x.cov t.ca ++ t.y.cov t.ca ++
      t.z.cov t.ca ++ w t.sec ++ w t.ns ++ w t.det ++ w 0

/-- LIVE and CONFIRMED. -/
def liveCount (ts : List (Nat × Track)) : Nat := ts.length
def confirmedCount (ts : List (Nat × Track)) : Nat := (ts.filter fun t => 2 ≤ t.2.life).length

/-- A bitmap over the cells, little-endian. -/
def bitmap (f : Nat → Bool) (n : Nat) : List Byte :=
  (List.range (n / 8)).map fun k => BitVec.ofNat 8 <|
    (List.range 8).foldl (fun v b => v + b2n (f (8 * k + b)) * 2 ^ b) 0

/-- The bytes of a publication (R436). -/
def State.publication (s : State) (d : List Byte) : List Byte :=
  let n := s.gridN
  let cells := List.range (n * n)
  let w (v : Nat) : List Byte := natToBytes 4 v
  w s.qdr.pubSeq.toNat ++ w (liveCount s.qdr.tracks + 65536 * confirmedCount s.qdr.tracks) ++ natToBytes 8 s.beat ++
    natToBytes 8 (descAddr d 0x30) ++ w (bitsOf (descWord d 0x38) 29 0) ++ w (s.qdr.cellMm + 65536 * s.qdr.nLog2) ++
    w (cells.filter fun c => voteContested (s.voteWord c)).length ++
    w (cells.filter fun c => voteOccupied (s.voteWord c)).length ++
    w (s.fget Reg.qdrCalSel 0 0) ++ List.replicate 20 0 ++
    (List.range 1024).flatMap s.trackRecord ++ cells.flatMap (fun c => w (s.voteWord c).toNat) ++
    bitmap (fun c => voteContested (s.voteWord c)) (n * n)

/-- The stride of the publication buffers (R436). -/
def State.pubStride (s : State) : Nat :=
  let n := s.gridN
  ceilDiv (64 + 131072 + 4 * n * n + n * n / 8) 64 * 64

/-- NBUF (R436). -/
def State.pubBufs (s : State) : Nat := max 1 (s.fget Reg.qdrPubCfg 1 0) + 1

/-- Is a publication buffer free. -/
def State.pubFree (s : State) : Bool :=
  (s.mainOn || !s.bit Reg.qdrPubCfg 2) && decide ((s.qdr.pubSeq - s.pubRelease).toNat < s.pubBufs)

/-- A publication is written, and its buckle set: the state and its code. -/
def State.publish (s : State) (d : List Byte) : State × Nat :=
  let q := s.qdr.pubSeq
  let a := reflexBase + s.fget Reg.qdrPubBase 22 6 * 64 + s.pubStride * (q.toNat % s.pubBufs)
  let bs := s.publication d
  if !inReflex a bs.length then (s, 5)
  else
    match s.qdrStore a bs with
    | (t, 0) =>
      let t := if (List.range (s.gridN * s.gridN)).any fun c => voteContested (s.voteWord c) then
          t.flag Reg.qdrStatus 7 else t
      ((t.withQdr fun r => { r with pubSeq := q + 1 }).bklSet .quadrille (s.fget Reg.qdrPubBkl 13 0) (q + 1), 0)
    | r => r

/-- PUBLISH (R436). -/
def execPublish (s : State) : Out :=
  .next <| s.qdrTake 6 (fun s _ => 64 + s.pubStride / 64) fun s d r =>
    if s.pubFree then
      let (s, c) := s.publish d
      (s, r.2.fail c)
    else ((s.count Reg.qdrPubSkipCount 1).flag Reg.qdrStatus 8, r.2)

/-! ### The end of a job (R413, R414, R435) -/

/-- QDR_TRACKS follows the table. -/
def State.showTracks (s : State) : State :=
  s.rset Reg.qdrTracks (toWord (liveCount s.qdr.tracks + 65536 * confirmedCount s.qdr.tracks))

/-- TRK_CLEAR (R435). -/
def State.trackClear (s : State) : State :=
  if s.qdr.job.isSome then s.withQdr fun q => { q with clear := true }
  else (s.withQdr fun q => { q with tracks := [], clear := false }).showTracks

/-- The table that a job computed is applied (R435). -/
def State.applyTracks (s : State) (j : QdrJob) : State :=
  match j.tracks with
  | none => s
  | some (ts, id) =>
    let s := ((s.withQdr fun q => { q with tracks := ts, nextId := id }).count Reg.qdrTrackDeletedCount
      j.deleted).count Reg.qdrTrackRefusedCount j.refused
    (if j.refused = 0 then s else s.flag Reg.qdrStatus 6).showTracks

/-- The end of job j. -/
def State.jobEnd (s : State) (j : QdrJob) : State :=
  let s := if j.code = 0 then s.applyTracks j else s
  let s := s.writeNat (s.qdrSlot j.index + 0x3C) 4 (j.code + 2 ^ 31)
  let s := (s.rset Reg.qdrRingHead (j.index + 1)).bump Reg.qdrJobCount 1
  let s := s.withQdr fun q => { q with job := none }
  let s := if s.qdr.clear then s.trackClear else s
  let s := if j.code = 0 then
      (let w := descWord j.desc 4
       if bitsOf w 31 31 = 1 then s.bklAdd .quadrille (bitsOf w 29 16) 1 else s)
    else
      ((s.flag Reg.qdrStatus 4).flag Reg.qdrStatus 2).rset Reg.qdrLastErr
        (toWord (j.code + 256 * j.kind + 65536 * (j.index.toNat % 65536)))
  if s.qdrState = 2 then (s.fset Reg.qdrStatus 1 0 3).flag Reg.qdrStatus 5 else s.fset Reg.qdrStatus 1 0 0

/-- Can a job have taken its cycles by now (R438): 6.4 CLK_RFX cycles to the beat. -/
def State.jobDue (s : State) (j : QdrJob) : Bool := decide (10 * j.cycles ≤ 64 * (s.beat + 1 - j.start))

/-- QDR_JOB_END (R413, R414, R438). A descriptor with an unknown JOB ends here with code 0x01. -/
def execQdrJobEnd (s : State) : Out :=
  .next <|
    match s.qdr.job with
    | some j => if s.jobDue j then s.jobEnd j else s
    | none =>
      match s.qdrNext with
      | none => s
      | some d =>
        if qJob d ≤ 6 then s else s.jobEnd ⟨s.rget Reg.qdrRingHead, qJob d, 1, d, none, 0, 0, s.beat, 0⟩

/-! ### Register writes -/

/-- A write is ignored (R412, R437). -/
def State.qdrRefuse (s : State) : State := s.flag Reg.qdrStatus 9

/-- A write of QDR_RING_TAIL (R412). -/
def State.qdrTailWrite (s : State) (v : Word) : State :=
  if s.qdrRingSize < (v - s.rget Reg.qdrRingHead).toNat then s.qdrRefuse else s.rset Reg.qdrRingTail v

/-- QDR_RING_TAIL_WRITE (R412). -/
def execQdrRingTailWrite (who : Initiator) (value : Word) (s : State) : Out :=
  .next (s.softWrite who Reg.qdrRingTail value fun s v => s.qdrTailWrite v)

/-- ENABLE (R440). -/
def State.qdrEnable (s : State) (on : Bool) : State :=
  if on then
    (if 2 ≤ s.qdrState then s.fset Reg.qdrStatus 1 0 (if s.qdr.job.isSome then 1 else 0) else s)
  else if s.qdr.job.isSome then (if s.qdrState = 1 then s.fset Reg.qdrStatus 1 0 2 else s)
  else if s.qdrState = 3 then s
  else (s.fset Reg.qdrStatus 1 0 3).flag Reg.qdrStatus 5

/-- A write of QDR_CTRL: ENABLE, then TRK_CLEAR, then RESUME. -/
def State.qdrCtrlWrite (s : State) (v : Word) : State :=
  let s := (s.putRw Reg.qdrCtrl v).qdrEnable (bitOf v 0)
  let s := if bitOf v 2 then s.trackClear else s
  if bitOf v 1 then s.bput Reg.qdrStatus 2 false else s

/-- A write of QDR_CTRL by a command row. -/
def qdrCommand (who : Initiator) (v : Word) (s : State) : Out :=
  .next (s.softWrite who Reg.qdrCtrl v fun s v => s.qdrCtrlWrite v)

/-- QDR_RESUME (R414). -/
def execQdrResume (who : Initiator) (value : Word) (s : State) : Out := qdrCommand who (value ||| 2) s

/-- QDR_TRACK_CLEAR (R435). -/
def execQdrTrackClear (who : Initiator) (value : Word) (s : State) : Out := qdrCommand who (value ||| 4) s

/-- QDR_DISABLE (R440). -/
def execQdrDisable (who : Initiator) (value : Word) (s : State) : Out := qdrCommand who (value &&& ~~~ 1) s

/-- QDR_ENABLE (R440). -/
def execQdrEnable (who : Initiator) (value : Word) (s : State) : Out := qdrCommand who (value ||| 1) s

/-- A write of QDR_PUB_RELEASE: ignored with REL_SRC = 1, as ING_STRn_RELEASE is (R400, R436). -/
def State.pubReleaseWrite (s : State) (v : Word) : State :=
  if s.bit Reg.qdrPubCfg 2 then s else s.putRw Reg.qdrPubRelease v

/-- QDR_PUB_RELEASE_WRITE (R436). -/
def execQdrPubReleaseWrite (who : Initiator) (value : Word) (s : State) : Out :=
  .next (s.softWrite who Reg.qdrPubRelease value fun s v => s.pubReleaseWrite v)

/-- Does Quadrille accept a configuration write now (R437). -/
def State.qdrQuiet (s : State) : Bool :=
  (s.qdrState = 0 || s.qdrState = 3) && s.rget Reg.qdrRingHead = s.rget Reg.qdrRingTail

/-- A write of QDR_GRID_CFG, QDR_PUB_CFG or QDR_PUB_BASE (R437). -/
def State.qdrCfgWrite (s : State) (o : Nat) (v : Word) : State :=
  if s.qdrQuiet then s.putRw (0x10120000 + o) v else s.qdrRefuse

/-- QDR_CONFIG_WRITE (R437). -/
def execQdrConfigWrite (who : Initiator) (offset : Nat) (value : Word) (s : State) : Out :=
  s.named (decide (offset = 0x48 ∨ offset = 0x54 ∨ offset = 0x58)) <|
    s.softWrite who (0x10120000 + offset) value fun s v => s.qdrCfgWrite offset v

/-- Is a write of QDR_RING_CFG accepted (R412). -/
def State.ringCfgOk (s : State) (v : Word) : Bool :=
  let e := fieldOf v 27 24
  !s.bit Reg.qdrCtrl 0 && decide (4 ≤ e ∧ e ≤ 12 ∧ fieldOf v 22 0 % (64 * 2 ^ e) = 0)

/-- The write rule of the QDR_ block. -/
def State.qdrWrite (s : State) (o : Nat) (v : Word) : State :=
  if o = 0x04 then s.qdrCtrlWrite v
  else if o = 0x10 then (if s.ringCfgOk v then s.putRw Reg.qdrRingCfg v else s.qdrRefuse)
  else if o = 0x14 then s.qdrTailWrite v
  else if o = 0x48 ∨ o = 0x54 ∨ o = 0x58 then s.qdrCfgWrite o v
  else if o = 0x60 then s.pubReleaseWrite v
  else s.putTyped (0x10120000 + o) v 0

end Sys2Proof.Machine
end

