-- ==== Sys2Proof/Machine/Grid.lean ====
section
/-!
DEFINITION. Machine/Grid.lean: the independent grid that Cinch builds from its copy of the range points
(R554 to R557).
-/

namespace Sys2Proof.Machine

/-- The grid parameter block in Cinch SRAM: word at offset `o`. -/
def State.gridWord (s : State) (o : Nat) : Nat := s.readNat (cinchBase + s.fget Reg.cinGridCfg 19 6 * 64 + o) 4

/-- N_LOG2, CELL_MM, MARGIN_MM and the number of sensors. -/
def State.gridLog2 (s : State) : Nat := bitsOf (s.gridWord 0) 3 0
def State.gridCell (s : State) : Nat := bitsOf (s.gridWord 0) 31 16
def State.gridMargin (s : State) : Nat := bitsOf (s.gridWord 0x0C) 15 0
def State.gridSensors (s : State) : Nat := bitsOf (s.gridWord 0x0C) 19 16

/-- Word at offset `o` of sensor entry k. -/
def State.gridSen (s : State) (k o : Nat) : Nat := s.gridWord (0x40 + 64 * k + o)

/-- Does the parameter block keep to its table. -/
def State.gridBlockOk (s : State) : Bool :=
  decide (6 ≤ s.gridLog2 ∧ s.gridLog2 ≤ 8 ∧ 50 ≤ s.gridCell ∧ s.gridCell ≤ 2000 ∧ 1 ≤ s.gridSensors ∧
    s.gridSensors ≤ 8)

/-- A point of the engine's grid: sensor, machine-frame coordinates in Q16.16. -/
structure GridPoint where
  sensor : Nat
  x : Int
  y : Int
  z : Int
  deriving DecidableEq, Repr

/-- A number of `n` bytes of the payload at offset `o`. -/
def payNum (big : Bool) (bs : List Byte) (o n : Nat) : Nat :=
  let w := (bs.drop o).take n
  bytesToNat (if big then w.reverse else w)

/-- One coordinate of a point in Q16.16; none where it is not-a-number. -/
def State.gridCoord (s : State) (k : Nat) (bs : List Byte) (o i : Nat) : Option Int :=
  let w := s.gridSen k 0x30
  let big := bitsOf w 10 10 = 1
  if bitsOf w 9 8 = 0 then qVal (toWord (payNum big bs (o + 4 * i) 4))
  else some (Config.mmToQ (sext 16 (payNum big bs (o + 2 * i) 2)))

/-- Coordinate i of a point in the machine frame (R556). -/
def State.gridRotate (s : State) (k : Nat) (p : Int × Int × Int) (i : Nat) : Int :=
  let r (j : Nat) : Int := sext 32 (s.gridSen k (4 * (3 * i + j)))
  mula (r 0) p.1 + mula (r 1) p.2.1 + mula (r 2) p.2.2 + sext 32 (s.gridSen k (0x24 + 4 * i))

/-- The point at offset `o` of a payload. A point with a coordinate that is not-a-number (R161) is used for nothing (R556 does not
say: DESIGN CHOICE, log entry 51). -/
def State.gridPoint (s : State) (k : Nat) (bs : List Byte) (o : Nat) : Option GridPoint :=
  match s.gridCoord k bs o 0, s.gridCoord k bs o 1, s.gridCoord k bs o 2 with
  | some x, some y, some z =>
    let r := s.gridRotate k (x, y, z)
    some ⟨k, r 0, r 1, r 2⟩
  | _, _, _ => none

/-- The points of one record for sensor entry k. -/
def State.gridPointsOf (s : State) (k : Nat) (payload : List Byte) : List GridPoint :=
  let off := bitsOf (s.gridSen k 0x34) 15 0
  let stride := bitsOf (s.gridSen k 0x34) 31 16
  let size := if bitsOf (s.gridSen k 0x30) 9 8 = 0 then 12 else 6
  if stride < 6 ∨ 256 < stride ∨ payload.length < off + size then []
  else
    (List.range ((payload.length - off - size) / stride + 1)).filterMap fun i =>
      s.gridPoint k payload (off + stride * i)

/-- The points of a record: those of the first sensor entry that names its stream (R555 does not say which of several does: DESIGN
CHOICE, log entry 51). -/
def State.gridRecord (s : State) (rec_ : List Byte) : List GridPoint :=
  let stream := bitsOf (descWord rec_ 0x0C) 5 0
  let payload := (rec_.drop 16).take (descWord rec_ 8)
  match (List.range s.gridSensors).find? fun k => bitsOf (s.gridSen k 0x30) 5 0 = stream with
  | none => []
  | some k => s.gridPointsOf k payload

/-- Offsets of a point from its sensor, in units of 1/65,536,000 m. -/
def State.gridDx (s : State) (p : GridPoint) : Int := 1000 * (p.x - sext 32 (s.gridSen p.sensor 0x24))
def State.gridDy (s : State) (p : GridPoint) : Int := 1000 * (p.y - sext 32 (s.gridSen p.sensor 0x28))

/-- Is a point in the occupying height band. -/
def State.gridInBand (s : State) (p : GridPoint) : Bool :=
  decide (sext 32 (s.gridWord 4) ≤ p.z ∧ p.z ≤ sext 32 (s.gridWord 8))

/-- The centre of cell i along one axis, in units of 1/65,536,000 m. -/
def State.gridCentre (s : State) (i : Nat) : Int := (2 * (i : Int) + 1 - 2 ^ s.gridLog2) * s.gridCell * 32768

/-- Does a point in the height band lie in cell (i, j). -/
def State.gridHits (s : State) (i j : Nat) (p : GridPoint) : Bool :=
  let half : Int := s.gridCell * 32768
  let near (c v : Int) : Bool := decide (c - half ≤ 1000 * v ∧ 1000 * v < c + half)
  s.gridInBand p && near (s.gridCentre i) p.x && near (s.gridCentre j) p.y

/-- √c + m < √n for non-negative numbers, exactly. -/
def rootLess (c m n : Int) : Bool :=
  let d := n - c - m * m
  decide (0 < d ∧ 4 * m * m * c < d * d)

/-- Does sensor k prove cell (i, j) free (R556). -/
def State.gridFree (s : State) (pts : List GridPoint) (i j k : Nat) : Bool :=
  let dx := s.gridCentre i - 1000 * sext 32 (s.gridSen k 0x24)
  let dy := s.gridCentre j - 1000 * sext 32 (s.gridSen k 0x28)
  let bin := Config.azimuthBin dx dy % 1024
  let mine := pts.filter fun p => p.sensor = k ∧ Config.azimuthBin (s.gridDx p) (s.gridDy p) % 1024 = bin
  let far : Int := 1000 * sext 32 (s.gridSen k 0x38)
  let c := dx * dx + dy * dy
  !mine.isEmpty && decide (0 < far ∧ c < far * far) &&
    mine.all fun p => !s.gridInBand p ||
      rootLess c (65536 * (s.gridMargin : Int)) (s.gridDx p * s.gridDx p + s.gridDy p * s.gridDy p)

/-- The code of cell (i, j): 0 UNKNOWN, 1 FREE, 2 OCCUPIED. -/
def State.gridCode (s : State) (pts : List GridPoint) (i j : Nat) : Nat :=
  if pts.any (s.gridHits i j) then 2
  else if (List.range s.gridSensors).any (s.gridFree pts i j) then 1
  else 0

/-- The bytes of the grid: 2 bits per cell, in cell order. -/
def State.gridBytes (s : State) (pts : List GridPoint) : List Byte :=
  let n := 2 ^ s.gridLog2
  packElems 2 ((List.range n).flatMap fun j => (List.range n).map fun i => s.gridCode pts i j)

/-- The grid of the frame replaces the one before (R556). -/
def State.gridClose (s : State) : State :=
  let pts := s.cin.gridRecs.flatMap s.gridRecord
  let s' := s.writeBytes (cinchBase + bitsOf (s.gridWord 0x10) 22 0) (s.gridBytes pts)
  let s' := (s'.flag Reg.cinGridStatus 0).fset Reg.cinGridStatus 31 8 (min (2 ^ 24 - 1) pts.length)
  s'.withCin fun c => { c with gridRecs := [] }

/-- Is the close of the current frame due: once per frame, CLOSE × 100 µs after its start. -/
def State.gridDue (s : State) : Bool :=
  s.bit Reg.cinGridCfg 0 && !s.bit Reg.cinGridStatus 0 && s.gridBlockOk &&
    s.cin.frameStart.any fun b => b + 12500 * s.fget Reg.cinGridCfg 31 20 ≤ s.beat

/-- GRID_CLOSE (R556). -/
def execGridClose (s : State) : Out := .next (if s.gridDue then s.gridClose else s)

end Sys2Proof.Machine
end

