-- ==== Sys2Proof/Machine/Shauz.lean ====
section
/-!
DEFINITION. Machine/Shauz.lean: the Shauz link: ports and replay, enumeration, routes, remote accesses, linked
transactions, time exchange, breaks and leaves (R560 to R591).
-/

namespace Sys2Proof.Machine

/-! ### Line order and routes (R572, R585) -/

/-- The number next to node n through a port, in the line order of the last assignment. -/
def nextAlong (order : List Nat) (ring : Bool) (n port : Nat) : Option Nat :=
  let k := order.length
  let i := order.idxOf n
  if k ≤ i then none
  else if port = 0 then
    (if i + 1 < k then order[i + 1]? else if ring then order[0]? else none)
  else if 0 < i then order[i - 1]? else if ring then order[k - 1]? else none

/-- Hops from node `cur` to node `dst` always through `port`, over the links that are not down. -/
def hopsVia (order : List Nat) (ring : Bool) (down : List (Nat × Nat)) (port dst : Nat) : Nat → Nat → Option Nat
  | 0, _ => none
  | fuel + 1, cur =>
    match nextAlong order ring cur port with
    | none => none
    | some m =>
      if down.contains (cur, port) || down.contains (m, 1 - port) then none
      else if m = dst then some 1
      else (hopsVia order ring down port dst fuel m).map (· + 1)

/-- The ports that are down as this node knows: the last beacon's report and its own. -/
def State.downPorts (s : State) : List (Nat × Nat) :=
  s.shz.broken.filter (fun b => b.1 ≠ s.ownNode) ++
    ((List.range 2).filter fun p => !s.portUp p).map fun p => (s.ownNode, p)

/-- Hops to node n through port p. -/
def State.hops (s : State) (p n : Nat) : Option Nat :=
  hopsVia s.shz.order s.shz.ring s.downPorts p n 8 s.ownNode

/-- Can node n be reached now. A node reaches itself; an ISOLATED node does not reach node 0 (R585). -/
def State.canReach (s : State) (n : Nat) : Bool :=
  s.numbered && (n = s.ownNode ||
    ((s.hops 0 n).isSome || (s.hops 1 n).isSome) && !(decide (n = 0) && s.fget Reg.shzStatus 1 0 = 3))

/-- Is node n routed through port 1: fewer hops, and port 0 at equal distance (R572). -/
def State.viaPort1 (s : State) (n : Nat) : Bool :=
  match s.hops 0 n, s.hops 1 n with
  | some a, some b => decide (b < a)
  | none, some _ => true
  | _, none => false

/-- A bit mask of the nodes with a property. -/
def nodeMask (f : Nat → Bool) : Nat := (List.range 8).foldl (fun m n => m + 2 ^ n * b2n (f n)) 0

/-- Forget every message held for node n (R577). -/
def State.dropHeld (s : State) (n : Nat) : State :=
  let x := s.shzPeer n
  (s.count Reg.shzUnreachCount x.held.length).putShzPeer n { x with held := [] }

/-- Resend what node n has not acknowledged over the present route (R574). -/
def State.resendHeld (s : State) (n : Nat) : State :=
  ((s.shzPeer n).held.take 256).foldl (fun s f => s.putFlit (s.routePort n) f) s

/-- A linked transaction loses a node it needs (R581). -/
def State.linkLost (s : State) (lost : Nat → Bool) : State :=
  (List.range 8).foldl (fun s l =>
    let needed := if s.bit (Reg.shzLinkCfg l) 1 then [s.fget (Reg.shzLinkCfg l) 10 8] else s.linkNodes l
    if s.bit (Reg.shzLinkCfg l) 0 && needed.any lost then s.abortTxn (s.fget (Reg.shzLinkCfg l) 7 2) 0xB else s) s

/-- HOLDOVER (R584). -/
def State.syncHoldover (s : State) : State :=
  s.bput Reg.shzStatus 2 (s.numbered && decide (s.ownNode ≠ 0) &&
    (s.fget Reg.shzStatus 1 0 = 3 || !s.bit Reg.shzNode 16))

/-- PEER of port p. -/
def State.syncPeer (s : State) (p : Nat) : State :=
  match nextAlong s.shz.order s.shz.ring s.ownNode p with
  | some m =>
    if s.numbered && s.portUp p && !s.shz.broken.contains (m, 1 - p) then
      (s.fset (Reg.shzPStatus p) 10 8 m).bput (Reg.shzPStatus p) 11 true
    else (s.fset (Reg.shzPStatus p) 10 8 0).bput (Reg.shzPStatus p) 11 false
  | none => (s.fset (Reg.shzPStatus p) 10 8 0).bput (Reg.shzPStatus p) 11 false

/-- TOPOLOGY as the line order and the breaks make it (R568, R586). -/
def State.topologyNow (s : State) : Nat :=
  if !s.numbered then 0
  else if s.fget Reg.shzStatus 1 0 = 3 then 3
  else if s.shz.ring && s.downPorts.isEmpty then 1 else 2

/-- REACH, VIA_P1, UP_PORT, PEER, TOPOLOGY and HOLDOVER follow the ports and the beacon's report; held messages take
the new routes or are dropped; linked transactions that lose a node abort (R572, R574, R577, R581, R585). -/
def State.syncRoutes (s : State) : State :=
  let oldTop := s.fget Reg.shzStatus 1 0
  let oldReach := s.fget Reg.shzNode 23 16
  let oldVia := s.fget Reg.shzNode 31 24
  let reach := nodeMask s.canReach
  let via := nodeMask s.viaPort1
  let s := ((s.fset Reg.shzNode 23 16 reach).fset Reg.shzNode 31 24 via).fset Reg.shzNode 12 12 (via % 2)
  let s := ((s.fset Reg.shzStatus 1 0 s.topologyNow).syncPeer 0).syncPeer 1
  let s := if s.fget Reg.shzStatus 1 0 ≠ oldTop ∨ reach ≠ oldReach then s.flag Reg.shzStatus 4 else s
  let s := s.syncHoldover
  let s := (List.range 8).foldl (fun s n =>
    if !reach.testBit n then s.dropHeld n
    else if !oldReach.testBit n || oldVia.testBit n != via.testBit n then s.resendHeld n else s) s
  s.linkLost fun n => oldReach.testBit n && !reach.testBit n

/-! ### The link layer (R562, R566) -/

/-- The receiver of port p asks for a replay. -/
def State.shzNak (s : State) (p : Nat) : State := s.putShzPort p { s.shzPort p with nak := true }

/-- Link number a is at or before b. -/
def seqUpTo (a b : Nat) : Bool := decide ((b + 4096 - a % 4096) % 4096 < 2048)

/-- Flits that the other end acknowledges leave the replay buffer. -/
def State.takeAck (s : State) (p ack : Nat) : State :=
  let x := s.shzPort p
  let rest := x.out.filter fun g => !seqUpTo g.seq ack
  if rest.length < x.out.length then
    s.putShzPort p { x with out := rest, replays := 0, replaying := false, waits := s.beat }
  else s

/-- Port p resends every flit of its replay buffer. -/
def State.replay (s : State) (p : Nat) : State :=
  let x := s.shzPort p
  if x.out.isEmpty then s
  else
    (s.count (Reg.shzPReplayCount p) (min 256 x.out.length)).putShzPort p
      { x with replays := x.replays + 1, replaying := true, waits := s.beat }

/-- The flit with sequence number `seq` is accepted. -/
def State.takeSeq (s : State) (p seq : Nat) : State := s.putShzPort p { s.shzPort p with rxSeq := seq }

/-- A good flit while the receiver of port p has no lock: it locks after 8 in a row (R562). -/
def State.regainLock (s : State) (p : Nat) : State :=
  let x := s.shzPort p
  s.putShzPort p { x with badRun := if 11 ≤ x.badRun then 0 else x.badRun + 1 }

/-- Link words of a good flit that port p receives: the state, and whether the flit is accepted (R566, R570). A flit of
another generation is discarded; before the node is numbered, and for ENUM, the generation is not compared. -/
def State.linkTake (s : State) (p : Nat) (f : Flit) : State × Bool :=
  if !s.portUp p then (s, false)
  else if 4 ≤ (s.shzPort p).badRun then (s.regainLock p, false)
  else if s.numbered && decide (f.typ ≠ 8) && decide (f.gen ≠ s.ringGen) then
    ((s.count Reg.shzBadCount 1).shzNak p, false)
  else
    let s := (s.putShzPort p { s.shzPort p with badRun := 0 }).takeAck p f.ack
    let s := if f.nak && !(s.shzPort p).replaying then s.replay p else s
    if f.typ = 0 then (s, false)
    else if f.seq % 4096 = ((s.shzPort p).rxSeq + 1) % 4096 then (s.takeSeq p (f.seq % 4096), true)
    else (s.shzNak p, false)

/-- A flit between nodes: delivered here, or forwarded through the other port (R572). -/
def State.arrive (s : State) (p : Nat) (f : Flit) (act : State → State) : State :=
  let (s, ok) := s.linkTake p f
  if !ok then s
  else if s.numbered && f.dst = s.ownNode then act s
  else s.putFlit (1 - p) f

/-- A flit between neighbours. -/
def State.arriveHere (s : State) (p : Nat) (f : Flit) (act : State → State) : State :=
  let (s, ok) := s.linkTake p f
  if ok then act s else s

/-! ### End-to-end messages (R571, R573, R574) -/

/-- The node sends an E2E_ACK to node n. -/
def State.sendE2eAck (s : State) (n : Nat) : State :=
  let x := s.shzPeer n
  (s.putShzPeer n { x with fresh := 0 }).sendPlain (s.flit 5 n 0 0 0 ((x.accepted + 1) % 65536) [])

/-- Accept an end-to-end message and apply it, or discard it (R571, R573). -/
def State.e2eTake (s : State) (f : Flit) (act : State → State) : State :=
  if f.dstEpoch ≠ s.epochOf s.ownNode ∨ f.srcEpoch ≠ s.epochOf f.src then
    (s.count Reg.shzStaleCount 1).flag Reg.shzStatus 6
  else
    let x := s.shzPeer f.src
    let d := (f.e2e + 65535 - x.accepted % 65536) % 65536
    if d = 0 then
      let s := act (s.putShzPeer f.src { x with accepted := f.e2e % 65536, fresh := x.fresh + 1 })
      if 32 ≤ (s.shzPeer f.src).fresh then s.sendE2eAck f.src else s
    else if 32768 ≤ d then s.count Reg.shzDupCount 1
    else s.sendE2eAck f.src

/-- An end-to-end message reaches port p. -/
def State.arriveE2e (s : State) (p : Nat) (f : Flit) (act : State → State) : State :=
  s.arrive p f fun s => s.e2eTake f act

/-- Node n acknowledges every message before `next`; messages that waited for room go out. -/
def State.e2eAcked (s : State) (n next : Nat) : State :=
  let x := s.shzPeer n
  let rest := x.held.filter fun g => !decide ((next + 65535 - g.e2e % 65536) % 65536 < 32768)
  let gone := x.held.length - rest.length
  let s := s.putShzPeer n { x with held := rest }
  ((rest.take 256).drop (256 - gone)).foldl (fun s f => s.putFlit (s.routePort n) f) s

/-- SHZ_IDLE (R563). -/
def execShzIdle (port : Nat) (f : Flit) (s : State) : Out := .next (s.linkTake port { f with typ := 0 }).1

/-- SHZ_E2E_ACK (R574). -/
def execShzE2eAck (port : Nat) (f : Flit) (s : State) : Out :=
  .next <| s.arrive port { f with typ := 5 } fun s => s.e2eAcked f.src f.e2e

/-! ### Remote accesses (R575 to R577) -/

/-- A request as R565 allows it. -/
def requestShape (f : Flit) : Bool :=
  decide (4 ≤ f.len ∧ f.len ≤ 96 ∧ f.len % 4 = 0 ∧ f.addr % 4 = 0 ∧ f.addr / 4096 = (f.addr + f.len - 1) / 4096)

/-- Refuse a request: counted, and an ERR message goes back (R575). -/
def State.shzRefuse (s : State) (f : Flit) (op : Nat) : State :=
  (s.count Reg.shzRefusedCount 1).sendE2E false 9 f.src op f.tag f.addr []

/-- A signal that a peer sends, subject to R99. -/
def State.remoteSignal (s : State) (f : Flit) (b : Nat) (isSet : Bool) (v : Word) : State :=
  let t := s.signalAll b [⟨.shauz, isSet, v, false⟩]
  if isProtected b then t.shzRefuse f 1 else t

/-- The target of a WRITE (R575). One that meets an uncorrectable word is refused like any other (R65). -/
def State.shzWriteAt (s : State) (f : Flit) : State :=
  let bs := f.payload.take f.len
  if !requestShape f then s.shzRefuse f 1
  else
    match regionOf f.addr with
    | .tierA | .tierB =>
      match s.longDenied .shauz f.addr f.len with
      | some .permission => (s.noteDenied .permission).shzRefuse f 2
      | some d => (s.noteDenied d).shzRefuse f 1
      | none =>
        let (s, ok) := s.storeBytes f.addr bs []
        if ok then s else s.shzRefuse f 1
    | .registers =>
      match buckleAt f.addr with
      | some b =>
        if f.len = 4 then s.remoteSignal f b (decide (f.addr % 0x10000 < 0x4000)) (toWord (bytesToNat bs))
        else s.shzRefuse f 1
      | none => s.shzRefuse f 1
    | _ => s.shzRefuse f 1

/-- SHZ_WRITE (R575). -/
def execShzWrite (port : Nat) (f : Flit) (s : State) : Out :=
  .next <| s.arriveE2e port { f with typ := 1 } fun s => s.shzWriteAt f

/-- May a READ reach this target (R575). -/
def readTarget (a : Nat) : Bool :=
  match regionOf a with
  | .tierA | .tierB | .reflexSram | .cinchSram => true
  | _ => false

/-- The data of a READ, or none where it is refused. -/
def State.shzReadData (s : State) (f : Flit) : State × Option (List Byte) :=
  if requestShape f && readTarget f.addr then s.engineLoad f.addr f.len else (s, none)

/-- Answer a READ with RDATA. -/
def State.shzReadAt (s : State) (f : Flit) : State :=
  match s.shzReadData f with
  | (s, some bs) => s.sendE2E false 3 f.src 0 f.tag f.addr bs
  | (s, none) => s.sendE2E false 3 f.src 1 f.tag f.addr []

/-- SHZ_READ (R575). -/
def execShzRead (port : Nat) (f : Flit) (s : State) : Out :=
  .next <| s.arriveE2e port { f with typ := 2 } fun s => s.shzReadAt f

/-- The load that waits for this RDATA completes. -/
def State.shzReadDone (s : State) (f : Flit) : State :=
  match s.shz.reads.find? fun r => decide (r.tag = f.tag ∧ r.node = f.src) with
  | none => s
  | some r =>
    let s := { s with shz := { s.shz with reads := s.shz.reads.filter fun q => q ≠ r } }
    if f.op = 0 then s.respond (.data (bytesToNat ((f.payload.drop r.off).take r.len))) else s.respond .accessFault

/-- SHZ_RDATA (R575). -/
def execShzRdata (port : Nat) (f : Flit) (s : State) : Out :=
  .next <| s.arriveE2e port { f with typ := 3 } fun s => s.shzReadDone f

/-- SHZ_BKL (R575). -/
def execShzBkl (port : Nat) (f : Flit) (s : State) : Out :=
  .next <| s.arriveE2e port { f with typ := 4 } fun s =>
    s.remoteSignal f (f.addr % 16384) (f.op = 0) (toWord (bytesToNat (f.payload.take 4)))

/-- SHZ_ERR (R575). -/
def execShzErr (port : Nat) (f : Flit) (s : State) : Out :=
  .next <| s.arriveE2e port { f with typ := 9 } fun s => s.count Reg.shzErrCount 1

/-- The node whose window holds address `a`, and the address in its map (R48). -/
def windowNode (a : Nat) : Nat × Nat := ((a - 0x800000000000) / 0x80000000000, a % 0x80000000000)

/-- A processor's store into a peer window (R48, R574 to R577). A WRITE carries whole words, so a narrower store
has no message and faults. -/
def State.windowStore (s : State) (a size v : Nat) : State :=
  let (n, x) := windowNode a
  if !s.nodeReachable n ∨ size < 4 then s.respond .accessFault
  else
    let r := if 256 ≤ (s.shzPeer n).held.length then Resp.waiting else .done
    match buckleAt x, regionOf x with
    | some b, .registers =>
      if size = 4 then
        (s.sendE2E false 4 n (b2n (!decide (x % 0x10000 < 0x4000))) 0 b (natToBytes 4 v)).respond r
      else (s.sendE2E false 1 n 0 0 x (natToBytes size v)).respond r
    | _, _ => (s.sendE2E false 1 n 0 0 x (natToBytes size v)).respond r

/-- A processor's load from a peer window: a READ of the words that hold it (R577). -/
def State.windowLoad (s : State) (a size : Nat) : State :=
  let (n, x) := windowNode a
  if !s.nodeReachable n then s.respond .accessFault
  else
    let t := s.shz.nextTag % 65536
    let s := s.sendE2E false 2 n 0 t (x / 4 * 4) (List.replicate (max 4 size) 0)
    let r : ShzRead := ⟨t, n, x % 4, size, s.beat⟩
    { s.respond .waiting with shz := { s.shz with nextTag := t + 1, reads := s.shz.reads ++ [r] } }

/-- SHZ_READ_TIMEOUT (R577). -/
def execShzReadTimeout (tag : Nat) (s : State) : Out :=
  .next <|
    match s.shz.reads.find? fun r => r.tag = tag with
    | none => s
    | some r =>
      if r.start + beatsPerUs * max 1 (s.fget Reg.shzRdTimeout 15 0) ≤ s.beat then
        { s.respond .accessFault with shz := { s.shz with reads := s.shz.reads.filter fun q => q ≠ r } }
      else s

/-! ### Linked transactions (R578 to R581) -/

/-- The enabled slots of a group in a role: false coordinator, true participant. -/
def State.slotsOf (s : State) (role : Bool) (group : Nat) : List Nat :=
  (List.range 8).filter fun l =>
    s.bit (Reg.shzLinkCfg l) 0 && s.bit (Reg.shzLinkCfg l) 1 == role &&
      decide (s.fget (Reg.shzLinkGroup l) 15 0 = group ∧ s.fget (Reg.shzLinkStatus l) 2 0 < 4)

/-- Record a READY (R580). -/
def State.noteReady (s : State) (l : Nat) (f : Flit) : State :=
  let r : ShzReady := ⟨l, f.src, bytesToNat (f.payload.take 8), bytesToNat ((f.payload.drop 8).take 4)⟩
  let s := s.bput (Reg.shzLinkStatus l) (4 + f.src % 8) true
  let rest := s.shz.ready.filter fun q => ¬ (q.slot = l ∧ q.node = f.src)
  let s := { s with shz := { s.shz with ready := rest ++ [r] } }
  s.linkProgress l

/-- SHZ_LINK_READY (R580). -/
def execShzLinkReady (port : Nat) (f : Flit) (s : State) : Out :=
  .next <| s.arriveE2e port { f with typ := 6, op := 0 } fun s =>
    (s.slotsOf false f.tag).foldl (fun s l => s.noteReady l f) s

/-- The participant's slots that follow this coordinator. -/
def State.slotsUnder (s : State) (f : Flit) : List Nat :=
  (s.slotsOf true f.tag).filter fun l => s.fget (Reg.shzLinkCfg l) 10 8 = f.src

/-- SHZ_LINK_GO (R581). -/
def execShzLinkGo (port : Nat) (f : Flit) (s : State) : Out :=
  .next <| s.arriveE2e port { f with typ := 6, op := 1 } fun s =>
    (s.slotsUnder f).foldl (fun s l => s.fset (Reg.shzLinkStatus l) 2 0 3) s

/-- SHZ_LINK_ABORT (R581). -/
def execShzLinkAbort (port : Nat) (f : Flit) (s : State) : Out :=
  .next <| s.arriveE2e port { f with typ := 6, op := 2 } fun s =>
    (s.slotsUnder f).foldl (fun s l => s.abortTxn (s.fget (Reg.shzLinkCfg l) 7 2) 1) s

/-- SHZ_LINK_ABORTED (R580). -/
def execShzLinkAborted (port : Nat) (f : Flit) (s : State) : Out :=
  .next <| s.arriveE2e port { f with typ := 6, op := 3 } fun s =>
    (s.slotsOf false f.tag).foldl (fun s l =>
      s.groupAbort l f.src (bytesToNat ((f.payload.drop 12).take 1))) s

/-- The nodes of slot l that are not READY. -/
def State.linkMissing (s : State) (l : Nat) : List Nat :=
  (s.linkNodes l).filter fun m => !s.bit (Reg.shzLinkStatus l) (4 + m)

/-- Has the lead of slot l begun: SHZ_LINK_LEAD.US before the timestamp (R580). -/
def State.leadReached (s : State) (l : Nat) : Bool :=
  let t := s.txnStamp (s.fget (Reg.shzLinkCfg l) 7 2)
  decide (t.1 * 1000000000 + t.2 ≤ s.timeNs + 1000 * max 1 (s.fget Reg.shzLinkLead 15 0))

/-- SHZ_LINK_LEAD_EXPIRY (R580). No remote reason was reported, so the reason recorded is free, and the node is a free one
of those that are missing. -/
def execShzLinkLeadExpiry (slot : Nat) (s : State) : Out :=
  .next <|
    if slot < 8 && s.bit (Reg.shzLinkCfg slot) 0 && !s.bit (Reg.shzLinkCfg slot) 1 &&
        decide (s.fget (Reg.shzLinkStatus slot) 2 0 < 3) &&
        s.txnState (s.fget (Reg.shzLinkCfg slot) 7 2) = 2 && !(s.linkMissing slot).isEmpty &&
        s.leadReached slot then
      let miss := s.linkMissing slot
      let (k, s) := s.drawNat
      let (r, s) := s.drawNat
      s.groupAbort slot (miss.getD (k % miss.length) 0) (r % 256)
    else s

/-! ### Time exchange (R582, R583) -/

/-- The four stamps of an exchange give DELAY and OFFSET (R582). -/
def State.timeExchange (s : State) (p t1 t2 t3 t4 : Nat) : State :=
  let delay : Int := (((t4 : Int) - t1) - ((t3 : Int) - t2)).tdiv 2
  let offset : Int := (((t2 : Int) - t1) - ((t4 : Int) - t3)).tdiv 2 - sext 16 (s.fget (Reg.shzPAsym p) 15 0)
  (s.rset (Reg.shzPDelay p) (toWord ((ofInt32 delay).toNat % 65536))).rset (Reg.shzPOffset p) (ofInt32 offset)

/-- A TIME flit reaches port p at `arrived`: a request is answered; an answer completes the exchange. -/
def State.timeFlit (s : State) (p arrived : Nat) : Option (Nat × Nat) → State
  | none => s.putFlit p (s.flit 7 0 1 0 0 0 (natToBytes 8 arrived))
  | some (t2, t3) =>
    match (s.shzPort p).t1 with
    | none => s
    | some t1 => (s.timeExchange p t1 t2 t3 arrived).putShzPort p { s.shzPort p with t1 := none }

/-- SHZ_TIME (R582): `reply` holds t2 and t3 of an answer. -/
def execShzTime (port : Nat) (f : Flit) (arrived : Nat) (reply : Option (Nat × Nat)) (s : State) : Out :=
  .next <| s.arriveHere port { f with typ := 7 } fun s => s.timeFlit port arrived reply

/-- Has PERIOD_US passed since port p began an exchange; 0 acts as 1 (R582). -/
def State.syncDue (s : State) (p : Nat) : Bool :=
  (s.shzPort p).synced.all fun b => decide (b + beatsPerUs * max 1 (s.fget Reg.shzSyncCfg 15 0) ≤ s.beat)

/-- SHZ_TIME_EXCHANGE (R582): the port sends a TIME flit and stamps it. -/
def execShzTimeExchange (port sent : Nat) (s : State) : Out :=
  .next <|
    if s.bit Reg.shzSyncCfg 16 && s.portUp port && s.syncDue port then
      let s := s.putFlit port (s.flit 7 0 0 0 0 0 [])
      s.putShzPort port { s.shzPort port with t1 := some sent, synced := some s.beat }
    else s

/-! ### Enumeration (R567 to R570) -/

/-- Is the node strapped as head. -/
def State.isHead (s : State) : Bool := s.bit Reg.shzCfg 0

/-- The fused unique identifier. -/
def State.ownUid (s : State) : Nat := (s.rget Reg.cfgUidLo).toNat + 2 ^ 32 * (s.rget Reg.cfgUidHi).toNat

/-- What this node adds to a walk (R568). An ISOLATED node is not of node 0's part and claims no number. -/
def State.ownEntry (s : State) : WalkEntry where
  uid := s.ownUid
  gen := 1
  up0 := s.portUp 0
  up1 := s.portUp 1
  number := if s.numbered && s.fget Reg.shzStatus 1 0 ≠ 3 then some s.ownNode else none

/-- The payload of a walk. -/
def walkPayload (w : List WalkEntry) : List Byte :=
  (w.map fun e => natToBytes 8 e.uid ++
    natToBytes 2 (e.gen % 16 + 16 * b2n e.up0 + 32 * b2n e.up1 +
      (match e.number with
       | none => 0
       | some n => 64 + 256 * n))).flatten

/-- A walk leaves through port p: OP 0 outward, OP 1 back. -/
def State.sendWalk (s : State) (p : Nat) (w : List WalkEntry) (back : Bool) : State :=
  s.putFlit p (s.flit 8 0 (b2n back) 0 0 0 (walkPayload w))

/-- The number that node 0 knows a node to hold, if the node still claims it (R569). -/
def State.keptNumber (s : State) (e : WalkEntry) : Option Nat :=
  match e.number with
  | none => none
  | some n => if s.shz.enumerated && s.shz.holders.contains (n, e.uid) && n ≠ 0 then some n else none

/-- Number the nodes of a walk: those that keep a number, the others the lowest unused one (R569). -/
def giveNumbers (kept : WalkEntry → Option Nat) (used : List Nat) : List WalkEntry → List (Nat × Nat × Bool)
  | [] => []
  | e :: w =>
    match kept e with
    | some n => (e.uid, n, false) :: giveNumbers kept used w
    | none =>
      match (List.range 8).find? fun n => !used.contains n with
      | none => giveNumbers kept used w
      | some n => (e.uid, n, true) :: giveNumbers kept (n :: used) w

/-- The assignment that follows the walks through port 0 and port 1 (R569, R570). -/
def State.makeAssignment (s : State) (w0 w1 : List WalkEntry) (ring : Bool) : Assignment :=
  let walk := w0 ++ w1
  let used := 0 :: walk.filterMap s.keptNumber
  let given := giveNumbers s.keptNumber used walk
  let numberOf (e : WalkEntry) : Option (Nat × Nat) :=
    (given.find? fun g => g.1 = e.uid).map fun g => (e.uid, g.2.1)
  let epochs := (List.range 8).map fun n =>
    if !s.shz.enumerated then 1
    else if given.any fun g => g.2.1 = n ∧ g.2.2 then (s.epochOf n + 1) % 65536 else s.epochOf n
  let line : List (Nat × Nat) := w1.reverse.filterMap numberOf ++ (s.ownUid, 0) :: w0.filterMap numberOf
  { line := line
    ring := ring
    epochs := epochs
    gen := walk.foldl (fun g e => min g e.gen) 1 }

/-- The payload of an assignment. -/
def assignPayload (a : Assignment) : List Byte :=
  (a.line.map fun g => natToBytes 8 g.1 ++ natToBytes 1 g.2).flatten ++
    (a.epochs.map (natToBytes 2)).flatten ++ natToBytes 1 (a.gen + 16 * b2n a.ring)

/-- The role epoch of node n changes to e: what was held for its old holder is dropped. -/
def State.putEpoch (s : State) (n e : Nat) : State :=
  if s.epochOf n = e then s
  else ((s.dropHeld n).putShzPeer n ShzPeer.fresh0).fset (Reg.shzEpoch n) 15 0 e

/-- The node takes its number, the epochs, the topology and the generation (R569, R570). A node without a number sets
OVERSIZE. -/
def State.takeAssignment (s : State) (a : Assignment) : State :=
  let s := (List.range 8).foldl (fun s n => s.putEpoch n (a.epochs.getD n 0)) s
  match a.line.find? fun g => g.1 = s.ownUid with
  | none => ((s.flag Reg.shzStatus 7).bput Reg.shzNode 3 false).syncRoutes
  | some g =>
    let s := ((s.fset Reg.shzNode 2 0 g.2).bput Reg.shzNode 3 true).fset Reg.shzNode 7 4 a.line.length
    let s := (s.fset Reg.shzNode 11 8 a.gen).bput Reg.shzStatus 7 false
    let before := s.fget Reg.shzStatus 1 0
    let s := s.fset Reg.shzStatus 1 0 (if a.ring then 1 else 2)
    let order := a.line.map fun g : Nat × Nat => g.2
    let s := { s with shz := { s.shz with
      order := order, ring := a.ring, broken := [], beacon := s.beat } }
    let s := s.syncRoutes
    if s.fget Reg.shzStatus 1 0 = before then s else s.flag Reg.shzStatus 4

/-- The enumeration ends: node 0 sends the assignment and takes it (R568). -/
def State.enumDone (s : State) (w0 w1 : List WalkEntry) (ring : Bool) : State :=
  let a := s.makeAssignment w0 w1 ring
  let s := s.putFlit 0 (s.flit 8 0 2 0 0 0 (assignPayload a))
  let s := if ring then s else s.putFlit 1 (s.flit 8 0 2 0 0 0 (assignPayload a))
  let holders := a.line.map fun g : Nat × Nat => (g.2, g.1)
  let s := { s with shz := { s.shz with
    enumerated := true, walk := none, secondWalk := false, holders := holders } }
  s.takeAssignment a

/-- The second walk leaves through port 1, or there is none (R568). -/
def State.secondWalk (s : State) (w0 : List WalkEntry) : State :=
  if s.portUp 1 then
    let s := { s with shz := { s.shz with walk := some w0, secondWalk := true } }
    s.sendWalk 1 [s.ownEntry] false
  else s.enumDone w0 [] false

/-- Node 0 starts an enumeration (R568). With a head conflict it numbers no other node (R567). -/
def State.enumStart (s : State) : State :=
  if !s.isHead || s.bit Reg.shzStatus 3 then s
  else if s.portUp 0 then
    let s := { s with shz := { s.shz with walk := some [], secondWalk := false } }
    s.sendWalk 0 [s.ownEntry] false
  else s.secondWalk []

/-- A walk of node 0 comes back to it (R568). -/
def State.walkHome (s : State) (p : Nat) (walk : List WalkEntry) : State :=
  match s.shz.walk with
  | none => s
  | some w0 =>
    let w := walk.filter fun e => e.uid ≠ s.ownUid
    if s.shz.secondWalk then (if p = 1 then s.enumDone w0 w false else s.enumDone w0 w.reverse true)
    else if p = 1 then s.enumDone w [] true
    else s.secondWalk w

/-- A node on the way: it adds itself and forwards the walk, or turns it back (R568). -/
def State.walkOn (s : State) (p : Nat) (walk : List WalkEntry) (back : Bool) : State :=
  if back then s.sendWalk (1 - p) walk true
  else if s.portUp (1 - p) then s.sendWalk (1 - p) (walk ++ [s.ownEntry]) false
  else s.sendWalk p (walk ++ [s.ownEntry]) true

/-- SHZ_ENUM_WALK (R567, R568). -/
def execShzEnumWalk (port : Nat) (f : Flit) (walk : List WalkEntry) (back : Bool) (s : State) : Out :=
  .next <| s.arriveHere port { f with typ := 8 } fun s =>
    if !s.isHead then s.walkOn port walk back
    else if walk.head?.map (·.uid) = some s.ownUid then s.walkHome port walk
    else { s.flag Reg.shzStatus 3 with shz := { s.shz with walk := none, secondWalk := false } }

/-- SHZ_ENUM_ASSIGN (R569, R587). -/
def execShzEnumAssign (port : Nat) (f : Flit) (a : Assignment) (s : State) : Out :=
  .next <| s.arriveHere port { f with typ := 8 } fun s =>
    if s.isHead then s
    else
      let t := s.putFlit (1 - port) { f with typ := 8 }
      if s.fget Reg.shzStatus 1 0 = 3 ∧ f.src ≠ 0 then t else t.takeAssignment a

/-! ### Beacons and isolation (R585 to R588) -/

/-- Node 0 enumerates again when the state of a port changed (R568). -/
def State.autoEnum (s : State) : State :=
  if s.isHead && s.bit Reg.shzCfg 1 then s.enumStart else s

/-- SHZ_BEACON (R585): it reports the ports that are DOWN. -/
def execShzBeacon (port : Nat) (f : Flit) (down : List (Nat × Nat)) (s : State) : Out :=
  .next <| s.arriveHere port { f with typ := 8 } fun s =>
    let changed := decide (s.shz.broken ≠ down)
    let s := { s with shz := { s.shz with beacon := s.beat, broken := down } }
    let s := if changed then s.syncRoutes else s
    if s.isHead then (if changed then s.autoEnum else s) else s.putFlit (1 - port) { f with typ := 8 }

/-- SHZ_BEACON_SEND (R585). -/
def execShzBeaconSend (s : State) : Out :=
  .next <|
    if s.isHead && s.numbered && decide (s.shz.beaconSent + 10 * beatsPerUs ≤ s.beat) then
      let f := s.flit 8 0 3 0 0 0 ((s.downPorts.map fun d => natToBytes 1 (d.1 + 8 * d.2)).flatten)
      { (s.putFlit 0 f).putFlit 1 f with shz := { ((s.putFlit 0 f).putFlit 1 f).shz with beaconSent := s.beat } }
    else s

/-- Every linked transaction aborts (R587). -/
def State.abortLinked (s : State) : State :=
  (List.range 8).foldl (fun s l =>
    if s.bit (Reg.shzLinkCfg l) 0 then s.abortTxn (s.fget (Reg.shzLinkCfg l) 7 2) 0xB else s) s

/-- The node enters ISOLATED (R587). -/
def State.isolate (s : State) : State :=
  let s := (s.fset Reg.shzStatus 1 0 3).flag Reg.shzStatus 5
  let s := if s.bit Reg.shzCfg 2 then
      (List.range 128).foldl (fun s l => s.loopSafe l 8) s else s
  (s.abortLinked.syncRoutes).flag Reg.shzStatus 4

/-- Has no beacon come for ISOLATE_US; 0 acts as 20 (R585). -/
def State.beaconLate (s : State) : Bool :=
  let us := s.fget Reg.shzCfg 31 16
  decide (s.shz.beacon + beatsPerUs * (if us = 0 then 20 else us) ≤ s.beat)

/-- SHZ_ISOLATE_EXPIRY (R587). -/
def execShzIsolateExpiry (s : State) : Out :=
  .next <|
    if s.numbered && decide (s.ownNode ≠ 0 ∧ s.fget Reg.shzStatus 1 0 ≠ 3) && s.beaconLate then
      s.markTouched s.isolate
    else s

/-! ### Ports (R561, R562) -/

/-- SHZ_REPLAY_TIMEOUT (R566): the oldest flit that is not acknowledged has waited 2 µs. -/
def execShzReplayTimeout (port : Nat) (s : State) : Out :=
  .next <| if s.portUp port && decide ((s.shzPort port).waits + 2 * beatsPerUs ≤ s.beat) then s.replay port else s

/-- Port p goes DOWN (R562, R585). -/
def State.portFall (s : State) (p : Nat) : State :=
  let s := (s.fset (Reg.shzPStatus p) 3 0 0).flag (Reg.shzPStatus p) 4
  ((s.count (Reg.shzPDownCount p) 1).putShzPort p { ShzPort.down with trained := some s.beat }).syncRoutes

/-- SHZ_PORT_DOWN (R562): `lostLock` says that lock was lost for 1 µs. -/
def execShzPortDown (port : Nat) (lostLock : Bool) (s : State) : Out :=
  .next <|
    if s.portUp port && (lostLock || decide (8 ≤ (s.shzPort port).replays)) then (s.portFall port).autoEnum
    else s

/-- SHZ_PORT_UP (R561, R562): `width` is 1 for x2, 2 for x4. A port that trains against its like stays DOWN. -/
def execShzPortUp (port width : Nat) (samePort : Bool) (s : State) : Out :=
  .next <|
    if !s.mainOn || s.shz.stayDown || decide (2 ≤ port) || s.portUp port then s
    else if samePort then
      ((s.fset (Reg.shzPStatus port) 3 0 0).bput (Reg.shzPStatus port) 5 true).putShzPort port
        { ShzPort.down with trained := some s.beat }
    else
      let s := ((s.fset (Reg.shzPStatus port) 1 0 2).fset (Reg.shzPStatus port) 3 2 width).bput
        (Reg.shzPStatus port) 5 false
      let s := (s.putShzPort port ShzPort.down).syncRoutes
      if s.shz.enumerated then s.autoEnum else s.enumStart

/-- SHZ_PORT_RETRAIN (R562): every 1 ms a port that is DOWN trains. -/
def execShzPortRetrain (port : Nat) (s : State) : Out :=
  .next <|
    if s.mainOn && !s.shz.stayDown && decide (port < 2 ∧ s.fget (Reg.shzPStatus port) 1 0 ≠ 2) &&
        ((s.shzPort port).trained.all fun b => decide (b + 1000 * beatsPerUs ≤ s.beat)) then
      (s.fset (Reg.shzPStatus port) 1 0 1).putShzPort port { s.shzPort port with trained := some s.beat }
    else s

/-- Does port p discard and count the bytes of a flit whose CRC is good: a reserved type, a reserved field, or another
generation (R565, R570). -/
def State.flitDiscarded (s : State) (bs : List Byte) : Bool :=
  flitReserved bs || (s.numbered && decide (flitType bs ≠ 8) && decide (flitGen bs ≠ s.ringGen))

/-- SHZ_BAD_CRC_FLIT (R562 to R566, R570): the 128 bytes of a flit as they arrive. A flit that the port neither finds bad nor
discards comes by the command of its type. -/
def execShzBadCrcFlit (port : Nat) (bytes : List Byte) (s : State) : Out :=
  .next <|
    let x := s.shzPort port
    if !s.portUp port then s
    else if !flitCrcOk bytes then
      (s.count (Reg.shzPCrcCount port) 1).putShzPort port { x with nak := true, badRun := min 4 (x.badRun + 1) }
    else if s.flitDiscarded bytes then
      (s.count Reg.shzBadCount 1).putShzPort port { x with nak := true, badRun := 0 }
    else s

/-- SHZ_E2E_ACK_TIMER (R573). -/
def execShzE2eAckTimer (node : Nat) (s : State) : Out :=
  .next <| if node < 8 ∧ 0 < (s.shzPeer node).fresh then s.sendE2eAck node else s

/-! ### Leaving, and the block's registers (R590, R591) -/

/-- SHZ_LEAVE (R590): node 0 frees the number and raises its epoch. -/
def execShzLeave (port : Nat) (f : Flit) (s : State) : Out :=
  .next <| s.arrive port { f with typ := 8 } fun s =>
    if s.isHead && decide (f.src ≠ 0) && s.shz.holders.any fun h => h.1 = f.src then
      let s := s.putEpoch f.src ((s.epochOf f.src + 1) % 65536)
      let s := s.fset Reg.shzNode 7 4 (s.fget Reg.shzNode 7 4 - 1)
      { s with shz := { s.shz with holders := s.shz.holders.filter fun h => h.1 ≠ f.src } }
    else s

/-- The node begins to leave; LEAVE on node 0 is ignored (R590). -/
def State.leaveStart (s : State) : State :=
  if s.isHead || s.shz.leaving.isSome then s
  else
    let s := if s.nodeReachable 0 then s.sendPlain (s.flit 8 0 4 0 0 0 []) else s
    { s with shz := { s.shz with leaving := some s.beat } }

/-- Both ports go DOWN. -/
def State.portsDown (s : State) : State :=
  [0, 1].foldl (fun s p => if s.portUp p then s.portFall p else s.fset (Reg.shzPStatus p) 3 0 0) s

/-- A write of SHZ_CTRL (R567, R568, R590). -/
def State.shzCtrlWrite (s : State) (v : Word) : State :=
  let s := s.putRw Reg.shzCtrl v
  let s := if bitOf v 1 && s.isHead then (s.bput Reg.shzStatus 3 false).enumStart else s
  if !bitOf v 0 then
    let s := { s with shz := { s.shz with stayDown := true } }
    if s.isHead then s.portsDown else s.leaveStart
  else
    let s := { s with shz := { s.shz with stayDown := false } }
    if bitOf v 2 then s.leaveStart else s

/-- A write of SHZ_CTRL by a row of its own. -/
def shzCtrlCommand (who : Initiator) (value : Word) (s : State) : Out :=
  .next (s.softWrite who Reg.shzCtrl value fun s v => s.shzCtrlWrite v)

/-- SHZ_ENUM (R568). -/
def execShzEnum (who : Initiator) (value : Word) (s : State) : Out := shzCtrlCommand who (value ||| 2) s

/-- SHZ_CTRL_LEAVE (R590). -/
def execShzCtrlLeave (who : Initiator) (value : Word) (s : State) : Out := shzCtrlCommand who (value ||| 4) s

/-- SHZ_DISABLE (R590). -/
def execShzDisable (who : Initiator) (value : Word) (s : State) : Out :=
  shzCtrlCommand who (value &&& ~~~ 1) s

/-- Has every held message been acknowledged. -/
def State.nothingHeld (s : State) : Bool := (List.range 8).all fun n => (s.shzPeer n).held.isEmpty

/-- SHZ_LEAVE_PORTS_DOWN (R590): every held message is acknowledged, or 1 ms has passed. -/
def execShzLeavePortsDown (s : State) : Out :=
  .next <|
    match s.shz.leaving with
    | none => s
    | some b =>
      if s.nothingHeld || decide (b + 1000 * beatsPerUs ≤ s.beat) then
        { s.portsDown with shz := { s.portsDown.shz with leaving := none } }
      else s

/-- A write of SHZ_LINKl_CFG: the slot starts afresh. -/
def State.linkCfgWrite (s : State) (l : Nat) (v : Word) : State :=
  let s := s.putRw (Reg.shzLinkCfg l) v
  { s.rset (Reg.shzLinkStatus l) (s.rget (Reg.shzLinkStatus l) &&& 8) with
    shz := { s.shz with ready := s.shz.ready.filter fun r => r.slot ≠ l } }

/-- The write rule of the SHZ_ block. -/
def State.shzWrite (s : State) (o : Nat) (v : Word) : State :=
  if o = 4 then s.shzCtrlWrite v
  else if 0x200 ≤ o ∧ o < 0x280 ∧ o % 0x10 = 0 then s.linkCfgWrite ((o - 0x200) / 0x10) v
  else s.putTyped (0x10500000 + o) v 0

end Sys2Proof.Machine
end

