-- ==== Sys2Proof/Machine/Descriptor.lean ====
section
/-!
DEFINITION. Machine/Descriptor.lean: op descriptors, tensor descriptors, the shape of a Hide op, and the records of a
window operand (R135, R136, R166 to R173, R205, R211, R216, R217, R252 to R256).
-/

namespace Sys2Proof.Machine

/-! ### Op descriptors (R252, R254) -/

/-- Field [hi:lo] of the 32-bit word at offset `o` of a descriptor. -/
def descField (d : List Byte) (o hi lo : Nat) : Nat := bitsOf (descWord d o) hi lo

/-- The 64-bit word at offset `o` of a descriptor. -/
def descLong (d : List Byte) (o : Nat) : Nat := descWord d o + 2 ^ 32 * descWord d (o + 4)

/-- OPCODE. -/
def OpEntry.opcode (e : OpEntry) : Nat := descField e.desc 0 15 8

/-- The seed, ROUND and OVERFLOW of an op. -/
def OpEntry.seed (e : OpEntry) : Nat := descWord e.desc 0x0C
def OpEntry.stochastic (e : OpEntry) : Bool := descField e.desc 0 21 21 = 1
def OpEntry.saturates (e : OpEntry) : Bool := descField e.desc 0 22 22 = 0

/-- LAYER_ID and OPER_ID. -/
def OpEntry.layer (e : OpEntry) : Nat := descField e.desc 4 23 0
def OpEntry.oper (e : OpEntry) : Nat := descField e.desc 8 15 0

/-- Is tensor descriptor slot k present. -/
def OpEntry.has (e : OpEntry) (k : Nat) : Bool := !(e.tds.getD k []).isEmpty

/-- Does an opcode use the Hide's cells (R254). -/
def usesHide (opcode : Nat) : Bool :=
  opcode = 0x10 || opcode = 0x11 || opcode = 0x12 || opcode = 0x20 || opcode = 0x21 || opcode = 0x23

/-- Is an opcode in the opcode table. -/
def knownOpcode (opcode : Nat) : Bool :=
  usesHide opcode || opcode = 0 || opcode = 1 || opcode = 0x22 || opcode = 0x30 || opcode = 0x31 ||
    opcode = 0x40 || opcode = 0x50

/-- NOP and FENCE do not occupy the Tensor Plane (R244). -/
def occupies (opcode : Nat) : Bool := 2 ≤ opcode

/-- REEL_EN of a MATMUL or CONV. -/
def OpEntry.reelEn (e : OpEntry) : Bool := (e.opcode = 0x10 || e.opcode = 0x11) && descField e.desc 0x58 0 0 = 1

/-- The units that an op needs (R199, R238, R267, R316, R338, R366): 1 Hide, 2 Latigo, 3 Tango, 4 Reel, 5 vision. -/
def OpEntry.units (e : OpEntry) : List Nat :=
  match e.opcode with
  | 0x10 => [1, 2] ++ (if e.reelEn then [4] else [])
  | 0x11 => [1, 2] ++ (if e.reelEn then [4] else []) ++ [5]
  | 0x12 => [1, 2]
  | 0x20 | 0x21 | 0x23 => [1, 3]
  | 0x22 => [3]
  | 0x30 | 0x31 => [2, 4]
  | 0x40 => [2, 5]
  | 0x50 => [2] ++ (if descField e.desc 0x40 1 0 = 2 then [5] else [])
  | _ => []

/-! ### Tensor descriptors (R256) -/

/-- A decoded tensor descriptor. -/
structure Tensor where
  gen : Nat
  fmt : Nat
  mode : Nat
  entropy : Bool
  transpose : Bool
  prefetch : Bool
  scales : Nat
  rank : Nat
  pid : Nat
  addr : Nat
  baddr : Nat
  d0 : Nat
  d1 : Nat
  d2 : Nat
  d3 : Nat
  s1 : Nat
  s2 : Nat
  s3 : Nat
  /-- the tier that reads of it are held to, where its use holds them (R201, R325) -/
  only : Option Region
  deriving DecidableEq, Repr

/-- Decode 64 bytes. -/
def tensorOf (d : List Byte) : Tensor where
  gen := descField d 0 3 0
  fmt := descField d 0 7 4
  mode := descField d 0 10 8
  entropy := descField d 0 11 11 = 1
  transpose := descField d 0 12 12 = 1
  prefetch := descField d 0 13 13 = 1
  scales := descField d 0 15 14
  rank := descField d 0 17 16 + 1
  pid := descField d 4 16 0
  addr := descLong d 8
  baddr := descLong d 0x10
  d0 := descWord d 0x18
  d1 := descWord d 0x1C
  d2 := descWord d 0x20
  d3 := descWord d 0x24
  s1 := descLong d 0x28
  s2 := descLong d 0x30
  s3 := descLong d 0x38
  only := none

/-- The tensor of slot k. -/
def OpEntry.tensor (e : OpEntry) (k : Nat) : Tensor := tensorOf (e.tds.getD k [])

/-- The bytes of a packed row of n elements (R135, R136). -/
def rowBytes (fmt n : Nat) : Nat :=
  match fmtBits fmt with
  | 4 => ceilDiv n 2
  | 6 => 3 * ceilDiv n 4
  | w => n * w / 8

/-- Elements of a row with the padding that fills its last byte or group. -/
def rowPadded (fmt n : Nat) : Nat :=
  match fmtBits fmt with
  | 4 => 2 * ceilDiv n 2
  | 6 => 4 * ceilDiv n 4
  | _ => n

/-! ### Shape of a Hide op (R166 to R173) -/

def OpEntry.fold (e : OpEntry) : Nat := 2 ^ descField e.desc 0 18 16
def OpEntry.mLen (e : OpEntry) : Nat := descWord e.desc 0x40
def OpEntry.nLen (e : OpEntry) : Nat := descWord e.desc 0x44
def OpEntry.kLen (e : OpEntry) : Nat := descWord e.desc 0x48

/-- Rows and columns of a tile, and the tiles of an op (R169). -/
def OpEntry.tileRows (e : OpEntry) : Nat := 256 / e.fold
def OpEntry.tileCols (e : OpEntry) : Nat := 256 * e.fold
def OpEntry.mTiles (e : OpEntry) : Nat := ceilDiv e.mLen e.tileRows
def OpEntry.nTiles (e : OpEntry) : Nat := ceilDiv e.nLen e.tileCols
def OpEntry.tiles (e : OpEntry) : Nat := e.mTiles * e.nTiles

/-- Columns of N-tile nt. -/
def OpEntry.colsOf (e : OpEntry) (nt : Nat) : Nat := min e.tileCols (e.nLen - nt * e.tileCols)

/-- Blocks of 32 along K, and the elements of block j. -/
def OpEntry.kBlocks (e : OpEntry) : Nat := ceilDiv e.kLen 32
def OpEntry.blockLen (e : OpEntry) (j : Nat) : Nat := min 32 (e.kLen - 32 * j)

/-! ### Window records (R205, R211, R216, R217) -/

/-- Does an op read a window operand. -/
def OpEntry.usesWindow (e : OpEntry) : Bool :=
  (e.opcode = 0x10 || e.opcode = 0x11) && descField (e.tds.getD 2 []) 0 10 8 = 1

/-- Bytes of the elements of record (j, nt), and of the whole record. -/
def OpEntry.recElems (e : OpEntry) (j nt : Nat) : Nat := e.colsOf nt * rowBytes (e.tensor 2).fmt (e.blockLen j)
def OpEntry.recLen (e : OpEntry) (j nt : Nat) : Nat :=
  e.recElems j nt + (if (e.tensor 2).scales = 0 then 0 else e.colsOf nt)

/-- Bytes of the records of N-tile nt. -/
def OpEntry.ntLen (e : OpEntry) (nt : Nat) : Nat :=
  (List.range e.kBlocks).foldl (fun n j => n + e.recLen j nt) 0

/-- The passes through the N-tiles, in order: an N-tile whose records fit in `cap` bytes passes once, any other once for
every M-tile (R211). -/
def OpEntry.passes (e : OpEntry) (cap : Nat) : List (Nat × Option Nat) :=
  ((List.range e.nTiles).map fun nt =>
    if e.mTiles ≤ 1 ∨ e.ntLen nt ≤ cap then [(nt, none)]
    else (List.range e.mTiles).map fun mt => (nt, some mt)).flatten

/-- The pass that tile t of an op reads. -/
def OpEntry.passOf (e : OpEntry) (cap t : Nat) : Nat :=
  let nt := t / e.mTiles
  let mt := t % e.mTiles
  (e.passes cap).findIdx fun p => p.1 = nt && (p.2 = none || p.2 = some mt)

/-- Does a later tile read the same pass. -/
def OpEntry.keepsPass (e : OpEntry) (cap t : Nat) : Bool :=
  decide (t + 1 < e.tiles) && e.passOf cap (t + 1) = e.passOf cap t

/-- Symbols of the element array before record (j, nt) (R136, R216). -/
def OpEntry.symbolsBefore (e : OpEntry) (j nt : Nat) : Nat :=
  let fmt := (e.tensor 2).fmt
  let per (nt k : Nat) : Nat := (List.range k).foldl (fun n j => n + e.colsOf nt * rowPadded fmt (e.blockLen j)) 0
  (List.range nt).foldl (fun n i => n + per i e.kBlocks) 0 + per nt j

/-- Symbols of the whole element array. -/
def OpEntry.symbols (e : OpEntry) : Nat := e.symbolsBefore 0 e.nTiles

end Sys2Proof.Machine
end

