-- ==== Sys2Proof/Machine/Rings.lean ====
section
/-!
DEFINITION. Machine/Rings.lean: the command rings, the issue slot, engine halts and breakpoints, the op trace, and how an
op ends (R239 to R279, R628 to R640).
-/

namespace Sys2Proof.Machine

/-- The STATUS register of a unit, and its DRAINED_SET bit. -/
def unitStatus : Nat → Nat
  | 1 => Reg.hidStatus
  | 2 => Reg.latStatus
  | 3 => Reg.tngStatus
  | 4 => Reg.relStatus
  | _ => Reg.visStatus

def drainedBit : Nat → Nat
  | 1 => 11
  | 2 => 6
  | _ => 5

/-- The OP_ERROR bit of a unit's STATUS. -/
def opErrorBit : Nat → Nat
  | 1 => 8
  | _ => 4

/-! ### The rings (R239 to R243) -/

/-- The ops that Caller n has read and that have not ended. -/
def State.ringQ (s : State) (n : Nat) : List OpEntry := if n = 0 then s.ten.q0 else s.ten.q1

/-- The STATE of ring n (R271). -/
def State.ringState (s : State) (n : Nat) : Nat := s.fget (Reg.calRingStatus n) 2 0

/-- EMPTY and QUEUED follow the indices. -/
def State.syncRing (s : State) (n : Nat) : State :=
  let h := s.rget (Reg.calRingHead n)
  let d := s.rget (Reg.calRingDone n)
  (s.bput (Reg.calRingStatus n) 3 (h = s.rget (Reg.calRingTail n) ∧ d = h)).fset (Reg.calRingStatus n) 19 16 (h - d).toNat

/-- Give ring n a new queue. -/
def State.putRingQ (s : State) (n : Nat) (q : List OpEntry) : State :=
  if n = 0 then { s with ten := { s.ten with q0 := q } } else { s with ten := { s.ten with q1 := q } }

/-- The slots of ring n. -/
def State.ringSlots (s : State) (n : Nat) : Nat := 2 ^ s.fget (Reg.calRingCfg n) 12 8

/-! ### Engine halts and breakpoints (R628 to R631) -/

/-- SRC and ENG_STATE follow the halt requests and the op in progress (R628 to R630). -/
def State.syncHalt (s : State) : State :=
  let src := b2n (s.bit Reg.tlgEngCtrl 0) +
    2 * b2n (s.bit Reg.tlgEngCtrl 1 && (s.tlg.halted.contains 0x18 || s.tlg.halted.contains 0x19)) +
    4 * b2n ((List.range 4).any fun k => s.bit (Reg.tlgObpStatus k) 0)
  let now := if src = 0 then 0 else if s.ten.run.isSome || s.ten.goldRun.isSome then 1 else 2
  let before := s.fget Reg.tlgStatus 1 0
  let s := (s.fset Reg.tlgStatus 4 2 src).fset Reg.tlgStatus 1 0 now
  if now = 2 ∧ before ≠ 2 then s.flag Reg.tlgStatus 5 else s

/-- Does breakpoint k match an op of ring n (R631). -/
def State.obpMatches (s : State) (k n : Nat) (e : OpEntry) : Bool :=
  s.bit (Reg.tlgObpCfg k) 0 && s.bit (Reg.tlgObpCfg k) (2 + n % 2) &&
    (s.bit (Reg.tlgObpOper k) 16 || e.layer = s.fget (Reg.tlgObpLayer k) 23 0) &&
    (s.bit (Reg.tlgObpOper k) 17 || e.oper = s.fget (Reg.tlgObpOper k) 15 0) &&
    (s.bit (Reg.tlgObpCfg k) 4 || e.opcode = s.fget (Reg.tlgObpCfg k) 15 8)

/-- Breakpoint k fires on an op. -/
def State.obpFire (s : State) (k n : Nat) (e : OpEntry) : State :=
  let a := Reg.tlgObpStatus k
  ((((s.flag a 0).fset a 1 1 n).fset a 15 8 (s.fget a 15 8 + 1)).fset a 31 16 e.index.toNat).syncHalt

/-- The breakpoints of one kind (WHEN) that match an op and have not fired on it. -/
def State.obpHits (s : State) (atEnd : Bool) (n : Nat) (e : OpEntry) : List Nat :=
  (List.range 4).filter fun k =>
    s.obpMatches k n e && s.bit (Reg.tlgObpCfg k) 1 == atEnd && !e.broke.testBit k

/-- Breakpoints fire. -/
def State.obpFireAll (s : State) (ks : List Nat) (n : Nat) (e : OpEntry) : State :=
  ks.foldl (fun s k => s.obpFire k n e) s

/-- An op on which breakpoints have fired. -/
def OpEntry.mark (e : OpEntry) (ks : List Nat) : OpEntry :=
  { e with broke := ks.foldl (fun m k => m ||| 2 ^ k) e.broke }

/-! ### The op trace (R636 to R641) -/

/-- Room for one record of `size` bytes in a ring in Tier B: the offset to write at, or none where MODE 1 keeps the
oldest (R636, R640). -/
def ringRoom (wr rd len size : Nat) (stop : Bool) : Option Nat :=
  let at_ := if len < wr + size then 0 else wr
  let used := (wr + len - rd % len) % len
  if stop && decide (len - used < 2 * size) then none else some at_

/-- A trace record that could not be written. -/
def State.trcLose (s : State) : State := (s.count Reg.tlgTrcLost 1).flag Reg.tlgStatus 8

/-- Write one 64-byte trace record (R640). -/
def State.trcWrite (s : State) (bs : List Byte) : State :=
  let len := 4096 * max 1 (s.fget Reg.tlgTrcSize 19 0)
  match ringRoom (s.rget Reg.tlgTrcWr).toNat (s.rget Reg.tlgTrcRd).toNat len 64 (s.bit Reg.tlgTrcCfg 1) with
  | none => s.trcLose
  | some o =>
    let base := (s.rget Reg.tlgTrcBaseLo).toNat + 2 ^ 32 * s.fget Reg.tlgTrcBaseHi 15 0
    let (t, ok) := if regionOf (base + o) = .tierB then s.engineStore .tooling (base + o) bs else (s, false)
    if ok then
      { t.rset Reg.tlgTrcWr (toWord ((o + 64) % len)) with tlg := { t.tlg with trcSeq := t.tlg.trcSeq + 1 } }
    else t.trcLose

/-- After a record with code `code`: FREEZE_ON_ERR (R640). -/
def State.trcFreeze (s : State) (code : Nat) : State :=
  match s.tlg.trcPost with
  | some n =>
    if n ≤ 1 then { s.flag Reg.tlgStatus 9 with tlg := { s.tlg with trcPost := none } }
    else { s with tlg := { s.tlg with trcPost := some (n - 1) } }
  | none =>
    if code ≠ 0 && s.bit Reg.tlgTrcCfg 3 then
      (if s.fget Reg.tlgTrcCfg 15 8 = 0 then s.flag Reg.tlgStatus 9
       else { s with tlg := { s.tlg with trcPost := some (s.fget Reg.tlgTrcCfg 15 8) } })
    else s

/-- How an op ended. -/
structure OpEnd where
  code : Nat
  unit : Nat
  ucode : Nat
  mismatch : Bool
  overrun : Bool
  issueBeat : Nat
  mhz : Nat
  cycles : Nat
  /-- stall cycles by cause (R638) -/
  stalls : List Nat
  deriving DecidableEq, Repr

/-- An op that ends without having occupied the Tensor Plane. -/
def State.endAtOnce (s : State) (code unit ucode : Nat) : OpEnd where
  code := code
  unit := unit
  ucode := ucode
  mismatch := false
  overrun := false
  issueBeat := s.beat
  mhz := s.fget Reg.stwPower 26 16
  cycles := 0
  stalls := []

/-- The trace record of an op (R637), but for its SEQ. -/
def State.traceRecord (s : State) (typ ring fold index : Nat) (e : OpEntry) (r : OpEnd) : List Byte :=
  natToBytes 4 (1 + 16 * typ + 256 * ring + 512 * b2n (decide (e.broke ≠ 0)) + 1024 * b2n r.mismatch +
    2048 * b2n r.overrun + 4096 * r.unit + 65536 * e.opcode + 2 ^ 24 * r.code) ++
  natToBytes 4 (e.layer + 2 ^ 24 * r.ucode) ++
  natToBytes 4 (e.oper + 2 ^ 16 * r.mhz + 2 ^ 27 * fold) ++
  natToBytes 4 index ++ natToBytes 8 r.issueBeat ++ natToBytes 8 s.beat ++
  natToBytes 4 (min r.cycles 0xFFFFFFFF) ++
  ((List.range 6).map fun c => natToBytes 4 (min (r.stalls.getD c 0) 0xFFFFFFFF)).flatten

/-- Trace an op that has ended (R637): the record waits for the end of the beat (R389, R639). -/
def State.trace (s : State) (typ ring fold index : Nat) (e : OpEntry) (r : OpEnd) : State :=
  if !s.bit Reg.tlgTrcCfg 0 || s.bit Reg.tlgStatus 9 || (decide (typ = 4) && !s.bit Reg.tlgTrcCfg 2) then s
  else
    let x : TrcRec := ⟨if typ = 3 then 0 else 1 + ring, s.traceRecord typ ring fold index e r, r.code⟩
    { s with tlg := { s.tlg with trcBeat := s.tlg.trcBeat ++ [x] } }

/-- The records of the beat are written, golden ops first, then by ring (R639); none while FROZEN (R640). -/
def State.flushTrace (s : State) : State :=
  let xs := (List.range 3).flatMap fun k => s.tlg.trcBeat.filter fun x => x.rank = k
  let s := { s with tlg := { s.tlg with trcBeat := [] } }
  xs.foldl (fun s x =>
    if s.bit Reg.tlgStatus 9 then s
    else (s.trcWrite (x.bytes ++ natToBytes 4 s.tlg.trcSeq.toNat)).trcFreeze x.code) s

/-! ### Stopping (R262, R269, R271) -/

/-- A ring leaves RUNNING or HELD (R269, R271). -/
def State.ringStopping (s : State) (n : Nat) : State := s.fset (Reg.calRingStatus n) 2 0 3

/-- Does an op of ring n occupy the Tensor Plane. -/
def State.ringBusy (s : State) (n : Nat) : Bool :=
  match s.ten.run with
  | some r => decide (r.ring = n) && r.golden.isNone
  | none => false

/-! ### Windows as registers (R203, R206, R213) -/

/-- Window n beside its registers. -/
def State.window (s : State) (n : Nat) : Window := spGet (fun _ => Window.idle) s.ten.wins n

/-- The slot size and the slot count of window n. -/
def State.slotSize (s : State) (n : Nat) : Nat := 65536 * 2 ^ s.fget (Reg.latWinCfg n) 7 4
def State.slotCount (s : State) (n : Nat) : Nat := s.fget (Reg.latWinCfg n) 15 8 + 1

/-- The address of window n. -/
def State.winBase (s : State) (n : Nat) : Nat := tierABase + 65536 * s.fget (Reg.latWinBase n) 27 16

/-- Does the configuration of window n break R203. -/
def State.winInvalid (s : State) (n : Nat) : Bool :=
  decide (8 < s.fget (Reg.latWinCfg n) 7 4) || decide (s.slotCount n < 2) ||
    decide (0x10000000 < s.slotSize n * s.slotCount n) || decide (s.winBase n % s.slotSize n ≠ 0) ||
    decide (tierABase + 0x10000000 < s.winBase n + s.slotSize n * s.slotCount n)

/-- The bytes that S − 1 slots of window n hold. -/
def State.winCap (s : State) (n : Nat) : Nat := (s.slotCount n - 1) * s.slotSize n

/-- What the fill engine holds of an op. -/
def Window.fillOf (w : Window) (i : Word) : FillOp := (w.fills.find? fun f => f.op = i).getD (.fresh i)

/-- Give the fill of an op a new state. -/
def Window.putFill (w : Window) (f : FillOp) : Window :=
  { w with fills := (w.fills.filter fun g => g.op ≠ f.op) ++ [f] }

/-- The op in progress of ring n, where it is op `e`. -/
def State.running (s : State) (n : Nat) (e : OpEntry) : Option RunOp :=
  match s.ten.run with
  | some r => if r.ring = n ∧ r.golden.isNone ∧ r.op.index = e.index then some r else none
  | none => none

/-- The op that fill engine n fills for: the first unfinished op or one of those that follow, up to `left` (R208); an op
that has already failed needs no more records. -/
def State.fillTarget (s : State) (n : Nat) : List OpEntry → Nat → Option OpEntry
  | [], _ => none
  | _, 0 => none
  | e :: es, left + 1 =>
    if e.code ≠ 0 ∨ e.opcode = 1 then none
    else if (s.running n e).any fun r => r.code ≠ 0 then s.fillTarget n es left
    else if e.usesWindow && !(e.tensor 2).prefetch && (s.running n e).isNone then none
    else if e.usesWindow &&
        decide (((s.window n).fillOf e.index).done < (e.passes (s.winCap n)).length * e.kBlocks) then some e
    else s.fillTarget n es left

/-- The ops that fill engine n may fill for: in DRAINING the op in the Hide alone (R238). -/
def State.fillQueue (s : State) (n : Nat) : List OpEntry :=
  match s.fget Reg.latStatus 1 0 with
  | 3 => []
  | 2 => (s.ringQ n).filter fun e => (s.running n e).isSome
  | _ => s.ringQ n

/-- The op whose next record fill engine n reads. -/
def State.fillNext (s : State) (n : Nat) : Option OpEntry :=
  s.fillTarget n (s.fillQueue n) (s.fget (Reg.latWinCfg n) 18 16 + 1)

/-- Is a fill of window n pending (R213). -/
def State.fillPending (s : State) (n : Nat) : Bool :=
  s.bit (Reg.latWinCfg n) 0 && !s.winInvalid n && (!(s.window n).rest.isEmpty || (s.fillNext n).isSome)

/-- The status registers of window n follow what it holds (R206, R213). -/
def State.syncWindow (s : State) (n : Nat) : State :=
  let w := s.window n
  let used := ceilDiv w.wr (s.slotSize n) - w.freed
  let inHide := match s.ten.run with
    | some r => decide (r.ring = n) && r.op.usesWindow
    | none => false
  let filling := ((s.fillNext n).filter fun _ => s.fillPending n).toList.map (·.index)
  let s := s.bput (Reg.latWinStatus n) 0 (w.recs.isEmpty && !inHide && !s.fillPending n)
  let s := s.bput (Reg.latWinStatus n) 2 (s.winInvalid n)
  let s := s.fset (Reg.latWinStatus n) 11 8 (w.recs.map (·.op) ++ filling).dedup.length
  (s.fset (Reg.latWinStatus n) 24 16 (s.slotCount n - used)).fset (Reg.latWinLead n) 22 0 ((w.wr - w.rd) / 64)

/-- Give window n a new content. -/
def State.putWindow (s : State) (n : Nat) (w : Window) : State :=
  { s with ten := { s.ten with wins := spSet (fun _ => Window.idle) s.ten.wins n w } }.syncWindow n

/-- The records of some ops leave window n, and its slots (R206, R214). What is left keeps its place, and the next record
follows on (R205). -/
def Window.drop (w : Window) (size : Nat) (gone : Word → Bool) : Window :=
  let out := w.recs.filter fun r => gone r.op
  let kept := w.recs.filter fun r => !gone r.op
  let top := if out.isEmpty then w.wr
    else if kept.isEmpty then max (w.freed * size) (out.foldl (fun m r => min m r.pos) w.wr)
    else max (w.freed * size) (kept.foldl (fun m r => max m (min w.wr (r.pos + r.len))) 0)
  let low := kept.foldl (fun m r => min m r.pos) top
  { recs := kept, wr := top, rd := min top (max w.rd low), freed := max w.freed (low / size),
    fills := w.fills.filter fun f => !gone f.op,
    rest := if (w.recs.getLast?.map fun r => gone r.op).getD false then [] else w.rest }

/-- Some ops' records leave window n. -/
def State.dropRecords (s : State) (n : Nat) (gone : Word → Bool) : State :=
  s.putWindow n ((s.window n).drop (s.slotSize n) gone)

/-- The ring discards what it has read and not issued, and stops (R269). -/
def State.ringStopped (s : State) (n : Nat) : State :=
  let q := s.ringQ n
  let s := s.dropRecords n fun i => q.any fun e => e.index = i
  let s := (s.putRingQ n []).rset (Reg.calRingHead n) (s.rget (Reg.calRingDone n))
  let s := if s.bit (Reg.calRingCtrl n) 0 then
      (s.fset (Reg.calRingStatus n) 2 0 4).flag (Reg.calRingStatus n) 5
    else s.fset (Reg.calRingStatus n) 2 0 0
  (s.syncRing n).syncWindow n

/-! ### How an op ends (R259, R260, R266 to R269) -/

/-- Signal k of an op, if it is enabled. -/
def OpEntry.signal (e : OpEntry) (n k : Nat) : List (Nat × Signal) :=
  let w := descWord e.desc (0x30 + 8 * k)
  if bitsOf w 15 15 = 1 then
    [(bitsOf w 13 0, ⟨.tensor n, bitsOf w 14 14 = 1, toWord (descWord e.desc (0x34 + 8 * k)), false⟩)]
  else []

/-- The enabled signals of an op. -/
def OpEntry.signals (e : OpEntry) (n : Nat) : List (Nat × Signal) := e.signal n 0 ++ e.signal n 1

/-- Apply an op's signals in one cycle (R259). -/
def State.applySignals (s : State) (gs : List (Nat × Signal)) : State :=
  match gs with
  | [(a, g), (b, h)] =>
    if a = b then
      (if g.isSet && h.isSet then s.signalAll b [h] else s.signalAll a [g, h])
    else (s.signalAll a [g]).signalAll b [h]
  | [(a, g)] => s.signalAll a [g]
  | _ => s

/-- TXN_EN and TXN_ID. -/
def OpEntry.txn (e : OpEntry) : Option Nat :=
  if descField e.desc 0 24 24 = 1 then some (descField e.desc 8 21 16) else none

/-- Stage the signals of an op that succeeded, where TXN_EN is set; the code after it (R260). -/
def State.stageOp (s : State) (n : Nat) (e : OpEntry) (code : Nat) : State × Nat :=
  match e.txn with
  | none => (s, code)
  | some t =>
    if code ≠ 0 then (s, code)
    else
      let (s, ok) := s.stageSignals t (e.signals n)
      (s, if ok then 0 else 0x1D)

/-- The completion record (R266). -/
def cplRecord (index : Word) (beat : Nat) (r : OpEnd) : List Byte :=
  natToBytes 4 (r.code + 256 * r.unit + 65536 * r.ucode + 2 ^ 24 * b2n r.mismatch + 2 ^ 25 * b2n r.overrun) ++
    natToBytes 4 index.toNat ++ natToBytes 8 beat

/-- Write the completion record of an op; a failing write sets RING_FAULT (R266, R272). -/
def State.writeCpl (s : State) (n : Nat) (e : OpEntry) (r : OpEnd) : State × Bool :=
  if !s.bit (Reg.calRingCfg n) 14 then (s, true)
  else
    let base := (s.rget (Reg.calRingCplBaseLo n)).toNat + 2 ^ 32 * s.fget (Reg.calRingCplBaseHi n) 15 0
    let a := base + 16 * (e.index.toNat % s.ringSlots n)
    if inTiers a then
      let (t, ok) := s.engineStore (.caller n) a (cplRecord e.index s.beat r)
      if ok then (t, true) else (t.flag (Reg.calRingStatus n) 7, false)
    else (s.flag (Reg.calRingStatus n) 7, false)

/-- The error reports of a ring (R268). -/
def State.reportError (s : State) (n : Nat) (e : OpEntry) (r : OpEnd) : State :=
  let s := s.rset (Reg.calRingLastErr n) (toWord (r.code + 256 * r.unit + 65536 * r.ucode))
  let s := (s.rset (Reg.calRingLastErrIndex n) e.index).rset (Reg.calRingLastErrLayer n) (toWord e.layer)
  let s := (s.rset (Reg.calRingLastErrOper n) (toWord e.oper)).flag (Reg.calRingStatus n) 4
  let s := s.count (Reg.calRingErrCount n) 1
  let b := s.rget (Reg.calRingErrBkl n)
  if bitOf b 31 then s.signalAll (fieldOf b 13 0) [⟨.caller n, false, 1, false⟩] else s

/-- The error registers of the unit that rejected or ended an op (R237, R315, R336, R364). -/
def State.reportUnit (s : State) (n : Nat) (e : OpEntry) (r : OpEnd) : State :=
  if r.code ≠ 0x21 ∧ r.code ≠ 0x23 then s
  else
    let rej := b2n (r.code = 0x23)
    let s := if 1 ≤ r.unit ∧ r.unit ≤ 5 then s.flag (unitStatus r.unit) (opErrorBit r.unit) else s
    let w := toWord (r.ucode + 256 * n + 512 * rej)
    let l := toWord e.layer
    let o := toWord e.oper
    match r.unit with
    | 2 => ((s.rset Reg.latLastErr (toWord (r.ucode + 256 * n))).rset Reg.latLastErrLayer l).rset Reg.latLastErrOper o
    | 3 => (((s.rset Reg.tngLastErr w).rset Reg.tngLastErrLayer l).rset Reg.tngLastErrOper o).rset Reg.tngLastErrSeq
        (toWord (descField e.desc 0x40 9 0))
    | 4 => (((s.rset Reg.relLastErr w).rset Reg.relLastErrLayer l).rset Reg.relLastErrOper o).rset Reg.relLastErrStream
        (toWord (descField e.desc 0x40 7 0))
    | 5 => ((s.rset Reg.visLastErr w).rset Reg.visLastErrLayer l).rset Reg.visLastErrOper o
    | _ => s

/-- The fold that a trace record shows: the op's own, or Tango's (R637). -/
def State.foldOf (s : State) (e : OpEntry) : Nat :=
  if e.opcode = 0x20 ∨ e.opcode = 0x21 ∨ e.opcode = 0x23 then s.fget Reg.tngLastSplit 10 8
  else descField e.desc 0 18 16

/-- The counters of ops that have ended, by opcode (R233; VIS_CONV_COUNT, VIS_CROP_COUNT, REL_SCAN_COUNT, REL_ELT_COUNT):
those that did not run end too. A REEL_SCAN that ends with an error sets FAULT of its stream (R357). -/
def State.countEnded (s : State) (e : OpEntry) (code : Nat) : State :=
  match e.opcode with
  | 0x11 => s.bump Reg.visConvCount 1
  | 0x30 =>
    (if code = 0 then s else s.flag (Reg.relStrCfg (descField e.desc 0x40 7 0)) 20).bump Reg.relScanCount 1
  | 0x31 => s.bump Reg.relEltCount 1
  | 0x40 => s.bump Reg.visCropCount 1
  | 0x50 => s.bump Reg.latFetchCount 1
  | _ => s

/-- The first op of ring n ends (R259, R260, R266 to R269): staged signals, completion record, signals or error
buckle, DONE, breakpoints at the end, trace; a ring with ON_ERROR = 0 stops on an error. -/
def State.endOp (s : State) (n typ : Nat) (e : OpEntry) (r : OpEnd) : State :=
  let (s, code) := s.stageOp n e r.code
  let r := { r with code := code, unit := if code = 0x1D then 0 else r.unit }
  let (s, wrote) := s.writeCpl n e r
  let s := if code = 0 then (if e.txn.isNone then s.applySignals (e.signals n) else s)
    else (s.reportUnit n e r).reportError n e r
  let hits := if typ = 2 then [] else s.obpHits true n e
  let e := e.mark hits
  let s := s.obpFireAll hits n e
  let s := s.trace typ n (s.foldOf e) e.index.toNat e r
  let s := (s.putRingQ n (s.ringQ n).tail).rset (Reg.calRingDone n) (s.rget (Reg.calRingDone n) + 1)
  let s := ((s.bump (Reg.calRingOpCount n) 1).countEnded e code).syncRing n
  let s := s.syncWindow n
  let s := if n = 0 && descField e.desc 0 23 23 = 1 && s.bit Reg.calGoldenStatus 0 then
      { s with ten := { s.ten with goldDue := true } } else s
  if !wrote || (decide (code ≠ 0) && !s.bit (Reg.calRingCfg n) 13) then s.ringStopping n else s

/-! ### The issue slot (R244 to R247) -/

/-- Wait k of an op is satisfied or not enabled (R100, R258). -/
def State.waitMet (s : State) (e : OpEntry) (k : Nat) : Bool :=
  let w := descWord e.desc (0x20 + 8 * k)
  bitsOf w 15 15 = 0 ||
    waitSatisfied (bitsOf w 14 14 = 1) (s.buckle (bitsOf w 13 0)) (toWord (descWord e.desc (0x24 + 8 * k)))

/-- The first op of ring n, where its waits are satisfied and it passed its checks (R245, R258). -/
def State.readyOp (s : State) (n : Nat) : Option OpEntry :=
  match s.ringQ n with
  | e :: _ =>
    if s.ringState n = 1 && e.code = 0 && s.waitMet e 0 && s.waitMet e 1 && !s.ringBusy n then some e else none
  | [] => none

/-- A ready op that occupies the Tensor Plane. -/
def State.readyTensorOp (s : State) (n : Nat) : Option OpEntry :=
  match s.readyOp n with
  | some e => if occupies e.opcode then some e else none
  | none => none

/-- Does the issue slot serve an op of a ring now (R246, R629): no op in the Tensor Plane, no halt, no clock change
pending, no golden run in progress or due. -/
def State.slotOpen (s : State) : Bool :=
  s.mainOn && s.ten.run.isNone && s.ten.goldRun.isNone && decide (s.fget Reg.tlgStatus 4 2 = 0) &&
    s.ten.clockReq.isNone && !(s.bit Reg.calGoldenStatus 0 && s.ten.goldDue)

/-- The op that the issue slot serves next from ring n (R246): the frame ring comes first. -/
def State.chosenOp (s : State) (n : Nat) : Option OpEntry :=
  if !s.slotOpen then none
  else if n = 0 then s.readyTensorOp 0
  else if n = 1 && (s.readyTensorOp 0).isNone then s.readyTensorOp 1
  else none

/-- A unit is DRAINING or DRAINED. -/
def State.unitDrained (s : State) (u : Nat) : Bool := decide (2 ≤ s.fget (unitStatus u) 1 0)

/-- A unit takes an op. -/
def State.unitBusy (s : State) (u : Nat) : State := s.fset (unitStatus u) 1 0 1

/-- Both windows lose their records (R238). -/
def State.dropWindows (s : State) : State := (s.dropRecords 0 fun _ => true).dropRecords 1 fun _ => true

/-- A unit's op has ended (R199, R238, R316, R338, R366): one that drains is DRAINED, Latigo without records. -/
def State.unitFree (s : State) (u : Nat) : State :=
  match s.fget (unitStatus u) 1 0 with
  | 1 => s.fset (unitStatus u) 1 0 0
  | 2 =>
    let s := (s.fset (unitStatus u) 1 0 3).flag (unitStatus u) (drainedBit u)
    if u = 2 then s.dropWindows else s
  | _ => s

/-- Why an op may not run at issue: its transaction is not OPEN (R260), or a unit is drained (R267). -/
def State.issueCode (s : State) (e : OpEntry) : Nat × Nat :=
  if e.txn.any fun t => s.txnState t ≠ 1 then (0x1D, 0)
  else
    match e.units.find? s.unitDrained with
    | some u => (0x20, u)
    | none => (0, 0)

/-- The op that begins to occupy the Tensor Plane. -/
def State.newRun (s : State) (n : Nat) (golden : Option (Nat × Nat)) (e : OpEntry) (code unit : Nat) : RunOp where
  ring := n
  golden := golden
  op := e
  code := code
  unit := unit
  ucode := 0
  mismatch := false
  overrun := false
  issueBeat := s.beat
  mhz := s.fget Reg.stwPower 26 16
  chk := if usesHide e.opcode && (decide (descField e.desc 0 20 20 = 1) || s.bit Reg.hidChkForce (n % 2)) then
      some (s.rget (Reg.hidChkCfg (n % 2))) else none
  passes := 0
  drained := 0
  stalls := List.replicate 6 0
  live := .empty
  held := false
  shadow := none
  tango := none
  outs := []
  counted := 0
  fed := []
  finished := decide (code ≠ 0)

/-- Give the op in progress a new state. -/
def State.putRun (s : State) (r : RunOp) : State := { s with ten := { s.ten with run := some r } }

/-- Change the op in progress. -/
def State.onRun (s : State) (f : RunOp → RunOp) : State :=
  match s.ten.run with
  | some r => s.putRun (f r)
  | none => s

/-- The op in progress has nothing more to do. -/
def State.runDone (s : State) : State := s.onRun fun r => { r with finished := true }

/-- A unit ends the op in progress with an error (R265); the live set is discarded (R197). -/
def State.runFail (s : State) (unit ucode : Nat) : State :=
  s.onRun fun r => { r with code := 0x21, unit := unit, ucode := ucode, live := .empty, held := false, finished := true }

/-- The Hide's registers for an op of its own (HID_CUR_OP and the others). -/
def State.hideStart (s : State) (n : Nat) (e : OpEntry) : State :=
  if usesHide e.opcode then
    let s := (s.rset Reg.hidCurOp (toWord (e.opcode + 65536 * e.oper))).rset Reg.hidCurLayer (toWord e.layer)
    let s := ((s.rset Reg.hidCurTile 0).fset Reg.hidStatus 3 2 1).fset Reg.hidStatus 4 4 n
    s.fset Reg.hidStatus 7 5 (descField e.desc 0 18 16)
  else s

/-- An op begins; `start` does what its unit does at its start. -/
def State.beginOp (s : State) (n : Nat) (golden : Option (Nat × Nat)) (e : OpEntry)
    (start : State → OpEntry → State) : State :=
  let (code, unit) := s.issueCode e
  let s := s.putRun (s.newRun n golden e code unit)
  let s := if golden.isNone then s.tally 0x030 n 1 else s
  let s := if code ≠ 0 then s else start ((e.units.foldl State.unitBusy s).hideStart n e) e
  (s.syncWindow n).syncHalt

/-- Issue the chosen op of ring n if it has this opcode; a breakpoint before issue fires instead (R246, R631). -/
def State.issue (s : State) (n opcode : Nat) (start : State → OpEntry → State) : State :=
  match s.chosenOp n with
  | none => s
  | some e =>
    if e.opcode ≠ opcode then s
    else
      let hits := s.obpHits false n e
      if hits.isEmpty then s.beginOp n none e start
      else
        let e := e.mark hits
        (s.putRingQ n (e :: (s.ringQ n).tail)).obpFireAll hits n e

/-! ### Ends -/

/-- NOP and FENCE end when they are the first of their ring and their waits are satisfied (R261, R262). -/
def State.quickOp (s : State) (n opcode : Nat) : State :=
  match s.readyOp n with
  | none => s
  | some e =>
    if e.opcode ≠ opcode ∨ 2 ≤ n then s
    else if opcode = 1 ∧ descField e.desc 0x40 0 0 = 1 then
      (s.fset (Reg.calRingStatus n) 2 0 2).flag (Reg.calRingStatus n) 9
    else
      match e.txn with
      | some t => if s.txnState t = 1 then s.endOp n 4 e (s.endAtOnce 0 0 0) else s.endOp n 4 e (s.endAtOnce 0x1D 0 0)
      | none => s.endOp n 4 e (s.endAtOnce 0 0 0)

/-- NOP (R261). -/
def execNop (ring : Nat) (s : State) : Out := .next (if s.mainOn then s.quickOp ring 0 else s)

/-- FENCE (R261, R262). -/
def execFence (ring : Nat) (s : State) : Out := .next (if s.mainOn then s.quickOp ring 1 else s)

/-- REJECTED_OP_END (R264): once every earlier op of the ring has ended. -/
def execRejectedOpEnd (ring : Nat) (s : State) : Out :=
  .next <|
    match s.ringQ ring with
    | e :: _ =>
      if ring < 2 ∧ s.ringState ring = 1 ∧ e.code ≠ 0 then
        s.endOp ring 2 e (s.endAtOnce e.code e.unit e.ucode)
      else s
    | [] => s

/-- RING_STOPPED (R269, R271). -/
def execRingStopped (ring : Nat) (s : State) : Out :=
  .next (if ring < 2 ∧ s.ringState ring = 3 ∧ !s.ringBusy ring then s.ringStopped ring else s)

/-- The Hide and FETCH show no op at the end of one that ran. -/
def State.countOp (s : State) (e : OpEntry) : State :=
  let s := if usesHide e.opcode then (s.bump Reg.hidOpCount 1).fset Reg.hidStatus 3 2 0 else s
  if e.opcode = 0x50 then s.bput Reg.latStatus 2 false else s

/-- The end of a golden op (R278, R279): its report, and the run's end. It changes no ring. -/
def State.endGolden (s : State) (set j : Nat) (e : OpEntry) (digest : Nat) (r : OpEnd) : State :=
  let id := descField e.desc 0x58 15 8
  let s := s.goldenReport set id r.code digest
  let s := if r.code = 0 then s else (s.flag Reg.calGoldenStatus 2).reportUnit 0 e r
  let s := s.trace 3 0 (s.foldOf e) (id + 256 * set) e r
  if j < s.fget Reg.calGoldenCfg 7 4 then { s with ten := { s.ten with goldRun := some (set, j + 1) } }
  else { s.bump Reg.calGoldenRunCount 1 with ten := { s.ten with goldRun := none } }

/-! ### Golden runs (R275 to R278) -/

/-- GOLDEN_LATEST_EXPIRY (R277). -/
def execGoldenLatestExpiry (s : State) : Out :=
  .next <|
    let us := s.fget Reg.calGoldenCfg 31 16
    if s.bit Reg.calGoldenStatus 0 ∧ us ≠ 0 ∧ s.ten.goldBeat + beatsPerUs * us ≤ s.beat then
      { s with ten := { s.ten with goldDue := true } }
    else s

/-- NEXT_SET: run r uses set r mod (SETS_M1 + 1) (R278). -/
def State.syncNextSet (s : State) : State :=
  s.fset Reg.calGoldenStatus 13 8 (s.ten.goldRuns % (s.fget Reg.calGoldenCfg 13 8 + 1))

/-- GOLDEN_RUN_INSERT (R246, R277, R278): at an op boundary after the insertion point the run takes the issue slot. -/
def execGoldenRunInsert (s : State) : Out :=
  .next <|
    if s.mainOn && s.ten.run.isNone && s.ten.goldRun.isNone && decide (s.fget Reg.tlgStatus 4 2 = 0) &&
        s.ten.clockReq.isNone && s.bit Reg.calGoldenStatus 0 && s.ten.goldDue then
      let r := s.ten.goldRuns
      let sets := s.fget Reg.calGoldenCfg 13 8 + 1
      { s.bput Reg.calGoldenStatus 0 false with ten := { s.ten with
          goldDue := false, goldRun := some (r % sets, 0), goldRuns := r + 1 } }.syncNextSet
    else s

/-! ### Tensor clock (R41, R43) -/

/-- Can the Steward act: it runs or is in service mode, and is neither restarting (R615) nor halted (R627). -/
def State.stewardActs (s : State) : Bool :=
  s.mainOn && decide (2 ≤ s.fget Reg.stwStatus 1 0) && !s.bit Reg.stwStatus 3 && !s.tlg.halted.contains 0x10

/-- TENSOR_CLOCK_CHANGE (R41, R246): at an op boundary, inside a golden run too, ahead of any issue; not while a halt
stands (R629). While the Steward restarts or is halted the clock only falls (R615, R627). -/
def execTensorClockChange (s : State) : Out :=
  .next <|
    match s.ten.clockReq with
    | none => s
    | some (mhz, _) =>
      if s.ten.run.isNone && decide (s.fget Reg.tlgStatus 4 2 = 0) &&
          (decide (mhz ≤ s.fget Reg.stwPower 26 16) || s.stewardActs) then
        { s.fset Reg.stwPower 26 16 mhz with ten := { s.ten with clockReq := none } }
      else s

/-- POWER_THROTTLE_START (R43): the share of cycles held back comes from the measured power, so it is free. -/
def execPowerThrottleStart (s : State) : Out :=
  .next <|
    match s.ten.clockReq with
    | none => s
    | some (mhz, b) =>
      if s.ten.run.isSome && decide (mhz < s.fget Reg.stwPower 26 16 ∧ b + 400 * beatsPerUs ≤ s.beat) then
        let (share, s) := s.drawNat
        { s with ten := { s.ten with throttled := some (share % 1001) } }
      else s

/-- OP_OVERRUN (R250): the op in progress has run for `cycles` cycles. -/
def execOpOverrun (cycles : Nat) (s : State) : Out :=
  .next <|
    match s.ten.run with
    | none => s
    | some r =>
      if r.golden.isNone && !r.overrun && decide (max 1 (s.fget Reg.calOverrunLimit 22 0) < cycles) then
        ((s.putRun { r with overrun := true }).flag (Reg.calRingStatus r.ring) 8).count
          (Reg.calRingOverrunCount r.ring) 1
      else s

/-! ### Ring registers (R241, R262, R271 to R273, R280) -/

/-- RING_TAIL_WRITE (R241). -/
def State.tailWrite (s : State) (n : Nat) (v : Word) : State :=
  if atOrAfter v (s.rget (Reg.calRingTail n)) ∧ (v - s.rget (Reg.calRingDone n)).toNat ≤ s.ringSlots n then
    (s.rset (Reg.calRingTail n) v).syncRing n
  else s.flag (Reg.calRingStatus n) 6

/-- RING_HEAD_WRITE (R273). -/
def State.headWrite (s : State) (n : Nat) (v : Word) : State :=
  if s.ringState n = 0 ∨ s.ringState n = 4 then
    ((s.rset (Reg.calRingHead n) v).rset (Reg.calRingDone n) v).syncRing n
  else s.flag (Reg.calRingStatus n) 6

/-- RING_CFG_WRITE (R280): the ring keeps the lower of the written generation and GEN_MAX; 0 is kept as GEN_MIN.
ENTRIES_LOG2 changes only in DISABLED. -/
def State.ringCfgWrite (s : State) (n : Nat) (v : Word) : State :=
  let g := fieldOf v 3 0
  let kept := if g = 0 then s.fget Reg.calVersion 3 0 else min g (s.fget Reg.calVersion 7 4)
  let old := s.fget (Reg.calRingCfg n) 12 8
  let s' := (s.putRw (Reg.calRingCfg n) v).fset (Reg.calRingCfg n) 3 0 kept
  if s.ringState n = 0 then s' else s'.fset (Reg.calRingCfg n) 12 8 old

/-- Is the configuration of ring n one that ENABLE accepts (R239, R272). -/
def State.ringOk (s : State) (n : Nat) : Bool :=
  let base := (s.rget (Reg.calRingBaseLo n)).toNat + 2 ^ 32 * s.fget (Reg.calRingBaseHi n) 15 0
  let cpl := (s.rget (Reg.calRingCplBaseLo n)).toNat + 2 ^ 32 * s.fget (Reg.calRingCplBaseHi n) 15 0
  let e := s.fget (Reg.calRingCfg n) 12 8
  decide (4 ≤ e ∧ e ≤ 16) && decide (regionOf base = .tierB) && decide (base % (128 * s.ringSlots n) = 0) &&
    (!s.bit (Reg.calRingCfg n) 14 || (decide (cpl % 16 = 0) && inTiers cpl))

/-- A write of CAL_RINGn_CTRL (R262, R271, R272). -/
def State.ringCtrlWrite (s : State) (n : Nat) (v : Word) : State :=
  let st := s.ringState n
  let s := s.bput (Reg.calRingCtrl n) 0 (bitOf v 0)
  if !bitOf v 0 then
    if st = 4 then s.fset (Reg.calRingStatus n) 2 0 0
    else if st = 1 ∨ st = 2 then s.ringStopping n
    else s
  else if st = 0 then
    (if s.ringOk n then s.fset (Reg.calRingStatus n) 2 0 1
     else (s.bput (Reg.calRingCtrl n) 0 false).flag (Reg.calRingStatus n) 7)
  else if bitOf v 2 ∧ (st = 1 ∨ st = 2) then s.ringStopping n
  else if bitOf v 1 ∧ st = 4 then s.fset (Reg.calRingStatus n) 2 0 1
  else if bitOf v 1 ∧ st = 2 then
    let s := s.fset (Reg.calRingStatus n) 2 0 1
    match s.ringQ n with
    | e :: _ => s.endOp n 4 e (s.endAtOnce 0 0 0)
    | [] => s
  else s

/-- The write rule of the CAL_ block. -/
def State.calWrite (s : State) (o : Nat) (v : Word) : State :=
  let n := (o - 0x100) / 0x80
  if 0x100 ≤ o ∧ o < 0x200 then
    match o % 0x80 with
    | 0x00 => s.ringCtrlWrite n v
    | 0x04 => s.ringCfgWrite n v
    | 0x10 => s.tailWrite n v
    | 0x14 => s.headWrite n v
    | _ => s.putTyped (0x10320000 + o) v 0
  else if o = 0x200 then (s.putTyped (0x10320000 + o) v 0).syncNextSet
  else s.putTyped (0x10320000 + o) v 0

/-- RING_TAIL_WRITE (R241). -/
def execRingTailWrite (who : Initiator) (ring : Nat) (value : Word) (s : State) : Out :=
  s.named (decide (ring < 2)) <| s.softWrite who (Reg.calRingTail ring) value fun s v => s.tailWrite ring v

/-- RING_HEAD_WRITE (R273). -/
def execRingHeadWrite (who : Initiator) (ring : Nat) (value : Word) (s : State) : Out :=
  s.named (decide (ring < 2)) <| s.softWrite who (Reg.calRingHead ring) value fun s v => s.headWrite ring v

/-- RING_CFG_WRITE (R280). -/
def execRingCfgWrite (who : Initiator) (ring : Nat) (value : Word) (s : State) : Out :=
  s.named (decide (ring < 2)) <| s.softWrite who (Reg.calRingCfg ring) value fun s v => s.ringCfgWrite ring v

/-- A write of CAL_RINGn_CTRL by a row of its own. -/
def ringCtrlCommand (who : Initiator) (ring : Nat) (value : Word) (s : State) : Out :=
  s.named (decide (ring < 2)) <| s.softWrite who (Reg.calRingCtrl ring) value fun s v => s.ringCtrlWrite ring v

/-- RING_ENABLE (R272). -/
def execRingEnable (who : Initiator) (ring : Nat) (s : State) : Out := ringCtrlCommand who ring 1 s

/-- RING_DISABLE (R271). -/
def execRingDisable (who : Initiator) (ring : Nat) (s : State) : Out := ringCtrlCommand who ring 0 s

/-- RING_RESUME (R262). -/
def execRingResume (who : Initiator) (ring : Nat) (s : State) : Out := ringCtrlCommand who ring 3 s

/-- RING_STOP (R271). -/
def execRingStop (who : Initiator) (ring : Nat) (s : State) : Out := ringCtrlCommand who ring 5 s

/-- A unit is disabled or enabled by its CTRL register (R199, R200, R238, R316, R338, R366): ENABLE = 0 drains it, at
once when it has no op. -/
def State.unitEnable (s : State) (ctrl u : Nat) (v : Word) : State :=
  let s := s.putRw ctrl v
  let st := s.fget (unitStatus u) 1 0
  let inOp := match s.ten.run with
    | some r => r.op.units.contains u && decide (r.code ≠ 0x20 ∧ r.code ≠ 0x1D)
    | none => false
  if bitOf v 0 then
    (if 2 ≤ st then s.fset (unitStatus u) 1 0 (b2n inOp) else s)
  else if st = 1 then s.fset (unitStatus u) 1 0 2
  else if st = 0 then (s.fset (unitStatus u) 1 0 3).flag (unitStatus u) (drainedBit u)
  else s

end Sys2Proof.Machine
end

