-- ==== Sys2Proof/Machine/Transcend.lean ====
section
/-!
DEFINITION. Machine/Transcend.lean: the fixed functions of the Edge unit, Reel and Tango (R187, R188, R296, R299, R305,
R340, R341). The spec fixes each only up to an error: the value is a free constant of the part (Config.approx) wherever
that lies within the stated error, and the nearest value elsewhere.
-/

namespace Sys2Proof.Machine

/-! ### Reference values in fixed point with 400 fraction bits -/

/-- The unit. -/
def fx : Nat := 400
def fxOne : Int := 2 ^ fx

/-- A product and a quotient. -/
def fxMul (a b : Int) : Int := a * b / fxOne
def fxDiv (a b : Int) : Int := a * fxOne / b

/-- A finite number in fixed point. -/
def numFix : Num → Int
  | .fin neg m e =>
    let v : Int := if 0 ≤ e + fx then m * 2 ^ (e + fx).toNat else (m / 2 ^ (-(e + fx)).toNat : Nat)
    if neg then -v else v
  | _ => 0

/-- Terms of Σ r^i / i! from term i with value t. -/
def expTerms (r : Int) : Nat → Nat → Int → Int
  | 0, _, t => t
  | n + 1, i, t => t + expTerms r n (i + 1) (fxMul t r / (i + 1 : Int))

/-- x squared n times. -/
def squareTimes : Nat → Int → Int
  | 0, x => x
  | n + 1, x => squareTimes n (fxMul x x)

/-- e^v, for v held to ±1000. -/
def expFix (v : Int) : Int :=
  squareTimes 20 (expTerms (clampI v (-1000 * fxOne) (1000 * fxOne) / 2 ^ 20) 45 0 fxOne)

/-- Terms of atanh z: Σ z^(2i + 1) / (2i + 1), from the power p of z. -/
def atanhTerms (z2 : Int) : Nat → Nat → Int → Int
  | 0, _, _ => 0
  | n + 1, i, p => p / (2 * i + 1 : Int) + atanhTerms z2 n (i + 1) (fxMul p z2)

/-- atanh z for z up to 1/3. -/
def atanhFix (z : Int) : Int := atanhTerms (fxMul z z) 135 0 z

/-- ln 2. -/
def ln2Fix : Int := 2 * atanhFix (fxOne / 3)

/-- ln (m × 2^e) for m above 0. -/
def lnFix (m : Nat) (e : Int) : Int :=
  let k := Nat.log2 m
  2 * atanhFix (((m : Int) - 2 ^ k) * fxOne / ((m : Int) + 2 ^ k)) + (e + k) * ln2Fix

/-- arctan (1 / d), by its alternating series. -/
def atanInv (d : Int) : Int := atanhTerms (-(fxOne / (d * d))) 210 0 (fxOne / d)

/-- π, by Machin's formula. -/
def piFix : Int := 4 * (4 * atanInv 5 - atanInv 239)

/-- Terms of the normal distribution's series: Σ (−y)^n / (n! (2n + 1)), with the power-and-factorial part t. -/
def normTerms (y : Int) : Nat → Nat → Int → Int
  | 0, _, _ => 0
  | n + 1, i, t => t / (2 * i + 1 : Int) + normTerms y n (i + 1) (-(fxMul t y) / (i + 1 : Int))

/-- 1 / √(2π). -/
def invSqrt2Pi : Int := fxOne * fxOne / (isqrt (2 * piFix * fxOne).toNat : Int)

/-- (1 + erf (x / √2)) / 2. -/
def normFix (x : Int) : Int :=
  if x < -15 * fxOne then 0
  else if 15 * fxOne < x then fxOne
  else fxOne / 2 + fxMul (fxMul x invSqrt2Pi) (normTerms (fxMul x x / 2) 640 0 fxOne)

/-- 1 / (1 + e^−x). -/
def sigmoidFix (x : Int) : Int := fxDiv fxOne (fxOne + expFix (-x))

/-- tanh x. -/
def tanhFix (x : Int) : Int :=
  let e := expFix (2 * clampI x (-500 * fxOne) (500 * fxOne))
  fxDiv (e - fxOne) (e + fxOne)

/-- 0.5x(1 + tanh u) = x / (1 + e^−2u), with u of R187. -/
def geluTanhFix (x : Int) : Int :=
  let u := (x + fxMul (fxMul x x) x * 44715 / 1000000) * 79788456 / 100000000
  fxMul x (sigmoidFix (2 * u))

/-- ln (1 + e^x). -/
def softplusFix (x : Int) : Int :=
  let soft (y : Int) : Int := lnFix (fxOne + expFix y).toNat (-fx)
  if 0 < x then x + soft (-x) else soft x

/-- 1 / √(m × 2^e). -/
def rsqrtFix (m : Nat) (e : Int) : Int := (isqrt (2 ^ (2 * (fx : Int) - e).toNat / m) : Nat)

/-! ### Bounded free values -/

/-- Does the finite number of a code lie within `ulps` of the reference t; below the smallest normal number, within the
smallest step (R187). -/
def FloatFmt.within (f : FloatFmt) (code : Nat) (t : Int) (ulps : Nat) : Bool :=
  match f.decode code with
  | .fin neg m e =>
    let q : Int := 1 - (f.bias : Int) - f.mbits
    let step : Int := max q ((Nat.log2 t.natAbs : Int) - fx - f.mbits)
    let k := if t.natAbs < 2 ^ (fx + 1 - f.bias) then 1 else ulps
    decide ((numFix (.fin neg m e) - t).natAbs ≤ k * 2 ^ (step + fx).toNat)
  | _ => false

/-- The fixed function `id` at input `key`, whose exact value is t: the part's value where it lies within the bound, else
the nearest. -/
def FloatFmt.bounded (f : FloatFmt) (id key : Nat) (t : Int) (ulps : Nat) : Nat :=
  let c := Config.approx id key % 2 ^ f.width
  if f.within c t ulps then c else (f.encode (numOfInt t (-fx) false) .nearest false).1

/-- An FP32 fixed function. -/
def fBounded (id x : Nat) (t : Int) (ulps : Nat) : Nat := fmtFp32.bounded id x t ulps

/-- +∞ and +0 in FP32, −∞. -/
def fInf : Nat := 0x7F800000
def fNegInf : Nat := 0xFF800000

/-- The function codes 0x0 to 0x8 of R187 and 0x9 to 0xF of R340, at an FP32 input; P0 and P1 serve codes 2 and 3. -/
def fnValue (code p0 p1 x : Nat) : Nat :=
  match f32 x with
  | .nan => fNan
  | .inf neg =>
    match code with
    | 0x1 => if neg then 0 else fInf
    | 0x2 => if neg ∧ !flt p1 p0 then p0 else p1
    | 0x3 => if !neg then x else if (f32 p0).isZero then fmul (fneg fOne) p0 else fmul x p0
    | 0x4 => if neg then 0 else fOne
    | 0x5 => if neg then fneg fOne else fOne
    | 0x6 | 0x7 | 0x8 => if neg then 0x80000000 else fInf
    | 0x9 => if neg then 0 else fInf
    | 0xA => if neg then fNan else fInf
    | 0xB => if neg then 0x80000000 else 0
    | 0xC => if neg then fNan else 0
    | 0xD => if neg then 0 else fInf
    | 0xE => fInf
    | 0xF => fneg x
    | _ => x
  | .fin neg m e =>
    let v := numFix (.fin neg m e)
    match code with
    | 0x1 => if neg ∨ m = 0 then 0 else x
    | 0x2 => let y := if flt x p0 then p0 else x
             if flt p1 y then p1 else y
    | 0x3 => if neg ∧ m ≠ 0 then fmul x p0 else x
    | 0x4 => fBounded 4 x (sigmoidFix v) 2
    | 0x5 => fBounded 5 x (tanhFix v) 2
    | 0x6 => fBounded 6 x (fxMul v (sigmoidFix v)) 3
    | 0x7 => fBounded 7 x (geluTanhFix v) 4
    | 0x8 => fBounded 8 x (fxMul v (normFix v)) 4
    | 0x9 => fBounded 9 x (expFix v) 2
    | 0xA => if m = 0 then fNegInf else if neg then fNan else fBounded 10 x (lnFix m e) 2
    | 0xB => fdiv fOne x
    | 0xC => if m = 0 then fInf else if neg then fNan else fBounded 12 x (rsqrtFix m e) 1
    | 0xD => fBounded 13 x (softplusFix v) 3
    | 0xE => x % 2 ^ 31
    | 0xF => fneg x
    | _ => x

/-- Is a function code one of Reel's (R340). -/
def reelFn (code : Nat) : Bool := code ≠ 2 && code ≠ 3 && code < 16

/-- Tango's exp: exp(−∞) = +0 and exp(0) = 1 (R296). -/
def tangoExp (x : Nat) : Nat :=
  match f32 x with
  | .nan => fNan
  | .inf neg => if neg then 0 else fInf
  | .fin neg m e => if m = 0 then fOne else fBounded 16 x (expFix (numFix (.fin neg m e))) 2

/-- Tango's ln (R305). -/
def tangoLn (x : Nat) : Nat :=
  match f32 x with
  | .nan => fNan
  | .inf neg => if neg then fNan else fInf
  | .fin neg m e => if m = 0 then fNegInf else if neg then fNan else fBounded 17 x (lnFix m e) 2

/-! ### Rotary angles in binary64 (R299) -/

/-- binary64. -/
def fmtFp64 : FloatFmt := ⟨11, 52, 1023, .ieee⟩

/-- A value rounded to binary64. -/
def toF64 (x : Num) : Nat := (fmtFp64.encode x .nearest false).1

/-- The value of a binary64 code. -/
def f64 (code : Nat) : Num := fmtFp64.decode code

def dadd (a b : Nat) : Nat := toF64 ((f64 a).add (f64 b))
def dmul (a b : Nat) : Nat := toF64 ((f64 a).mul (f64 b))

/-- ω_j = base^(−2j/R), within 1 ulp; for a base that is no positive number the spec states no value, and the part's
value stands. -/
def omega (base j r : Nat) : Nat :=
  let key := base + 2 ^ 32 * (j + 1024 * r)
  match f32 base with
  | .fin false m e =>
    if m = 0 then Config.approx 18 key % 2 ^ 64
    else fmtFp64.bounded 18 key (expFix (-(lnFix m e * (2 * j : Int) / (r : Int)))) 1
  | _ => Config.approx 18 key % 2 ^ 64

/-- Terms of cos (from t = 1, i = 0) or sin (from t = x, i = 1). -/
def trigTerms (x2 : Int) : Nat → Nat → Int → Int
  | 0, _, _ => 0
  | n + 1, i, t => t + trigTerms x2 n (i + 2) (-(fxMul t x2) / ((i + 1 : Int) * (i + 2)))

/-- cos and sin of a binary64 angle, each within 1 ulp, rounded to FP32. -/
def cosSin (angle : Nat) : Nat × Nat :=
  match f64 angle with
  | .fin neg m e =>
    let x := numFix (.fin neg m e) % (2 * piFix)
    let c := fmtFp64.bounded 19 angle (trigTerms (fxMul x x) 70 0 fxOne) 1
    let s := fmtFp64.bounded 20 angle (trigTerms (fxMul x x) 70 1 x) 1
    (toF32 (f64 c), toF32 (f64 s))
  | _ => (toF32 (f64 (Config.approx 19 angle % 2 ^ 64)), toF32 (f64 (Config.approx 20 angle % 2 ^ 64)))

end Sys2Proof.Machine
end

