-- ==== Sys2Proof/Machine/Plane.lean ====
section
/-!
DEFINITION. Machine/Plane.lean: tensor descriptors, and how the Tensor Plane reads and writes tensors in memory
(R78, R82, R135 to R139, R152 to R157, R256, R369, R370).
-/

namespace Sys2Proof.Machine

/-! ### Memory of a ring's process (R52, R78, R82) -/

/-- Cut `n` bytes at `a` at 4 KiB boundaries: (address, length), with `fuel` pieces. -/
def pagePieces : Nat → Nat → Nat → List (Nat × Nat)
  | 0, _, _ => []
  | fuel + 1, a, n =>
    if n = 0 then []
    else
      let k := min n (4096 - a % 4096)
      (a, k) :: pagePieces fuel (a + k) (n - k)

/-- The pieces of an access. -/
def piecesOf (a n : Nat) : List (Nat × Nat) := pagePieces (n / 4096 + 2) a n

/-- Translate an access of ring n; a fault is recorded (R82). -/
def State.planeMap (s : State) (ring pid iova : Nat) (isWrite : Bool) : State × Option Nat :=
  match s.translate ring pid iova isWrite with
  | (s, .ok pa) => (s, some pa)
  | (s, .fault c) => (s.faultRecord c ring pid iova isWrite, none)

/-- Read some pieces, held to tier `only` where there is one: the bytes, or 1 uncorrectable, 2 translation fault, 3 access
fault. -/
def State.readPieces (s : State) (only : Option Region) (ring pid : Nat) : List (Nat × Nat) → State × Except Nat (List Byte)
  | [] => (s, .ok [])
  | (a, n) :: ps =>
    match s.planeMap ring pid a false with
    | (s, none) => (s, .error 2)
    | (s, some pa) =>
      if !inTiers pa || only.any (fun r => regionOf pa ≠ r) || !s.readable pa || !s.readable (pa + (n - 1)) then (s, .error 3)
      else
        match s.engineLoad pa n with
        | (s, none) => (s, .error 1)
        | (s, some bs) =>
          match s.readPieces only ring pid ps with
          | (s, .ok rest) => (s, .ok (bs ++ rest))
          | (s, .error e) => (s, .error e)

/-- Read `n` bytes at an IOVA of ring n's process, from tier `only` where there is one. -/
def State.planeReadIn (s : State) (only : Option Region) (ring pid a n : Nat) : State × Except Nat (List Byte) :=
  s.readPieces only ring pid (piecesOf a n)

/-- Read `n` bytes at an IOVA of ring n's process. -/
def State.planeRead (s : State) (ring pid a n : Nat) : State × Except Nat (List Byte) := s.planeReadIn none ring pid a n

/-- A write of the Tensor Plane for ring n at a physical address: 0, 1 a word that bad data keeps from being merged (R65),
3 refused. -/
def State.tensorStore (s : State) (ring pa : Nat) (bs : List Byte) : State × Nat :=
  if bs.isEmpty then (s, 0)
  else
    match s.longDenied (.tensor ring) pa bs.length with
    | some d => (s.noteDenied d, 3)
    | none =>
      let (s, ok) := s.storeBytes pa bs []
      (s, if ok then 0 else 1)

/-- Write some pieces: 0, or the code of the first failure. -/
def State.writePieces (s : State) (ring pid : Nat) : List (Nat × Nat) → List Byte → State × Nat
  | [], _ => (s, 0)
  | (a, n) :: ps, bs =>
    match s.planeMap ring pid a true with
    | (s, none) => (s, 2)
    | (s, some pa) =>
      if !inTiers pa then (s, 3)
      else
        match s.tensorStore ring pa (bs.take n) with
        | (s, 0) => s.writePieces ring pid ps (bs.drop n)
        | r => r

/-- Write bytes at an IOVA of ring n's process. -/
def State.planeWrite (s : State) (ring pid a : Nat) (bs : List Byte) : State × Nat :=
  s.writePieces ring pid (piecesOf a bs.length) bs

/-- The IOVA of row (i1, i2, i3). -/
def Tensor.rowAt (t : Tensor) (i1 i2 i3 : Nat) : Nat := t.addr + i1 * t.s1 + i2 * t.s2 + i3 * t.s3

/-- The row's number in the tensor's order. -/
def Tensor.rowNumber (t : Tensor) (i1 i2 i3 : Nat) : Nat := i1 + t.d1 * (i2 + t.d2 * i3)

/-- The tensor as its reader sees it: TRANSPOSE exchanges dimensions 0 and 1 (R227). -/
def Tensor.logical (t : Tensor) : Tensor := if t.transpose then { t with d0 := t.d1, d1 := t.d0 } else t

/-- The tensor, read from one tier alone (R201, R325). -/
def Tensor.from_ (t : Tensor) (r : Region) : Tensor := { t with only := some r }

/-- Blocks of 32 along dimension 0. -/
def Tensor.blocks (t : Tensor) : Nat := ceilDiv t.d0 32

/-- The IOVA of the first block scale of row (i1, i2, i3) (R139), or of its row of squares (R228, R369). -/
def Tensor.scaleAt (t : Tensor) (i1 i2 i3 : Nat) : Nat :=
  if t.scales = 2 then t.baddr + t.blocks * (i1 / 32 + ceilDiv t.d1 32 * (i2 + t.d2 * i3))
  else t.baddr + t.blocks * t.rowNumber i1 i2 i3

/-- `n` element codes of `w` bits from bit `bit` of some bytes. -/
def codesAt (bs : List Byte) (bit w n : Nat) : List Nat :=
  (List.range n).map fun i => bytesToNat ((bs.drop ((bit + i * w) / 8)).take 5) / 2 ^ ((bit + i * w) % 8) % 2 ^ w

/-- Read elements x0 to x0 + n − 1 of a row. -/
def State.readElems (s : State) (ring : Nat) (t : Tensor) (i1 i2 i3 x0 n : Nat) : State × Except Nat (List Nat) :=
  let w := fmtBits t.fmt
  let lo := x0 * w / 8
  match s.planeReadIn t.only ring t.pid (t.rowAt i1 i2 i3 + lo) (ceilDiv ((x0 + n) * w) 8 - lo) with
  | (s, .error e) => (s, .error e)
  | (s, .ok bs) => (s, .ok (codesAt bs (x0 * w % 8) w n))

/-- Read the scale codes of blocks b0 to b0 + n − 1 of a row; a tensor without scales has factor 1. -/
def State.readScales (s : State) (ring : Nat) (t : Tensor) (i1 i2 i3 b0 n : Nat) :
    State × Except Nat (List (Option Nat)) :=
  if t.scales = 0 then (s, .ok (List.replicate n none))
  else
    match s.planeReadIn t.only ring t.pid (t.scaleAt i1 i2 i3 + b0) n with
    | (s, .error e) => (s, .error e)
    | (s, .ok bs) => (s, .ok (bs.map fun b => some b.toNat))

/-- Run a reading action over a list, to the first failure. -/
def readAll {α β : Type} (f : State → α → State × Except Nat β) : State → List α → State × Except Nat (List β)
  | s, [] => (s, .ok [])
  | s, a :: as =>
    match f s a with
    | (s, .error e) => (s, .error e)
    | (s, .ok b) =>
      match readAll f s as with
      | (s, .error e) => (s, .error e)
      | (s, .ok bs) => (s, .ok (b :: bs))

/-- Exchange the axes of a list of rows of n entries. -/
def transposeRows {α : Type} (n : Nat) (d : α) (rows : List (List α)) : List (List α) :=
  (List.range n).map fun i => rows.map fun r => r.getD i d

/-- Elements x0 to x0 + n − 1 of row (i1, i2, i3) with the scale codes of their blocks; x0 starts a block. Of a TRANSPOSE
tensor this is a row along dimension 1 as it is stored (R227), under square scales (R228, R370). -/
def State.readSpan (s : State) (ring : Nat) (t : Tensor) (i1 i2 i3 x0 n : Nat) : State × Except Nat Line :=
  if !t.transpose then
    match s.readElems ring t i1 i2 i3 x0 n with
    | (s, .error e) => (s, .error e)
    | (s, .ok cs) =>
      match s.readScales ring t i1 i2 i3 (x0 / 32) (ceilDiv n 32) with
      | (s, .error e) => (s, .error e)
      | (s, .ok ss) => (s, .ok ⟨cs, ss⟩)
  else
    match readAll (fun s r => s.readElems ring t (x0 + r) i2 i3 i1 1) s (List.range n) with
    | (s, .error e) => (s, .error e)
    | (s, .ok cs) =>
      match readAll (fun s b => s.readScales ring t (x0 + 32 * b) i2 i3 (i1 / 32) 1) s (List.range (ceilDiv n 32)) with
      | (s, .error e) => (s, .error e)
      | (s, .ok ss) => (s, .ok ⟨cs.flatten, ss.flatten⟩)

/-- Read a whole row with its scales. -/
def State.readLine (s : State) (ring : Nat) (t : Tensor) (i1 i2 i3 : Nat) : State × Except Nat Line :=
  s.readSpan ring t i1 i2 i3 0 t.logical.d0

/-- Lines x0 to x0 + n − 1 of a two-dimensional operand, each along the reduction dimension of length k; a TRANSPOSE
operand is stored with the lines' index innermost (R227), and takes square scales (R228, R370). -/
def State.operandLines (s : State) (ring : Nat) (t : Tensor) (x0 n k : Nat) : State × Except Nat (List Line) :=
  if !t.transpose then
    readAll (fun s x => s.readLine ring t x 0 0) s ((List.range n).map (x0 + ·))
  else
    match readAll (fun s r => s.readElems ring t r 0 0 x0 n) s (List.range k) with
    | (s, .error e) => (s, .error e)
    | (s, .ok rows) =>
      let b0 := x0 / 32
      let nb := ceilDiv (x0 + n) 32 - b0
      match readAll (fun s b => s.readScales ring t (32 * b) 0 0 b0 nb) s (List.range (ceilDiv k 32)) with
      | (s, .error e) => (s, .error e)
      | (s, .ok sq) =>
        (s, .ok (List.zipWith Line.mk (transposeRows n 0 rows)
          ((List.range n).map fun i => sq.map fun r => r.getD ((x0 + i) / 32 - b0) none)))

/-- The value of an element with its block's scale; a NaN scale gives NaN. -/
def scaledValue (fmt code : Nat) (scale : Option Nat) : Num :=
  match fmtOf fmt with
  | none => .nan
  | some f =>
    match scaleExp scale with
    | none => .nan
    | some k => (f.decode code).scale k

/-- Elements of a line in FP32, each value times its scale rounded once by its rounding, under SAT or IEEE (R152, R153). -/
def Line.toF32s (l : Line) (fmt : Nat) (rnd : Nat → Rounding) (sat : Bool) : List Nat :=
  (List.range l.codes.length).map fun i =>
    (fmtFp32.encode (scaledValue fmt (l.codes.getD i 0) (l.scales.getD (i / 32) none)) (rnd i) sat).1

/-- Read a row of FP32 values as they are. -/
def State.readF32 (s : State) (ring : Nat) (t : Tensor) (i1 i2 i3 : Nat) : State × Except Nat (List Nat) :=
  match s.readLine ring t i1 i2 i3 with
  | (s, .error e) => (s, .error e)
  | (s, .ok l) => (s, .ok (l.toF32s t.fmt (fun _ => .nearest) false))

/-- The rounding of element i of input slot k: ROUND = 1 draws bits that the spec does not give (log entry 46). -/
def OpEntry.inRounding (e : OpEntry) (k i : Nat) : Rounding :=
  if e.stochastic then .stochastic (Config.inputBits e.seed k i % 65536) else .nearest

/-- Read elements x0 to x0 + n − 1 of a row of input slot k, converted to FP32 with the op's ROUND and OVERFLOW (R294, R330,
R339). -/
def State.readInput (s : State) (ring : Nat) (e : OpEntry) (k : Nat) (r : Nat × Nat × Nat) (x0 n : Nat) :
    State × Except Nat (List Nat) :=
  let t := e.tensor k
  match s.readSpan ring t r.1 r.2.1 r.2.2 x0 n with
  | (s, .error c) => (s, .error c)
  | (s, .ok l) =>
    let first := t.logical.rowNumber r.1 r.2.1 r.2.2 * t.logical.d0 + x0
    (s, .ok (l.toF32s t.fmt (fun i => e.inRounding k (first + i)) e.saturates))

/-- Read a whole row of an input slot. -/
def State.readInputRow (s : State) (ring : Nat) (e : OpEntry) (k : Nat) (r : Nat × Nat × Nat) :
    State × Except Nat (List Nat) := s.readInput ring e k r 0 (e.tensor k).logical.d0

/-! ### Outputs (R152 to R157, R189) -/

/-- The rounding of element i of output tensor t (R152, R156). -/
def OpEntry.rounding (e : OpEntry) (t i : Nat) : Rounding :=
  if e.stochastic then .stochastic (stochasticBits e.seed t i) else .nearest

/-- How outputs are converted: the rounding of each element, and SAT or IEEE. -/
structure OutRule where
  rnd : Nat → Rounding
  sat : Bool

/-- The op's own ROUND and OVERFLOW for output tensor t (R152, R153, R156). -/
def OpEntry.rule (e : OpEntry) (t : Nat) : OutRule := ⟨e.rounding t, e.saturates⟩

/-- Values that are in the output's format as they are (R306). -/
def exactRule : OutRule := ⟨fun _ => .nearest, false⟩

/-- What a written row counts: saturations, NaNs converted to integers, and numbers converted to NaN (R190). -/
structure OutCount where
  sat : Nat
  nan2int : Nat
  nanMade : Nat
  deriving DecidableEq, Repr

def OutCount.zero : OutCount := ⟨0, 0, 0⟩
def OutCount.add (a b : OutCount) : OutCount := ⟨a.sat + b.sat, a.nan2int + b.nan2int, a.nanMade + b.nanMade⟩

/-- The events of some conversions. -/
def countEvents (es : List ConvEvents) : OutCount :=
  ⟨(es.filter (·.saturated)).length, (es.filter (·.nanToInt)).length, (es.filter (·.nanMade)).length⟩

/-- The codes of a row from element x0, with the scale codes of its blocks. -/
def OutRule.encodeRow (u : OutRule) (t : Tensor) (row x0 : Nat) (vs : List Num) : List (Nat × ConvEvents) × List Nat :=
  let withR := (List.range vs.length).map fun i => (vs.getD i .nan, u.rnd (row * t.d0 + x0 + i))
  if t.scales = 1 then
    let blocks := chunksOf 32 (vs.length + 1) withR
    let scales := blocks.map fun b => blockScale t.fmt (b.map (·.1))
    ((List.zipWith (fun b c => blockEncode t.fmt c b) blocks scales).flatten, scales)
  else
    match fmtOf t.fmt with
    | none => ([], [])
    | some f => (withR.map fun v => f.encode v.1 v.2 u.sat, [])

/-- Write part of output tensor tno, and keep what was written with the op in progress (R279, R324). -/
def State.outWrite (s : State) (ring : Nat) (x : OutPart) : State × Nat :=
  match s.planeWrite ring x.pid x.addr x.bytes with
  | (s, 0) => (s.onRun fun r => { r with outs := x :: r.outs }, 0)
  | (s, c) => (s, c)

/-- Write values as elements x0 onwards of a row of an output tensor, with their block scales (R135, R136, R155):
0 or the code of the first failure, and what was counted. -/
def State.writeRowAs (s : State) (ring : Nat) (u : OutRule) (t : Tensor) (tno i1 i2 i3 x0 : Nat) (vs : List Num) :
    State × Nat × OutCount :=
  let row := t.rowNumber i1 i2 i3
  let (es, scales) := u.encodeRow t row x0 vs
  let codes := es.map (·.1)
  let pad := if t.d0 ≤ x0 + vs.length then rowPadded t.fmt t.d0 - t.d0 else 0
  let bs := packElems (fmtBits t.fmt) (codes ++ List.replicate pad 0)
  let n := countEvents (es.map (·.2))
  match s.outWrite ring ⟨false, tno, row * t.d0 + x0, t.pid, t.rowAt i1 i2 i3 + x0 * fmtBits t.fmt / 8, bs⟩ with
  | (s, 0) =>
    if scales.isEmpty then (s, 0, n)
    else
      let (s, c) := s.outWrite ring ⟨true, tno, row * t.blocks + x0 / 32, t.pid, t.scaleAt i1 i2 i3 + x0 / 32,
        scales.map (BitVec.ofNat 8)⟩
      (s, c, n)
  | (s, c) => (s, c, OutCount.zero)

/-- Write with the op's own conversion. -/
def State.writeRow (s : State) (ring : Nat) (e : OpEntry) (t : Tensor) (tno i1 i2 i3 x0 : Nat) (vs : List Num) :
    State × Nat × OutCount := s.writeRowAs ring (e.rule tno) t tno i1 i2 i3 x0 vs

/-- Run a writing action over a list, to the first failure. -/
def writeAll {α : Type} (f : State → α → State × Nat × OutCount) : State → List α → State × Nat × OutCount
  | s, [] => (s, 0, OutCount.zero)
  | s, a :: as =>
    match f s a with
    | (s, 0, n) =>
      let (s, c, m) := writeAll f s as
      (s, c, n.add m)
    | (s, c, n) => (s, c, n)

/-- The row indices of a tensor, dimension 1 fastest. -/
def Tensor.rows (t : Tensor) : List (Nat × Nat × Nat) :=
  ((List.range t.d3).map fun k => ((List.range t.d2).map fun j => (List.range t.d1).map fun i => (i, j, k)).flatten).flatten

/-- The Latigo code of a memory failure (R237): 5 uncorrectable, 6 translation fault, 7 access fault. -/
def latigoCode (c : Nat) : Nat := 4 + c

/-! ### Overlapping outputs (R324, R351) -/

/-- The byte ranges of a tensor: (IOVA, length). -/
def Tensor.ranges (t : Tensor) : List (Nat × Nat) :=
  (if t.mode = 1 then [(t.addr, ceilDiv (t.d0 * t.d1 * fmtBits t.fmt) 8)]
   else t.rows.map fun r => (t.rowAt r.1 r.2.1 r.2.2, rowBytes t.fmt t.d0)) ++
  (if t.scales = 0 then []
   else [(t.baddr, t.blocks * (if t.scales = 2 then ceilDiv t.d1 32 else t.d1) * t.d2 * t.d3)])

/-- The physical ranges that a tensor of ring n's process occupies. -/
def State.physical (s : State) (ring : Nat) (t : Tensor) (isWrite : Bool) : List (Nat × Nat) :=
  t.ranges.flatMap fun x => (piecesOf x.1 x.2).filterMap fun p =>
    match s.translate ring t.pid p.1 isWrite with
    | (_, .ok pa) => some (pa, p.2)
    | _ => none

/-- Do two lists of ranges share a byte. -/
def rangesMeet (a b : List (Nat × Nat)) : Bool :=
  a.any fun x => b.any fun y => decide (x.1 < y.1 + y.2 ∧ y.1 < x.1 + x.2)

/-- Does one of an op's output slots share a byte of memory with one of its input slots. -/
def State.clobbers (s : State) (ring : Nat) (e : OpEntry) (outs ins : List Nat) : Bool :=
  let phys (w : Bool) (ks : List Nat) : List (Nat × Nat) :=
    (ks.filter e.has).flatMap fun k => s.physical ring (e.tensor k) w
  rangesMeet (phys true outs) (phys false ins)

/-- The input slots that R324 holds the host to, of a CONV and a CROP_RESIZE. -/
def OpEntry.keptInputs (e : OpEntry) : List Nat :=
  match e.opcode with
  | 0x11 => [1, 2, 3, 4, 5, 6]
  | 0x40 => [1, 2]
  | _ => []

/-- Did the host change an input of the op in progress after the TAIL write that covers the op (R324). -/
def State.hostChanged (s : State) (r : RunOp) : Bool :=
  let ins := (r.op.keptInputs.filter r.op.has).flatMap fun k => s.physical r.ring (r.op.tensor k) false
  s.ten.hostWrites.any fun h =>
    isAfter (if r.ring = 0 then h.tail0 else h.tail1) r.op.index && rangesMeet [(h.addr, h.len)] ins

/-- Outputs that the spec leaves open: free bytes (log entry 4). -/
def State.spoil (s : State) (ring : Nat) : List OutPart → State
  | [] => s
  | x :: xs =>
    let (k, s) := s.drawNat
    (s.planeWrite ring x.pid x.addr (natToBytes x.bytes.length (k % 2 ^ (8 * x.bytes.length)))).1.spoil ring xs

/-- Output values that the spec leaves open: as many free FP32 values (log entry 4). -/
def State.freeNums (s : State) : List Num → State × List Num
  | [] => (s, [])
  | _ :: vs =>
    let (c, s) := s.drawNat
    let (s, rest) := s.freeNums vs
    (s, f32 (c % 2 ^ 32) :: rest)

/-- The values that an op writes: free ones where the host broke a rule on overlap. -/
def State.unspecifiedIf (s : State) (free : Bool) (vs : List Num) : State × List Num :=
  if free then s.freeNums vs else (s, vs)

/-! ### CRC-32C (R279) -/

/-- One byte into the reflected CRC-32C register. -/
def crc32cByte (c : Nat) (b : Byte) : Nat :=
  (List.range 8).foldl (fun c _ => if c % 2 = 1 then (c / 2) ^^^ 0x82F63B78 else c / 2) (c ^^^ b.toNat)

/-- CRC-32C of some bytes. -/
def crc32c (bs : List Byte) : Nat := (bs.foldl crc32cByte 0xFFFFFFFF) ^^^ 0xFFFFFFFF

/-- Insert a part at its place: elements before scales, then by position. -/
def insertPart (x : OutPart) : List OutPart → List OutPart
  | [] => [x]
  | y :: ys =>
    if (!x.scales && y.scales) || (x.scales == y.scales && decide (x.pos ≤ y.pos)) then x :: y :: ys
    else y :: insertPart x ys

/-- The bytes that the Edge unit put out: elements in row order, then scales (R279). -/
def outputBytes (outs : List OutPart) : List Byte := ((outs.foldr insertPart []).map (·.bytes)).flatten

end Sys2Proof.Machine
end

