-- ==== Sys2Proof/Machine/Latigo.lean ====
section
/-!
DEFINITION. Machine/Latigo.lean: weight windows, entropy decoding, the convolution gather, FETCH, and the LAT_
registers (R201 to R238, R317 to R325, R369).
-/

namespace Sys2Proof.Machine

/-! ### Entropy decoding (R219 to R226) -/

/-- LENGTHS as a list. -/
def codeLengths (v : Nat) : List Nat := (List.range 16).map fun i => bitsOf v (4 * i + 3) (4 * i)

/-- R221: is the table of lengths valid. -/
def lengthsValid (ls : List Nat) : Bool :=
  ls.all (fun l => decide (l ≤ 12)) &&
    (decide (ls.foldl (fun n l => if l = 0 then n else n + 2 ^ (12 - l)) 0 = 2 ^ 12) ||
      decide (ls.filter (fun l => l ≠ 0) = [1]))

/-- The symbols of nonzero length by length, then by value. -/
def symbolOrder (ls : List Nat) : List (Nat × Nat) :=
  ((List.range 13).map fun l =>
    if l = 0 then [] else ((List.range 16).filter fun i => ls.getD i 0 = l).map fun i => (i, l)).flatten

/-- Canonical codes: (symbol, length, code) (R221). -/
def canonicalCodes : List (Nat × Nat) → Nat → Nat → List (Nat × Nat × Nat)
  | [], _, _ => []
  | (y, l) :: rest, next, len =>
    let c := next * 2 ^ (l - len)
    (y, l, c) :: canonicalCodes rest (c + 1) l

/-- The code table of LENGTHS. -/
def codeTable (ls : List Nat) : List (Nat × Nat × Nat) :=
  match symbolOrder ls with
  | [] => []
  | (y, l) :: rest => canonicalCodes ((y, l) :: rest) 0 l

/-- Read one code at bit `pos` of a segment, most significant bit first (R222): the symbol and its length. -/
def readCode (table : List (Nat × Nat × Nat)) (seg pos : Nat) : Nat → Nat → Nat → Option (Nat × Nat)
  | 0, _, _ => none
  | fuel + 1, len, code =>
    let code := 2 * code + b2n (seg.testBit (pos + len))
    match table.find? fun x => x.2.1 = len + 1 && x.2.2 = code with
    | some x => some (x.1, len + 1)
    | none => readCode table seg pos fuel (len + 1) code

/-- Decode up to `count` symbols from bit `pos`: the symbols, and the bit after them where all of them decode. -/
def readSymbols (table : List (Nat × Nat × Nat)) (seg : Nat) : Nat → Nat → List Nat × Option Nat
  | 0, pos => ([], some pos)
  | n + 1, pos =>
    match readCode table seg pos 12 0 0 with
    | none => ([], none)
    | some (y, l) =>
      let (ys, stop) := readSymbols table seg n (pos + l)
      (y :: ys, stop)

/-- Decode one segment of `count` symbols: those that the decoder produced, and whether the segment is valid (R223). -/
def decodeSegment (table : List (Nat × Nat × Nat)) (bs : List Byte) (count : Nat) : List Nat × Bool :=
  let v := bytesToNat bs
  let (ys, stop) := readSymbols table v count 0
  (ys, stop.any fun pos => decide (ceilDiv pos 8 = bs.length ∧ v / 2 ^ pos = 0))

/-- The checks of the header of a coded array (R224). -/
def headerValid (h : List Byte) (fmt total : Nat) : Bool :=
  decide (descWord h 0 = 1 + 256 * fmt) && decide (descWord h 4 = ceilDiv total 4096) &&
    decide (descLong h 8 = total) && ((h.drop 0x18).take 40).all (· = 0)

/-- Do the index entries of a coded array keep their order (R223). -/
def indexValid (ix : List Nat) (segs : Nat) : Bool :=
  decide (0x40 + 4 * (segs + 1) ≤ ix.headD 0) && (List.zip ix ix.tail).all fun p => decide (p.1 ≤ p.2)

/-- A decode failure is counted (R224). -/
def State.decodeFail (s : State) : State := (s.count Reg.latDecErrCount 1).flag Reg.latStatus 5

/-- Fill engine n reads Tier B (R205, R237), counted in LAT_WINn_FILL: the bytes, or the Latigo code of a failure. -/
def State.fillRead (s : State) (n pid a len : Nat) : State × Except Nat (List Byte) :=
  match s.planeReadIn (some .tierB) n pid a len with
  | (s, .error c) => (s, .error (latigoCode c))
  | (s, .ok bs) => (s.bump64 (Reg.latWinFillLo n) len, .ok bs)

/-- The decoder of window n reads coded bytes (R226). -/
def State.codedRead (s : State) (n pid a len : Nat) : State × Except Nat (List Byte) :=
  match s.fillRead n pid a len with
  | (s, .error c) => (s, .error c)
  | (s, .ok bs) =>
    let old := s.get64 Reg.latDecBytesLo
    ((s.bump64 Reg.latDecBytesLo len).tally 0x039 n ((old + len) / 64 - old / 64), .ok bs)

/-- The header and the index of a coded operand are read and checked once (R224); a failure stands for every record that
the op still reads (R215). -/
def State.codedHeader (s : State) (n : Nat) (e : OpEntry) (f : FillOp) : State × FillOp :=
  if f.table.isSome || decide (f.err ≠ 0) then (s, f)
  else
    let t := e.tensor 2
    let segs := ceilDiv e.symbols 4096
    match s.codedRead n t.pid t.addr (0x40 + 4 * (segs + 1)) with
    | (s, .error c) => (s, { f with err := c })
    | (s, .ok h) =>
      let ls := codeLengths (descLong h 0x10)
      let ix := (List.range (segs + 1)).map fun i => descWord h (0x40 + 4 * i)
      let c := if !headerValid h t.fmt e.symbols then 3
        else if !lengthsValid ls then 1
        else if !indexValid ix segs then 2
        else 0
      if c = 0 then (s, { f with table := some (ls, ix) }) else (s.decodeFail, { f with err := c })

/-- Read and decode segment i of a coded operand (R223 to R226). -/
def State.readSegment (s : State) (n : Nat) (e : OpEntry) (f : FillOp) (i : Nat) (ls ix : List Nat) : State × FillOp :=
  let t := e.tensor 2
  match s.codedRead n t.pid (t.addr + ix.getD i 0) (ix.getD (i + 1) 0 - ix.getD i 0) with
  | (s, .error c) => (s, { f with seg := some (i, c, []) })
  | (s, .ok bs) =>
    let (ys, good) := decodeSegment (codeTable ls) bs (min 4096 (e.symbols - 4096 * i))
    let s := s.bump64 Reg.latDecSymbolsLo ys.length
    if good then (s, { f with seg := some (i, 0, ys) }) else (s.decodeFail, { f with seg := some (i, 2, []) })

/-- Segment i of a coded operand: as it was read last, or read now. -/
def State.codedSegment (s : State) (n : Nat) (e : OpEntry) (f : FillOp) (i : Nat) : State × FillOp :=
  match f.table with
  | none => (s, f)
  | some (ls, ix) => if f.seg.any fun x => x.1 = i then (s, f) else s.readSegment n e f i ls ix

/-- Segments i, i + 1, … of a coded operand, in order, to the first failure. -/
def State.codedSegments (n : Nat) (e : OpEntry) : State → FillOp → List Nat → State × FillOp × Except Nat (List Nat)
  | s, f, [] => (s, f, .ok [])
  | s, f, i :: is =>
    let (s, f) := s.codedSegment n e f i
    match f.seg with
    | some (_, 0, ys) =>
      match State.codedSegments n e s f is with
      | (s, f, .ok zs) => (s, f, .ok (ys ++ zs))
      | r => r
    | some (_, c, _) => (s, f, .error c)
    | none => (s, f, .error 2)

/-- Symbols y0 to y0 + k − 1 of a coded operand. -/
def State.codedSymbols (s : State) (n : Nat) (e : OpEntry) (f : FillOp) (y0 k : Nat) :
    State × FillOp × Except Nat (List Nat) :=
  let (s, f) := s.codedHeader n e f
  if f.err ≠ 0 then (s, f, .error f.err)
  else
    let i0 := y0 / 4096
    match State.codedSegments n e s f ((List.range (ceilDiv (y0 + k) 4096 - i0)).map (i0 + ·)) with
    | (s, f, .ok ys) => (s, f, .ok ((ys.drop (y0 - 4096 * i0)).take k))
    | r => r

/-! ### Reading a record (R205, R216, R217, R227) -/

/-- The element bytes of record (j, nt) of a window operand that is not coded. -/
def State.plainElems (s : State) (n : Nat) (e : OpEntry) (j nt : Nat) : State × Except Nat (List Byte) :=
  let t := e.tensor 2
  let w := e.colsOf nt
  let be := e.blockLen j
  if t.transpose then
    let x0 := nt * e.tileCols
    let bits := fmtBits t.fmt
    match readAll (fun s k => s.fillRead n t.pid (t.addr + k * rowBytes t.fmt e.nLen + x0 * bits / 8) (ceilDiv (w * bits) 8)) s
        ((List.range be).map (32 * j + ·)) with
    | (s, .error c) => (s, .error c)
    | (s, .ok rows) =>
      (s, .ok ((transposeRows w 0 (rows.map fun r => codesAt r 0 bits w)).map fun r =>
        packElems bits (r ++ List.replicate (rowPadded t.fmt be - be) 0)).flatten)
  else s.fillRead n t.pid (t.addr + e.symbolsBefore j nt * fmtBits t.fmt / 8) (e.recElems j nt)

/-- The element bytes of record (j, nt), with the Latigo code of a failure. -/
def State.recordElems (s : State) (n : Nat) (e : OpEntry) (f : FillOp) (j nt : Nat) :
    State × FillOp × Except Nat (List Byte) :=
  let t := e.tensor 2
  if t.entropy then
    match s.codedSymbols n e f (e.symbolsBefore j nt) (e.colsOf nt * rowPadded t.fmt (e.blockLen j)) with
    | (s, f, .error c) => (s, f, .error c)
    | (s, f, .ok ys) => (s, f, .ok (packElems 4 ys))
  else
    let (s, got) := s.plainElems n e j nt
    (s, f, got)

/-- The scale bytes of record (j, nt): one for each column, its own (R216) or that of its square (R228, R370). -/
def State.recordScales (s : State) (n : Nat) (e : OpEntry) (j nt : Nat) : State × Except Nat (List Byte) :=
  let t := e.tensor 2
  let w := e.colsOf nt
  let sq := nt * e.tileCols / 32
  if t.scales = 0 then (s, .ok [])
  else if t.scales = 1 then s.fillRead n t.pid (t.baddr + nt * e.tileCols * e.kBlocks + j * w) w
  else
    let at_ (k : Nat) : Nat := t.baddr + (if t.transpose then ceilDiv e.nLen 32 * j + (sq + k) else (sq + k) * e.kBlocks + j)
    match readAll (fun s k => s.fillRead n t.pid (at_ k) 1) s (List.range (ceilDiv w 32)) with
    | (s, .error c) => (s, .error c)
    | (s, .ok bs) => (s, .ok ((List.range w).map fun c => bs.flatten.getD (c / 32) 0))

/-- A whole record. -/
def State.readRecord (s : State) (n : Nat) (e : OpEntry) (f : FillOp) (j nt : Nat) :
    State × FillOp × Except Nat (List Byte) :=
  match s.recordElems n e f j nt with
  | (s, f, .error c) => (s, f, .error c)
  | (s, f, .ok es) =>
    match s.recordScales n e j nt with
    | (s, .error c) => (s, f, .error c)
    | (s, .ok ss) => (s, f, .ok (es ++ ss))

/-! ### The fill engines (R203 to R215) -/

/-- R204: is window n enabled, valid and within one pocket that ring n may write. -/
def State.winReady (s : State) (n : Nat) : Bool :=
  let lo := bankGroup (s.winBase n)
  let hi := bankGroup (s.winBase n + s.slotSize n * s.slotCount n - 1)
  s.bit (Reg.latWinCfg n) 0 && !s.winInvalid n &&
    (match s.pocketOf lo with
     | none => false
     | some p => s.pocketOf hi = some p && s.bit (Reg.canPocketActiveN p) (16 + n % 2))

/-- The address of byte `pos` of the stream in window n, and how far it runs before the window wraps. -/
def State.winAddr (s : State) (n pos : Nat) : Nat × Nat :=
  let size := s.slotSize n * s.slotCount n
  (s.winBase n + pos % size, size - pos % size)

/-- Write bytes of the stream into the window: 0, or the code of a failure. -/
def State.winWrite (s : State) (n pos : Nat) (bs : List Byte) : State × Nat :=
  let (a, room) := s.winAddr n pos
  match s.tensorStore n a (bs.take room) with
  | (s, 0) => s.tensorStore n (s.winBase n) (bs.drop room)
  | r => r

/-- Read bytes of the stream from the window; none where a word is uncorrectable (R67). -/
def State.winRead (s : State) (n pos len : Nat) : State × Option (List Byte) :=
  let (a, room) := s.winAddr n pos
  match s.engineLoad a (min room len) with
  | (s, none) => (s, none)
  | (s, some bs) =>
    let (s, rest) := s.engineLoad (s.winBase n) (len - room)
    (s, rest.map (bs ++ ·))

/-- The last record carries an error and no more bytes (R215). -/
def Window.spoiled (w : Window) (c : Nat) : Window :=
  { w with
    recs := w.recs.dropLast ++ (w.recs.getLast?.map fun r => { r with len := w.wr - r.pos, err := c }).toList
    rest := [] }

/-- The last record's bytes go into the free slots as far as these have room (R206). -/
def State.fillPour (s : State) (n : Nat) : State :=
  let w := s.window n
  let k := min w.rest.length ((w.freed + s.slotCount n) * s.slotSize n - w.wr)
  match s.winWrite n w.wr (w.rest.take k) with
  | (s, 0) => s.putWindow n { w with wr := w.wr + k, rest := w.rest.drop k }
  | (s, c) => s.putWindow n (w.spoiled (latigoCode c))

/-- Fill the next record of an op (R205, R211, R215). -/
def State.fillRecord (s : State) (n : Nat) (e : OpEntry) : State :=
  let w := s.window n
  let f := w.fillOf e.index
  let pass := f.done / e.kBlocks
  let j := f.done % e.kBlocks
  let (nt, again) := (e.passes (s.winCap n)).getD pass (0, none)
  if (w.freed + s.slotCount n) * s.slotSize n ≤ w.wr then s
  else
    let (s, f, got) := s.readRecord n e f j nt
    let (bs, err) : List Byte × Nat := match got with
      | .error c => ([], c)
      | .ok bs => (bs, 0)
    let s := if j = 0 ∧ again.any (fun mt => mt ≠ 0) then
        (s.count (Reg.latWinRestream n) 1).flag Reg.latStatus 7 else s
    (s.putWindow n ({ w with recs := w.recs ++ [(⟨e.index, pass, w.wr, bs.length, err⟩ : WinRec)], rest := bs }.putFill
      { f with done := f.done + 1 })).fillPour n

/-- WINDOW_FILL (R205 to R212). -/
def execWindowFill (n : Nat) (s : State) : Out :=
  .next <|
    if n < 2 ∧ s.winReady n then
      if !(s.window n).rest.isEmpty then s.fillPour n
      else
        match s.fillNext n with
        | some e => s.fillRecord n e
        | none => s
    else s

/-- Records of one pass of an op. -/
def Window.passRecs (w : Window) (i : Word) (pass : Nat) : List WinRec :=
  w.recs.filter fun r => r.op = i ∧ r.pass = pass

/-- The first byte that the feed has still to read for the last time. -/
def Window.low (w : Window) : Nat := w.recs.foldl (fun m r => min m r.pos) w.wr

/-- Where the records of a pass begin and end in the stream. -/
def Window.passSpan (w : Window) (recs : List WinRec) : Nat × Nat :=
  (recs.foldl (fun m x => min m x.pos) w.wr, recs.foldl (fun m x => max m (x.pos + x.len)) 0)

/-- The oldest slot of window n is read to its end for the last time by the current pass of the op in progress (R206,
R211): the first byte that the feed has not taken along yet; or none where the slot must stay. -/
def State.slotTake (s : State) (n : Nat) : Option (Option Nat) :=
  let w := s.window n
  let top := (w.freed + 1) * s.slotSize n
  if w.wr < top then none
  else if top ≤ w.low then some none
  else
    match s.ten.run with
    | none => none
    | some r =>
      let cap := s.winCap n
      let (start, stop) := w.passSpan (w.passRecs r.op.index (r.op.passOf cap r.passes))
      if r.ring = n && r.golden.isNone && r.op.usesWindow && !r.finished && !r.held &&
          !r.op.keepsPass cap r.passes && start = w.low && decide (top ≤ stop) then some (some (start + r.fed.length))
      else none

/-- WINDOW_SLOT_FREE (R206): what the pass still needs of the slot is read from it first. -/
def execWindowSlotFree (n : Nat) (s : State) : Out :=
  .next <|
    if 2 ≤ n then s
    else
      match s.slotTake n with
      | none => s
      | some taken =>
        let w := s.window n
        let top := (w.freed + 1) * s.slotSize n
        let s := s.putWindow n { w with freed := w.freed + 1, rd := max w.rd top }
        match taken with
        | none => s
        | some from_ =>
          match s.winRead n from_ (top - from_) with
          | (s, some bs) => s.onRun fun r => { r with fed := r.fed ++ bs }
          | (s, none) => s.runFail 2 5

/-- The record bytes of the current pass of the op in progress: none while some are missing (R207); the Latigo code of
the first record with an error (R215), or of an uncorrectable word in the window (R237). -/
def State.passBytes (s : State) (r : RunOp) : Option (State × Except Nat (List Byte)) :=
  let w := s.window r.ring
  let recs := w.passRecs r.op.index (r.op.passOf (s.winCap r.ring) r.passes)
  match recs.find? fun x => x.err ≠ 0 with
  | some x => some (s, .error x.err)
  | none =>
    let (start, stop) := w.passSpan recs
    if recs.length < r.op.kBlocks ∨ w.wr < stop then none
    else
      match s.winRead r.ring (start + r.fed.length) (stop - start - r.fed.length) with
      | (s, some bs) => some (s, .ok (r.fed ++ bs))
      | (s, none) => some (s, .error 5)

/-- After a pass: first reads move on; records read for the last time leave (R206). -/
def State.passRead (s : State) (r : RunOp) : State :=
  let w := s.window r.ring
  let cap := s.winCap r.ring
  let p := r.op.passOf cap r.passes
  let stop := (w.passRecs r.op.index p).foldl (fun m x => max m (x.pos + x.len)) 0
  let recs := if r.op.keepsPass cap r.passes then w.recs
    else w.recs.filter fun x => ¬ (x.op = r.op.index ∧ x.pass = p)
  s.putWindow r.ring { w with recs := recs, rd := max w.rd stop }

/-- The lines of an N-tile from the bytes of its records (R217, R218). -/
def OpEntry.recordLines (e : OpEntry) (nt : Nat) (bs : List Byte) : List Line :=
  let t := e.tensor 2
  let off (j : Nat) : Nat := (List.range j).foldl (fun n i => n + e.recLen i nt) 0
  (List.range (e.colsOf nt)).map fun c =>
    ⟨((List.range e.kBlocks).map fun j =>
        codesAt ((bs.drop (off j + c * rowBytes t.fmt (e.blockLen j))).take (rowBytes t.fmt (e.blockLen j))) 0
          (fmtBits t.fmt) (e.blockLen j)).flatten,
      (List.range e.kBlocks).map fun j =>
        if t.scales = 0 then none else some (bs.getD (off j + e.recElems j nt + c) 0).toNat⟩

/-! ### The gather of a convolution (R230 to R232, R317 to R323) -/

/-- The geometry in bytes 0x5C to 0x6B. -/
structure ConvGeo where
  kh : Nat
  kw : Nat
  sh : Nat
  sw : Nat
  dh : Nat
  dw : Nat
  padT : Nat
  padB : Nat
  padL : Nat
  padR : Nat
  padCode : Nat
  outH : Nat
  outW : Nat
  deriving DecidableEq, Repr

/-- Decode it. -/
def OpEntry.geo (e : OpEntry) : ConvGeo where
  kh := descField e.desc 0x5C 7 0
  kw := descField e.desc 0x5C 15 8
  sh := descField e.desc 0x5C 19 16
  sw := descField e.desc 0x5C 23 20
  dh := descField e.desc 0x5C 27 24
  dw := descField e.desc 0x5C 31 28
  padT := descField e.desc 0x60 7 0
  padB := descField e.desc 0x60 15 8
  padL := descField e.desc 0x60 23 16
  padR := descField e.desc 0x60 31 24
  padCode := descWord e.desc 0x64
  outH := descField e.desc 0x68 15 0
  outW := descField e.desc 0x68 31 16

/-- The input position of a window tap, or none outside the map (R317). -/
def ConvGeo.tap (g : ConvGeo) (t : Tensor) (oy ox kh kw : Nat) : Option (Nat × Nat) :=
  let iy : Int := oy * g.sh - g.padT + kh * g.dh
  let ix : Int := ox * g.sw - g.padL + kw * g.dw
  if 0 ≤ iy ∧ iy < t.d2 ∧ 0 ≤ ix ∧ ix < t.d1 then some (iy.toNat, ix.toNat) else none

/-- All taps (kh, kw), kw fastest. -/
def ConvGeo.taps (g : ConvGeo) : List (Nat × Nat) :=
  ((List.range g.kh).map fun y => (List.range g.kw).map fun x => (y, x)).flatten

/-- Read the channels at one tap of output pixel m; outside the map they are pad elements with scale code 127. The pad
elements are counted (R323). -/
def State.gatherTap (s : State) (ring : Nat) (t : Tensor) (g : ConvGeo) (m : Nat) (k : Nat × Nat) :
    State × Except Nat Line :=
  match g.tap t (m / g.outW % g.outH) (m % g.outW) k.1 k.2 with
  | none =>
    (s.bump64 Reg.visPadElemLo t.d0, .ok ⟨List.replicate t.d0 g.padCode,
      List.replicate t.blocks (if t.scales = 0 then none else some 127)⟩)
  | some (iy, ix) => s.readLine ring (t.from_ .tierA) ix iy (m / (g.outW * g.outH))

/-- The M-side line of output pixel m (R230). -/
def State.gatherLine (s : State) (ring : Nat) (t : Tensor) (g : ConvGeo) (m : Nat) : State × Except Nat Line :=
  match readAll (fun s k => s.gatherTap ring t g m k) s g.taps with
  | (s, .error e) => (s, .error e)
  | (s, .ok ls) => (s, .ok ⟨(ls.map (·.codes)).flatten, (ls.map (·.scales)).flatten⟩)

/-! ### FETCH (R233, R325, R369) -/

/-- The source line of row (i1, i2, i3) of the destination, as codes with scales. -/
def State.fetchLine (s : State) (ring : Nat) (e : OpEntry) (dst src : Tensor) (r : Nat × Nat × Nat) :
    State × Except Nat Line :=
  match descField e.desc 0x40 1 0 with
  | 2 => s.gatherLine ring src e.geo (dst.rowNumber r.1 r.2.1 r.2.2)
  | 1 => s.readLine ring { src with transpose := !src.transpose } r.1 r.2.1 r.2.2
  | _ => s.readLine ring src r.1 r.2.1 r.2.2

/-- Values of a line, exactly. -/
def Line.values (l : Line) (fmt : Nat) : List Num :=
  (List.range l.codes.length).map fun i => scaledValue fmt (l.codes.getD i 0) (l.scales.getD (i / 32) none)

/-- A code as a FETCH copies it: a NaN code becomes the canonical one (R133). -/
def canonicalCode (fmt c : Nat) : Nat :=
  match fmtOf fmt with
  | some (.float f) => if f.decode c = .nan then f.nanCode else c
  | _ => c

/-- Copy a line's codes and scales, where source and destination have one format and the same scales. -/
def State.writeLine (s : State) (ring : Nat) (t : Tensor) (r : Nat × Nat × Nat) (l : Line) : State × Nat :=
  let bs := packElems (fmtBits t.fmt) (l.codes.map (canonicalCode t.fmt) ++ List.replicate (rowPadded t.fmt t.d0 - t.d0) 0)
  match s.planeWrite ring t.pid (t.rowAt r.1 r.2.1 r.2.2) bs with
  | (s, 0) =>
    if t.scales = 0 then (s, 0)
    else s.planeWrite ring t.pid (t.scaleAt r.1 r.2.1 r.2.2) (l.scales.map fun c => BitVec.ofNat 8 (c.getD 127))
  | (s, c) => (s, c)

/-- The conversion of a FETCH: between FP32 and a fixed-point format it rounds to nearest even (R160), else by the op. -/
def OpEntry.fetchRule (e : OpEntry) (dst src : Tensor) : OutRule :=
  let isQ (f : Nat) : Bool := decide (f = 0xA ∨ f = 0xB)
  if (isQ dst.fmt && decide (src.fmt = 0)) || (decide (dst.fmt = 0) && isQ src.fmt) then ⟨fun _ => .nearest, e.saturates⟩
  else e.rule 0

/-- Does a FETCH copy codes: one format, and no scales or the same one-per-32 scales without a transform. -/
def fetchRaw (e : OpEntry) (dst src : Tensor) : Bool :=
  decide (dst.fmt = src.fmt ∧ dst.scales = src.scales) &&
    (decide (dst.scales = 0) || decide (dst.scales = 1 ∧ descField e.desc 0x40 1 0 ≠ 1))

/-- One destination row of a FETCH. -/
def State.fetchRow (s : State) (ring : Nat) (e : OpEntry) (dst src : Tensor) (r : Nat × Nat × Nat) :
    State × Nat × OutCount :=
  match s.fetchLine ring e dst src r with
  | (s, .error c) => (s, c, OutCount.zero)
  | (s, .ok l) =>
    if fetchRaw e dst src then
      let (s, c) := s.writeLine ring dst r l
      (s, c, OutCount.zero)
    else s.writeRowAs ring (e.fetchRule dst src) dst 0 r.1 r.2.1 r.2.2 0 (l.values src.fmt)

/-- The rows of one band of 32 of a square-scaled destination. -/
def State.fetchBand (s : State) (ring : Nat) (e : OpEntry) (dst src : Tensor) (b : Nat × Nat × Nat) :
    State × Nat × OutCount :=
  let rows := (List.range (min 32 (dst.d1 - 32 * b.1))).map fun i => (32 * b.1 + i, b.2.1, b.2.2)
  match readAll (fun s r => s.fetchLine ring e dst src r) s rows with
  | (s, .error c) => (s, c, OutCount.zero)
  | (s, .ok ls) =>
    let vals := ls.map fun l => l.values src.fmt
    let scales := (List.range dst.blocks).map fun k =>
      blockScale dst.fmt ((vals.map fun v => (v.drop (32 * k)).take 32).flatten)
    let codeRow (r : Nat × Nat × Nat) (v : List Num) : List Nat :=
      ((List.range dst.blocks).map fun k =>
        (blockEncode dst.fmt (scales.getD k 127) ((List.range (min 32 (dst.d0 - 32 * k))).map fun i =>
          (v.getD (32 * k + i) .nan,
            e.rounding 0 (dst.rowNumber r.1 r.2.1 r.2.2 * dst.d0 + 32 * k + i)))).map (·.1)).flatten
    let (s, c, _) := writeAll (fun s (p : (Nat × Nat × Nat) × List Num) =>
      let (s, c) := s.writeLine ring { dst with scales := 0 } p.1 ⟨codeRow p.1 p.2, []⟩
      (s, c, OutCount.zero)) s (List.zip rows vals)
    if c ≠ 0 then (s, c, OutCount.zero)
    else
      let (s, c) := s.planeWrite ring dst.pid (dst.scaleAt (32 * b.1) b.2.1 b.2.2) (scales.map (BitVec.ofNat 8))
      (s, c, OutCount.zero)

/-- A FETCH op runs (R233, R369). -/
def State.fetchRun (s : State) (e : OpEntry) (ring : Nat) : State :=
  let s := s.flag Reg.latStatus 2
  let dst := e.tensor 0
  let src := e.tensor 1
  let (s, c, _) :=
    if dst.scales = 2 then
      writeAll (fun s b => s.fetchBand ring e dst src b) s ({ dst with d1 := ceilDiv dst.d1 32 }).rows
    else writeAll (fun s r => s.fetchRow ring e dst src r) s dst.rows
  if c = 0 then s.runDone else s.runFail 2 (latigoCode c)

/-- FETCH (R233). -/
def execFetch (ring : Nat) (s : State) : Out := .next <| s.issue ring 0x50 fun s e => s.fetchRun e ring

/-! ### Registers (R213, R238) -/

/-- LAT_WINn_BASE or LAT_WINn_CFG (R213): accepted while the window is empty, which then starts at its slot 0. -/
def State.winCfgWrite (s : State) (n a : Nat) (v : Word) : State :=
  if s.bit (Reg.latWinStatus n) 0 then (s.putRw a v).putWindow n .idle else s.flag (Reg.latWinStatus n) 1

/-- LAT_CTRL (R238): ENABLE = 0 drains Latigo; once it is DRAINED, the records of queued ops are gone. -/
def State.latCtrlWrite (s : State) (v : Word) : State :=
  let s := s.unitEnable Reg.latCtrl 2 v
  if s.unitDrained 2 && decide (s.fget Reg.latStatus 1 0 = 3) then s.dropWindows else (s.syncWindow 0).syncWindow 1

/-- The write rule of the LAT_ block. -/
def State.latWrite (s : State) (o : Nat) (v : Word) : State :=
  if o = 4 then s.latCtrlWrite v
  else if o = 0x860 then s.stallClrWrite (stallBase .lat) v
  else if 0x100 ≤ o ∧ o < 0x140 ∧ o % 0x20 < 8 then s.winCfgWrite ((o - 0x100) / 0x20) (0x10310000 + o) v
  else s.putTyped (0x10310000 + o) v 0

/-- LAT_WIN_CFG_WRITE (R213): BASE, or CFG. -/
def execLatWinCfgWrite (who : Initiator) (n : Nat) (base : Bool) (value : Word) (s : State) : Out :=
  let a := if base then Reg.latWinBase n else Reg.latWinCfg n
  s.named (decide (n < 2)) <| s.softWrite who a value fun s v => s.winCfgWrite n a v

/-- LAT_WIN_RATE_WRITE (R213). -/
def execLatWinRateWrite (who : Initiator) (n : Nat) (value : Word) (s : State) : Out :=
  s.named (decide (n < 2)) <| s.softWrite who (Reg.latWinRate n) value fun s v => s.putRw (Reg.latWinRate n) v

/-- LATIGO_DISABLE (R238). -/
def execLatigoDisable (who : Initiator) (s : State) : Out :=
  .next (s.softWrite who Reg.latCtrl 0 fun s v => s.latCtrlWrite v)

/-- LATIGO_ENABLE (R238). -/
def execLatigoEnable (who : Initiator) (s : State) : Out :=
  .next (s.softWrite who Reg.latCtrl 1 fun s v => s.latCtrlWrite v)

end Sys2Proof.Machine
end

