-- ==== Sys2Proof/Machine/Reel.lean ====
section
/-!
DEFINITION. Machine/Reel.lean: the fused stage, ELTWISE, REEL_SCAN with its streams, and the REL_ registers
(R339 to R366).
-/

namespace Sys2Proof.Machine

/-- A Reel function (R340). -/
def reelValue (code x : Nat) : Nat := fnValue code 0 0 x

/-- The larger and the smaller of two FP32 values, with −0 below +0 (R348). -/
def fmaxR (a b : Nat) : Nat :=
  if fIsNan a || fIsNan b then fNan
  else if flt a b then b
  else if flt b a then a
  else if a = 0x80000000 then b else a

def fminR (a b : Nat) : Nat :=
  if fIsNan a || fIsNan b then fNan
  else if flt a b then a
  else if flt b a then b
  else if a = 0x80000000 then a else b

/-- NaNs that Reel produced and saturating conversions of its outputs are counted. -/
def State.reelCount (s : State) (nans sats : Nat) : State :=
  let s := if nans = 0 then s else (s.count Reg.relNanOutCount nans).flag Reg.relStatus 7
  s.count Reg.relSatCount sats

/-- How many results are NaN although none of their inputs is. -/
def newNans (outs : List Nat) (tainted : List Bool) : Nat :=
  (List.zip outs tainted).foldl (fun n p => if fIsNan p.1 && !p.2 then n + 1 else n) 0

/-! ### The fused stage (R342 to R346) -/

def OpEntry.form (e : OpEntry) : Nat := descField e.desc 0x70 3 0
def OpEntry.formFn (e : OpEntry) : Nat := descField e.desc 0x70 7 4

/-- The columns that a form takes for one result (R343). -/
def formGroup (form : Nat) : Nat := if form = 4 then 2 else if form = 5 ∨ form = 6 then 4 else 1

/-- The group of an op's output. -/
def OpEntry.group (e : OpEntry) : Nat := if e.reelEn then formGroup e.form else 1

/-- The result and, for LSTM, c_new, from a group of columns and the element of slot 6 (R343). -/
def fusedCell (form fn : Nat) (x : List Nat) (a : Nat) : Nat × Nat :=
  let x0 := x.getD 0 0
  let x1 := x.getD 1 0
  let x2 := x.getD 2 0
  let x3 := x.getD 3 0
  match form with
  | 0 => (reelValue fn x0, 0)
  | 1 => (fadd (reelValue fn x0) a, 0)
  | 2 => (reelValue fn (fadd x0 a), 0)
  | 3 => (fmul (reelValue fn x0) a, 0)
  | 4 => (fmul (reelValue fn x0) x1, 0)
  | 5 =>
    let c := fadd (fmul (reelValue 4 x1) a) (fmul (reelValue 4 x0) (reelValue 5 x2))
    (fmul (reelValue 4 x3) (reelValue 5 c), c)
  | _ =>
    let n := reelValue 5 (fadd x2 (fmul (reelValue 4 x0) x3))
    let z := reelValue 4 x1
    (fadd (fmul (fsub fOne z) n) (fmul z a), 0)

/-- The elements of slot 6 for a part of an output row; a rank 1 slot serves every row (R344). -/
def State.fusedInput (s : State) (ring : Nat) (e : OpEntry) (r : Nat × Nat × Nat) (x0 n : Nat) :
    State × Except Nat (List Nat) :=
  if !e.has 6 then (s, .ok (List.replicate n 0))
  else s.readInput ring e 6 (if (e.tensor 6).rank = 1 then (0, 0, 0) else r) x0 n

/-- Write a part of an output row of op `e`, and count. -/
def State.fusedWrite (s : State) (ring : Nat) (e : OpEntry) (k tno : Nat) (r : Nat × Nat × Nat) (x0 : Nat) (free : Bool)
    (vs : List Nat) : State × Nat :=
  let (s, nums) := s.unspecifiedIf free (vs.map f32)
  let (s, c, n) := s.writeRow ring e (e.tensor k) tno r.1 r.2.1 r.2.2 x0 nums
  (s.reelCount n.nanMade n.sat, c)

/-- The fused stage on a part of a drained row, from column c0 on: 0 or the code of the first failure (R343 to
R345). -/
def State.fusedRow (s : State) (ring : Nat) (e : OpEntry) (r : Nat × Nat × Nat) (c0 : Nat) (free : Bool)
    (vs : List Nat) : State × Nat :=
  let g := e.group
  let cells := chunksOf g (vs.length + 1) vs
  match s.fusedInput ring e r (c0 / g) cells.length with
  | (s, .error c) => (s, c)
  | (s, .ok as) =>
    let outs := List.zipWith (fun x a => fusedCell e.form e.formFn x a) cells as
    let tainted := List.zipWith (fun x a => x.any fIsNan || (e.has 6 && fIsNan a)) cells as
    let s := s.reelCount (newNans (outs.map (·.1)) tainted) 0
    match s.fusedWrite ring e 0 0 r (c0 / g) free (outs.map (·.1)) with
    | (s, 0) =>
      if e.form = 5 then
        (s.reelCount (newNans (outs.map (·.2)) tainted) 0).fusedWrite ring e 7 1 r (c0 / g) free (outs.map (·.2))
      else (s, 0)
    | (s, c) => (s, c)

/-! ### ELTWISE (R347 to R351) -/

/-- The operation of R348. -/
def eltOp (op a b c : Nat) : Nat :=
  match op with
  | 1 => fadd a b
  | 2 => fsub a b
  | 3 => fmul a b
  | 4 => ffma a b c
  | 5 => fmaxR a b
  | 6 => fminR a b
  | 7 => fmul (fmul a b) c
  | _ => a

/-- ELTWISE operations that take c. -/
def eltUsesC (op : Nat) : Bool := op = 4 || op = 7

def OpEntry.reduce (e : OpEntry) : Nat := descField e.desc 0x40 13 12
def OpEntry.eltOpc (e : OpEntry) : Nat := descField e.desc 0x40 2 0

/-- The length of a row of z (R349). -/
def OpEntry.eltLen (e : OpEntry) : Nat :=
  if e.reduce = 0 then (e.tensor 0).d0
  else [1, 2, 3].foldl (fun n k => if e.has k then max n (e.tensor k).logical.d0 else n) 0

/-- An input of a row of z: extents of 1 repeat; an absent slot has one value (R347, R349). -/
def State.eltInput (s : State) (ring : Nat) (e : OpEntry) (k p : Nat) (r : Nat × Nat × Nat) :
    State × Except Nat (List Nat) :=
  if !e.has k then (s, .ok (List.replicate e.eltLen (toF32 (f32 p))))
  else
    let t := (e.tensor k).logical
    let at_ (d i : Nat) : Nat := if d = 1 then 0 else i
    match s.readInputRow ring e k (at_ t.d1 r.1, at_ t.d2 r.2.1, at_ t.d3 r.2.2) with
    | (s, .error c) => (s, .error c)
    | (s, .ok vs) => (s, .ok (if t.d0 = 1 then List.replicate e.eltLen (vs.headD 0) else vs))

/-- The three inputs of a row of z. -/
def State.eltInputs (s : State) (ring : Nat) (e : OpEntry) (r : Nat × Nat × Nat) :
    State × Except Nat (List Nat × List Nat × List Nat) :=
  match s.eltInput ring e 1 0 r with
  | (s, .error c) => (s, .error c)
  | (s, .ok as) =>
    match s.eltInput ring e 2 (descWord e.desc 0x44) r with
    | (s, .error c) => (s, .error c)
    | (s, .ok bs) =>
      match s.eltInput ring e 3 (descWord e.desc 0x48) r with
      | (s, .error c) => (s, .error c)
      | (s, .ok cs) => (s, .ok (as, bs, cs))

/-- A reduction of a row of z (R350): sums by chunks of 512 and the canonical tree. -/
def reduceRow (how : Nat) (z : List Nat) : Nat :=
  match how with
  | 3 => z.foldl fmaxR fNegInf
  | _ =>
    let term (acc v : Nat) : Nat := if how = 2 then ffma v v acc else fadd acc v
    let ps := (chunksOf 512 (z.length + 1) z).map fun c => c.foldl term 0
    mergeTree fadd (ps.length + 1) ps

/-- The output elements of one row, and how many are NaN from inputs that hold none (R348, R350). -/
def OpEntry.eltOut (e : OpEntry) (as bs cs : List Nat) : List Nat × Nat :=
  let pre := descField e.desc 0x40 7 4
  let post := descField e.desc 0x40 11 8
  let z := (List.range as.length).map fun i =>
    eltOp e.eltOpc (reelValue pre (as.getD i 0)) (bs.getD i 0) (cs.getD i 0)
  let taint := (List.range as.length).map fun i =>
    fIsNan (as.getD i 0) || (decide (e.eltOpc ≠ 0) && fIsNan (bs.getD i 0)) || (eltUsesC e.eltOpc && fIsNan (cs.getD i 0))
  if e.reduce = 0 then
    let out := z.map (reelValue post)
    (out, newNans out taint)
  else
    let out := [reelValue post (ffma (reduceRow e.reduce z) (descWord e.desc 0x4C) (descWord e.desc 0x50))]
    (out, newNans out [taint.any id])

/-- Does the output lie exactly on input k: ADDR, BSCALE_ADDR, format, shape and strides (R351) in one process. -/
def OpEntry.coincides (e : OpEntry) (k : Nat) : Bool :=
  let key (t : Tensor) : List Nat := [t.pid, t.addr, t.baddr, t.fmt, t.scales, t.d0, t.d1, t.d2, t.d3, t.s1, t.s2, t.s3]
  key (e.tensor k) == key (e.tensor 0) && !(e.tensor k).transpose

/-- Does the output overlap an input in a way that R351 does not allow. -/
def State.eltClash (s : State) (ring : Nat) (e : OpEntry) : Bool :=
  s.clobbers ring e [0] ([1, 2, 3].filter fun k => !e.coincides k)

/-- One output row of an ELTWISE op. -/
def State.eltRow (s : State) (ring : Nat) (e : OpEntry) (r : Nat × Nat × Nat) : State × Nat × OutCount :=
  match s.eltInputs ring e r with
  | (s, .error c) => (s, c, OutCount.zero)
  | (s, .ok (as, bs, cs)) =>
    let (out, nans) := e.eltOut as bs cs
    let (s, nums) := s.unspecifiedIf (s.eltClash ring e) (out.map f32)
    let (s, c, n) := s.writeRow ring e (e.tensor 0) 0 r.1 r.2.1 r.2.2 0 nums
    (s.reelCount (nans + n.nanMade) n.sat, c, n)

/-- An ELTWISE op runs. -/
def State.eltRun (s : State) (e : OpEntry) (ring : Nat) : State :=
  let (s, c, _) := writeAll (fun s r => s.eltRow ring e r) s (e.tensor 0).rows
  if c = 0 then s.runDone else s.runFail 4 c

/-- ELTWISE (R347). -/
def execEltwise (ring : Nat) (s : State) : Out := .next <| s.issue ring 0x31 fun s e => s.eltRun e ring

/-! ### REEL_SCAN (R353 to R361) -/

def OpEntry.stream (e : OpEntry) : Nat := descField e.desc 0x40 7 0
def OpEntry.scanT (e : OpEntry) : Nat := descWord e.desc 0x44
def OpEntry.scanW (e : OpEntry) : Nat := descWord e.desc 0x48
def OpEntry.scanNs (e : OpEntry) : Nat := descField e.desc 0x4C 6 0
def OpEntry.contract (e : OpEntry) : Bool := descField e.desc 0x40 10 10 = 1

/-- One level of the chunk tree over (A, U), distance d (R358). -/
def scanLevel (au : List (Nat × Nat)) (d : Nat) : List (Nat × Nat) :=
  (List.range au.length).map fun j =>
    let x := au.getD j (0, 0)
    if j < d then x
    else
      let y := au.getD (j - d) (0, 0)
      (fmul x.1 y.1, ffma x.1 y.2 x.2)

/-- The outputs of one chunk of up to 64 tokens from the state h. -/
def scanChunk (h : Nat) (au : List (Nat × Nat)) : List Nat :=
  ([1, 2, 4, 8, 16, 32].foldl scanLevel au).map fun x => ffma x.1 h x.2

/-- The outputs of one state element over all tokens, chunk after chunk. -/
def scanElem (h : Nat) : List (List (Nat × Nat)) → List Nat
  | [] => []
  | c :: cs =>
    let hs := scanChunk h c
    hs ++ scanElem (hs.getLastD h) cs

/-- Which outputs of a state element have a NaN among the inputs that reach them. -/
def scanTaint (h : Nat) (au : List (Nat × Nat)) : List Bool :=
  (List.range au.length).map fun t => fIsNan h || (au.take (t + 1)).any fun x => fIsNan x.1 || fIsNan x.2

/-- The output elements of token t, with their taint (R360). -/
def OpEntry.scanOut (e : OpEntry) (hs : List (List Nat)) (ts : List (List Bool)) (q : List Nat) (t : Nat) :
    List (Nat × Bool) :=
  let h (w : Nat) : Nat := (hs.getD w []).getD t 0
  let b (w : Nat) : Bool := (ts.getD w []).getD t false
  if e.contract then
    (List.range (e.scanW / e.scanNs)).map fun cw =>
      ((List.range e.scanNs).foldl (fun acc n => ffma (q.getD n 0) (h (cw * e.scanNs + n)) acc) 0,
        (List.range e.scanNs).any fun n => fIsNan (q.getD n 0) || b (cw * e.scanNs + n))
  else (List.range e.scanW).map fun w => (h w, b w)

/-- The address of stream i's state (R353). -/
def State.streamAt (s : State) (i : Nat) : Nat := tierABase + 64 * s.fget (Reg.relStrAddr i) 27 6

/-- Why a scan may not start (R354): 0 when it may. -/
def State.scanRefuse (s : State) (ring : Nat) (e : OpEntry) : Nat :=
  let a := Reg.relStrCfg e.stream
  let lo := s.streamAt e.stream
  let hi := lo + 4 * e.scanW - 1
  if !s.bit a 16 || s.bit a 17 || decide (s.fget a 15 0 + 1 ≠ e.scanW) then 4
  else if regionOf hi ≠ .tierA then 5
  else
    match s.pocketOf (bankGroup lo) with
    | none => 5
    | some p => if s.pocketOf (bankGroup hi) = some p ∧ s.bit (Reg.canPocketActiveN p) (16 + ring % 2) then 0 else 5

/-- Read all tokens of slot k. -/
def State.scanSlot (s : State) (ring : Nat) (e : OpEntry) (k : Nat) : State × Except Nat (List (List Nat)) :=
  if e.has k then readAll (fun s t => s.readInputRow ring e k (t, 0, 0)) s (List.range e.scanT) else (s, .ok [])

/-- The stream's state before the op, or zeros (R356). -/
def State.scanState (s : State) (e : OpEntry) (fresh : Bool) : State × Except Nat (List Nat) :=
  if fresh then (s, .ok (List.replicate e.scanW 0))
  else
    match s.engineLoad (s.streamAt e.stream) (4 * e.scanW) with
    | (s, none) => (s, .error 1)
    | (s, some bs) => (s, .ok ((codesAt bs 0 32 e.scanW).map fun c => toF32 (f32 c)))

/-- Read slots 1, 2 and 3. -/
def State.scanInputs (s : State) (ring : Nat) (e : OpEntry) :
    State × Except Nat (List (List Nat) × List (List Nat) × List (List Nat)) :=
  match s.scanSlot ring e 1 with
  | (s, .error c) => (s, .error c)
  | (s, .ok as) =>
    match s.scanSlot ring e 2 with
    | (s, .error c) => (s, .error c)
    | (s, .ok us) =>
      match s.scanSlot ring e 3 with
      | (s, .error c) => (s, .error c)
      | (s, .ok qs) => (s, .ok (as, us, qs))

/-- The recurrence, and the outputs written; the new state waits in the run for the op's end (R357, R358). -/
def State.scanBody (s : State) (ring : Nat) (e : OpEntry) (h : List Nat) (as us qs : List (List Nat)) : State :=
  let decay (x : Nat) : Nat := if descField e.desc 0x40 9 9 = 1 then reelValue 9 x else x
  let elem (w : Nat) : List (Nat × Nat) := List.zipWith (fun a u => (decay (a.getD w 0), u.getD w 0)) as us
  let hs := (List.range e.scanW).map fun w => scanElem (h.getD w 0) (chunksOf 64 (e.scanT + 1) (elem w))
  let ts := (List.range e.scanW).map fun w => scanTaint (h.getD w 0) (elem w)
  let (s, c, _) := writeAll (fun s t =>
    let out := e.scanOut hs ts (qs.getD t []) t
    let (s, c, n) := s.writeRow ring e (e.tensor 0) 0 t 0 0 0 (out.map fun o => f32 o.1)
    (s.reelCount (newNans (out.map (·.1)) (out.map (·.2)) + n.nanMade) n.sat, c, n)) s (List.range e.scanT)
  if c ≠ 0 then s.runFail 4 c
  else
    s.onRun fun r => { r with finished := true, fed := (hs.map fun x => natToBytes 4 (x.getLastD 0)).flatten }

/-- A REEL_SCAN op starts (R354, R356). -/
def State.scanRun (s : State) (e : OpEntry) (ring : Nat) : State :=
  match s.scanRefuse ring e with
  | 0 =>
    let a := Reg.relStrCfg e.stream
    let fresh := s.bit a 18 || decide (descField e.desc 0x40 8 8 = 1)
    let s := s.flag a 19
    let s := if fresh then
        (((s.bput a 18 false).bput a 21 false).rset (Reg.relStrPos e.stream) 0).count Reg.relResetCount 1
      else s
    match s.scanState e fresh with
    | (s, .error c) => s.runFail 4 c
    | (s, .ok h) =>
      match s.scanInputs ring e with
      | (s, .error c) => s.runFail 4 c
      | (s, .ok (as, us, qs)) => s.scanBody ring e h as us qs
  | c => s.runFail 4 c

/-- REEL_SCAN (R354, R358). -/
def execReelScan (ring : Nat) (s : State) : Out := .next <| s.issue ring 0x30 fun s e => s.scanRun e ring

/-- The end of a REEL_SCAN op before its signals (R357): the state is written back and POS moves, unless the op ends
with an error. The run's code afterwards: a write that fails gives 1 where bad data stands in a word (R38), else 3
(R365). -/
def State.scanEnd (s : State) (r : RunOp) : State × RunOp :=
  let a := Reg.relStrCfg r.op.stream
  let s := s.bput a 19 false
  if r.code ≠ 0 ∨ (s.stageOp r.ring r.op 0).2 ≠ 0 then (s, r)
  else
    match s.tensorStore r.ring (s.streamAt r.op.stream) r.fed with
    | (t, 0) =>
      ((t.bput a 21 ((codesAt r.fed 0 32 r.op.scanW).any fIsNan)).bump (Reg.relStrPos r.op.stream) r.op.scanT |>.tally
        0x061 64 r.op.scanT, r)
    | (t, c) => (t, { r with code := 0x21, unit := 4, ucode := c })

/-! ### Registers (R355, R366) -/

/-- REL_STRi_CFG (R353, R355). -/
def State.streamCfgWrite (s : State) (i : Nat) (v : Word) : State :=
  let a := Reg.relStrCfg i
  let old := s.rget a
  if bitOf old 19 then
    let kept := withField (withField v 15 0 (fieldOf old 15 0)) 16 16 (fieldOf old 16 16)
    let t := s.putTyped a kept 0
    if kept = v then t else t.flag Reg.relStatus 6
  else
    let t := s.putTyped a v 0
    if !bitOf old 16 && bitOf v 16 then t.rset (Reg.relStrPos i) 0 else t

/-- REL_STRi_ADDR (R355). -/
def State.streamAddrWrite (s : State) (i : Nat) (v : Word) : State :=
  if s.bit (Reg.relStrCfg i) 19 then s.flag Reg.relStatus 6 else s.putRw (Reg.relStrAddr i) v

/-- The write rule of the REL_ block. -/
def State.relWrite (s : State) (o : Nat) (v : Word) : State :=
  if o = 4 then s.unitEnable Reg.relCtrl 4 v
  else if 0x1000 ≤ o ∧ o < 0x2000 ∧ o % 0x10 = 0 then s.streamCfgWrite ((o - 0x1000) / 0x10) v
  else if 0x1000 ≤ o ∧ o < 0x2000 ∧ o % 0x10 = 4 then s.streamAddrWrite ((o - 0x1000) / 0x10) v
  else s.putTyped (0x10340000 + o) v 0

/-- STREAM_CFG_WRITE (R355): CFG, or ADDR. -/
def execStreamCfgWrite (who : Initiator) (i : Nat) (addr : Bool) (value : Word) (s : State) : Out :=
  s.named (decide (i < 256)) <|
    if addr then s.softWrite who (Reg.relStrAddr i) value fun s v => s.streamAddrWrite i v
    else s.softWrite who (Reg.relStrCfg i) value fun s v => s.streamCfgWrite i v

/-- STREAM_RESET (R356): RESET = 1, the other fields as they are. -/
def execStreamReset (who : Initiator) (i : Nat) (s : State) : Out :=
  s.named (decide (i < 256)) <|
    s.softWrite who (Reg.relStrCfg i) (toWord (s.fget (Reg.relStrCfg i) 17 0 + 2 ^ 18)) fun s v => s.streamCfgWrite i v

/-- REEL_DISABLE (R366). -/
def execReelDisable (who : Initiator) (s : State) : Out :=
  .next (s.softWrite who Reg.relCtrl 0 fun s v => s.unitEnable Reg.relCtrl 4 v)

/-- REEL_ENABLE (R366). -/
def execReelEnable (who : Initiator) (s : State) : Out :=
  .next (s.softWrite who Reg.relCtrl 1 fun s v => s.unitEnable Reg.relCtrl 4 v)

end Sys2Proof.Machine
end

