-- ==== Sys2Proof/Machine/Hide.lean ====
section
/-!
DEFINITION. Machine/Hide.lean: the K passes and drains of the Hide's tiles, the checksum row and column, the Edge unit,
and the HID_ registers (R162 to R200).
-/

namespace Sys2Proof.Machine

/-! ### Operands of a tile (R163 to R170, R201) -/

/-- How a Hide op reduces: 0 chunks and tree, 1 exact integers (R149), 2 sixteen-bit (R150). -/
def OpEntry.path (e : OpEntry) : Nat :=
  let a := e.tensor 1
  let b := e.tensor 2
  let isInt (t : Tensor) : Bool := decide (t.fmt = 8 ∨ t.fmt = 9)
  if isInt a && isInt b && decide (a.scales = 0) && decide (b.scales = 0) then 1
  else if a.fmt = 1 ∨ a.fmt = 2 then 2
  else 0

/-- Rows of tile t, and its first row and first column. -/
def OpEntry.rowsOf (e : OpEntry) (t : Nat) : Nat := min e.tileRows (e.mLen - t % e.mTiles * e.tileRows)
def OpEntry.firstRow (e : OpEntry) (t : Nat) : Nat := t % e.mTiles * e.tileRows
def OpEntry.ntOf (e : OpEntry) (t : Nat) : Nat := t / e.mTiles

/-- A failing read of an operand: the unit and its code (R197, R237). -/
def operandError (c : Nat) : Nat × Nat := if c = 1 then (1, 1) else (2, latigoCode c)

/-- The M side of the next tile. -/
def State.mLines (s : State) (r : RunOp) : State × Except Nat (List Line) :=
  let t := r.op.tensor 1
  let x0 := r.op.firstRow r.passes
  let n := r.op.rowsOf r.passes
  if t.mode = 2 then readAll (fun s m => s.gatherLine r.ring t r.op.geo m) s ((List.range n).map (x0 + ·))
  else s.operandLines r.ring t x0 n r.op.kLen

/-- The N side of the next tile: none while its window records are missing (R207); a failure names the unit. In place it
is read from Tier A alone (R201). -/
def State.nLines (s : State) (r : RunOp) : Option (State × Except (Nat × Nat) (List Line)) :=
  let nt := r.op.ntOf r.passes
  if r.op.usesWindow then
    (s.passBytes r).map fun p =>
      match p with
      | (s, .error c) => (s, .error (2, c))
      | (s, .ok bs) => (s, .ok (r.op.recordLines nt bs))
  else
    some <|
      match s.operandLines r.ring ((r.op.tensor 2).from_ .tierA) (nt * r.op.tileCols) (r.op.colsOf nt) r.op.kLen with
      | (s, .error c) => (s, .error (operandError c))
      | (s, .ok ls) => (s, .ok ls)

/-! ### Results of a tile (R141 to R150) -/

/-- The blocks of 32 of a pair of lines. -/
def pairBlocks (a b : Line) : List Block :=
  (List.range (ceilDiv a.codes.length 32)).map fun j =>
    ⟨(a.codes.drop (32 * j)).take 32, (b.codes.drop (32 * j)).take 32, a.scales.getD j none, b.scales.getD j none⟩

/-- The accumulator set of one cell after its K pass. -/
def cellSet (path : Nat) (fa fb : Fmt) (a b : Line) : AccSet :=
  match path with
  | 1 => integerSet fa fb a.codes b.codes
  | 2 => wideSet fa fb a.codes b.codes
  | _ => treeSet fa fb (pairBlocks a b)

/-- The format of a Hide operand; a reserved code does not pass the Caller. -/
def operandFmt (code : Nat) : Fmt := (fmtOf code).getD (.int 8)

/-- The sets of a tile, row by row. -/
def tileCells (path : Nat) (fa fb : Fmt) (ms ns : List Line) : List AccSet :=
  (ms.map fun a => ns.map fun b => cellSet path fa fb a b).flatten

/-- What a tile drains, row by row (R177). -/
def TileData.results (td : TileData) (path : Nat) : List Int := td.cells.map (·.result path)

/-! ### The checksum row and column (R191 to R195) -/

/-- A sum in binary64, rounded once. -/
def sumF64 (xs : List Num) : Nat := toF64 (xs.foldl Num.add (.fin false 0 0))

/-- Products accumulated in binary64 in step order (R192). -/
def dotF64 (xs ys : List Nat) : Nat := (List.zip xs ys).foldl (fun acc p => dadd acc (dmul p.1 p.2)) 0

/-- The values of a line, each element times its block scale, as binary64. -/
def Line.f64s (l : Line) (fmt : Nat) : List Nat := (l.values fmt).map toF64

/-- Sums over lines for each step. -/
def stepSums (k : Nat) (ls : List (List Nat)) : List Nat :=
  (List.range k).map fun i => sumF64 (ls.map fun l => f64 (l.getD i 0))

/-- The integers of a line. -/
def Line.ints (l : Line) (f : Fmt) : List Int :=
  l.codes.map fun c => match f.decode c with
    | .fin neg m _ => if neg then -(m : Int) else m
    | _ => 0

def stepSumsInt (k : Nat) (ls : List (List Int)) : List Int :=
  (List.range k).map fun i => ls.foldl (fun n l => n + l.getD i 0) 0

def dotInt (xs ys : List Int) : Int := (List.zipWith (· * ·) xs ys).foldl (· + ·) 0

/-- The columns of a tile by strip, and by physical column. -/
def byStrip {α : Type} (ns : List α) : List (List α) := chunksOf 256 (ns.length + 1) ns
def byColumn {α : Type} (ns : List α) : List (List α) :=
  (List.range (min 256 ns.length)).map fun j =>
    (List.range (ceilDiv ns.length 256)).filterMap fun s => ns[256 * s + j]?

/-- The checksum cells of a tile: by physical row, by physical column, and the corner (R192). -/
def tileChecks (path k : Nat) (fa fb : Nat) (ms ns : List Line) : List Int × List Int × Int :=
  if path = 1 then
    let m := ms.map fun l => l.ints (operandFmt fa)
    let n := ns.map fun l => l.ints (operandFmt fb)
    let msum := stepSumsInt k m
    ((((byStrip n).map fun st => m.map fun l => dotInt l (stepSumsInt k st)).flatten),
      (byColumn n).map (fun c => dotInt msum (stepSumsInt k c)), dotInt msum (stepSumsInt k n))
  else
    let m := ms.map fun l => l.f64s fa
    let n := ns.map fun l => l.f64s fb
    let msum := stepSums k m
    ((((byStrip n).map fun st => m.map fun l => (dotF64 l (stepSums k st) : Int)).flatten),
      (byColumn n).map (fun c => (dotF64 msum (stepSums k c) : Int)), (dotF64 msum (stepSums k n) : Int))

/-- Does one line pass (R193): `value` reads a compared value. -/
def linePasses (exact : Bool) (cfg : Word) (chk : Int) (value : Int → Num) (vals : List Int) : Bool :=
  if exact then decide (chk = vals.foldl (· + ·) 0)
  else
    let d := f64 (sumF64 (vals.map value))
    let a := f64 (sumF64 (vals.map fun v => (value v).abs))
    let diff := ((f64 chk.toNat).add d.neg).abs
    let abs : Num := if fieldOf cfg 15 8 = 0 then .fin false 0 0 else .fin false 1 ((fieldOf cfg 15 8 : Int) - 127)
    let bound := (a.scale (-(min 52 (fieldOf cfg 5 0) : Nat))).add abs
    diff != .nan && bound != .nan && !bound.lt diff

/-- The first failing line of a tile with these drained results, as (KIND, LINE): rows, then columns, then the corner. -/
def TileData.failing (td : TileData) (results : List Int) (exact : Bool) (cfg : Word) (tileRows : Nat) :
    Option (Nat × Nat) :=
  let cols := td.cols
  let rows := chunksOf cols (results.length + 1) results
  let n := rows.length
  let fp (v : Int) : Num := f32 v.toNat
  let db (v : Int) : Num := f64 v.toNat
  let strips := ceilDiv cols 256
  let badRow := (List.range (strips * n)).find? fun i =>
    !linePasses exact cfg (td.chkRows.getD i 0) fp (((rows.getD (i % n) []).drop (256 * (i / n))).take 256)
  match badRow with
  | some i => some (1, i / n * tileRows + i % n)
  | none =>
    let badCol := (List.range (min 256 cols)).find? fun j =>
      !linePasses exact cfg (td.chkCols.getD j 0) fp
        ((rows.map fun r => (List.range strips).filterMap fun s => r[256 * s + j]?).flatten)
    match badCol with
    | some j => some (0, j)
    | none =>
      if linePasses exact cfg td.corner db td.chkCols && linePasses exact cfg td.corner db td.chkRows then none
      else some (2, 0)

/-- Record the check of a tile (R195). -/
def State.noteCheck (s : State) (r : RunOp) (tile : Nat) (bad : Option (Nat × Nat)) : State :=
  let s := s.count Reg.hidChkTiles 1
  let s := match bad with
    | none => s
    | some (kind, line) =>
      let s := (s.flag Reg.hidStatus 9).count Reg.hidChkMismatchCount 1
      let s := s.rset Reg.hidChkLastLayer (toWord (r.op.layer + 2 ^ 24 * (r.ring % 2)))
      (s.rset Reg.hidChkLastOper (toWord r.op.oper)).rset Reg.hidChkLastTile
        (toWord (tile + 2 ^ 16 * line + 2 ^ 24 * kind))
  s.checksumReport r.ring bad.isSome

/-! ### The Edge unit (R185 to R190) -/

/-- Steps 1 to 5 of R186 on one value. -/
def OpEntry.edgeValue (e : OpEntry) (v : Int) (cs rs b : Option Nat) : Nat :=
  let x := if e.path = 1 then fOfInt v else v.toNat
  let x := match cs with
    | some c => fmul x c
    | none => x
  let x := match rs with
    | some c => fmul x c
    | none => x
  let x := match b with
    | some c => fadd x c
    | none => x
  fnValue (descField e.desc 0x4C 3 0) (descWord e.desc 0x50) (descWord e.desc 0x54) x

/-- Read elements x0 to x0 + n − 1 of a vector slot; none where it is absent. -/
def State.vectorPart (s : State) (ring : Nat) (e : OpEntry) (k x0 n : Nat) :
    State × Except Nat (Option (List Nat)) :=
  if !e.has k then (s, .ok none)
  else
    match s.readElems ring (e.tensor k) 0 0 0 x0 n with
    | (s, .error c) => (s, .error c)
    | (s, .ok vs) => (s, .ok (some vs))

/-- The output row (i1, i2, i3) of row m of the matrix product (R319). -/
def OpEntry.outRow (e : OpEntry) (m : Nat) : Nat × Nat × Nat :=
  let t := e.tensor 0
  (m % t.d1, m / t.d1 % t.d2, m / (t.d1 * t.d2))

/-- What the Edge unit counts of its conversions (R190). -/
def State.edgeCount (s : State) (n : OutCount) : State :=
  ((s.count Reg.hidEdgeSatCount n.sat).count Reg.hidEdgeNan2intCount n.nan2int).count Reg.hidEdgeNanOutCount n.nanMade

/-- The finished values of a part of a row go out: 0, or the unit and the code of a failure. -/
def State.edgeWrite (s : State) (ring : Nat) (e : OpEntry) (m c0 : Nat) (free : Bool) (vs : List Nat) :
    State × Nat × Nat :=
  if e.reelEn then
    let (s, c) := (s.bump Reg.relFusedRows 1).fusedRow ring e (e.outRow m) c0 free vs
    (s, if c = 0 then (0, 0) else (4, c))
  else
    let (i1, i2, i3) := e.outRow m
    let (s, nums) := s.unspecifiedIf free (vs.map f32)
    let (s, c, n) := s.writeRow ring e (e.tensor 0) 0 i1 i2 i3 c0 nums
    (s.edgeCount n, if c = 0 then (0, 0) else (2, latigoCode c))

/-- One drained physical row: strip st, tile row i (R179). -/
def State.edgeRow (s : State) (r : RunOp) (free : Bool) (results : List Int) (cs b : Option (List Nat)) (t st i : Nat) :
    State × Nat × Nat :=
  let e := r.op
  let cols := e.colsOf (e.ntOf t)
  let m := e.firstRow t + i
  let c0 := e.ntOf t * e.tileCols + 256 * st
  let vals := (results.drop (i * cols + 256 * st)).take (min 256 (cols - 256 * st))
  match s.vectorPart r.ring e 4 m 1 with
  | (s, .error c) => (s, 2, latigoCode c)
  | (s, .ok rs) =>
    let out := (List.range vals.length).map fun j =>
      e.edgeValue (vals.getD j 0) (cs.map fun v => v.getD j 0) (rs.map fun v => v.headD 0) (b.map fun v => v.getD j 0)
    let isIn (v : Int) : Bool := decide (e.path ≠ 1) && fIsNan v.toNat
    let nanIn := (vals.filter isIn).length
    let made := newNans out (vals.map isIn)
    ((s.count Reg.hidEdgeNanInCount nanIn).count Reg.hidEdgeNanOutCount made).edgeWrite r.ring e m c0 free out

/-- The drained rows of strip st. -/
def State.edgeRows (s : State) (r : RunOp) (free : Bool) (results : List Int) (cs b : Option (List Nat)) (t st : Nat) :
    List Nat → State × Nat × Nat
  | [] => (s, 0, 0)
  | i :: is =>
    match s.edgeRow r free results cs b t st i with
    | (s, 0, _) => s.edgeRows r free results cs b t st is
    | (s, u, c) => (s, u, c)

/-- The strips of a tile, with their column scales and bias. -/
def State.edgeStrips (s : State) (r : RunOp) (free : Bool) (results : List Int) (t : Nat) : List Nat → State × Nat × Nat
  | [] => (s, 0, 0)
  | st :: sts =>
    let e := r.op
    let n := min 256 (e.colsOf (e.ntOf t) - 256 * st)
    let c0 := e.ntOf t * e.tileCols + 256 * st
    match s.vectorPart r.ring e 3 c0 n with
    | (s, .error c) => (s, 2, latigoCode c)
    | (s, .ok cs) =>
      match s.vectorPart r.ring e 5 c0 n with
      | (s, .error c) => (s, 2, latigoCode c)
      | (s, .ok b) =>
        match s.edgeRows r free results cs b t st (List.range (e.rowsOf t)) with
        | (s, 0, _) => s.edgeStrips r free results t sts
        | (s, u, c) => (s, u, c)

/-! ### K passes (R171, R175, R176, R184) -/

/-- Count cycles of category c (R184). -/
def State.hideCycles (s : State) (c n : Nat) : State :=
  (s.bump64 (Reg.hidCycLo c) n).onRun fun r => { r with counted := r.counted + n }

/-- Number of set bits. -/
def popcount : Nat → Nat → Nat
  | 0, _ => 0
  | n + 1, v => v % 2 + popcount n (v / 2)

/-- S and t of a K pass over k elements (R171). -/
def passCycles (path fa fb k : Nat) : Nat × Nat :=
  if path = 2 then (4 * k, 0)
  else
    (if fmtBits fa = 4 ∧ fmtBits fb = 4 then ceilDiv k 2 else k,
      if path = 1 then 0 else popcount 24 (ceilDiv k 512) - 1)

/-- The cycles of one K pass are counted: the fill before the first, then products, tail and waits. -/
def State.passCount (s : State) (first : Bool) (fill streaming tail operandWait drainWait : Nat) : State :=
  let s := if first then s.hideCycles 1 fill else s
  (((s.hideCycles 0 streaming).hideCycles 2 tail).hideCycles 3 operandWait).hideCycles 4 drainWait

/-- A complete tile in the live set swaps when the shadow set is empty (R175), else waits (R176). -/
def RunOp.swap (r : RunOp) (td : TileData) : RunOp :=
  if r.shadow.isNone then { r with shadow := some td, live := .empty, held := false }
  else { r with live := td, held := true }

/-- The shadow set is drained: it is empty, and a tile that waits in the live set swaps (R176, R177). -/
def RunOp.drain (r : RunOp) : RunOp :=
  let r := { r with shadow := none, drained := r.drained + 1 }
  if r.held then r.swap r.live else r

/-- HID_CUR_TILE and PHASE follow the passes of an op with `tiles` tiles. -/
def State.syncPhase (s : State) (passes tiles : Nat) : State :=
  (s.fset Reg.hidCurTile 15 0 (min passes (tiles - 1))).fset Reg.hidStatus 3 2 (if passes < tiles then 2 else 3)

/-- Is the op a matrix product (MATMUL, CONV, GOLDEN). -/
def isMatrix (opcode : Nat) : Bool := opcode = 0x10 || opcode = 0x11 || opcode = 0x12

/-- The K pass of the next tile of a matrix op ends (R175). -/
def State.matrixPass (s : State) (r : RunOp) (operandWait drainWait : Nat) : State :=
  let e := r.op
  let fail (s : State) (u : Nat × Nat) : State := s.runFail u.1 u.2
  match s.nLines r with
  | none => s
  | some (s, .error u) => fail s u
  | some (s, .ok ns) =>
    match s.mLines r with
    | (s, .error c) => fail s (operandError c)
    | (s, .ok ms) =>
      let fa := (e.tensor 1).fmt
      let fb := (e.tensor 2).fmt
      let (streaming, tail) := passCycles e.path fa fb e.kLen
      let (chkRows, chkCols, corner) := if r.chk.isSome then tileChecks e.path e.kLen fa fb ms ns else ([], [], 0)
      let td : TileData := ⟨tileCells e.path (operandFmt fa) (operandFmt fb) ms ns, ns.length, chkRows, chkCols, corner⟩
      let s := s.passCount (decide (r.passes = 0)) 24 streaming tail operandWait drainWait
      let s := if e.usesWindow then s.passRead r else s
      ((s.onRun fun r => ({ r with passes := r.passes + 1, fed := [] }.swap td)).syncPhase (r.passes + 1) e.tiles).syncWindow
        (r.ring % 2)

/-! ### Drains (R177 to R179, R193 to R195) -/

/-- Faulty drain: some results of a tile replaced by what the drain lanes carried, as (row, column, value). -/
def faultyResults (results : List Int) (cols : Nat) (exact : Bool) (corrupt : List (Nat × Nat × Nat)) : List Int :=
  corrupt.foldl (fun rs x =>
    if x.2.1 < cols then rs.set (x.1 * cols + x.2.1) (if exact then sext 44 x.2.2 else (x.2.2 % 2 ^ 32 : Nat)) else rs)
    results

/-- The check of a drained tile, where it is checked (R193 to R195). -/
def State.checkTile (s : State) (r : RunOp) (td : TileData) (results : List Int) (exact : Bool) (tileRows : Nat) : State :=
  match r.chk with
  | none => s
  | some cfg =>
    let bad := td.failing results exact cfg tileRows
    (s.noteCheck r r.drained bad).onRun fun r => { r with mismatch := r.mismatch || bad.isSome }

/-- The drain of a tile ends. -/
def State.matrixDrain (s : State) (r : RunOp) (td : TileData) (corrupt : List (Nat × Nat × Nat)) : State :=
  let e := r.op
  let t := r.drained
  let exact := decide (e.path = 1)
  let results := faultyResults (td.results e.path) td.cols exact corrupt
  let s := s.checkTile r td results exact e.tileRows
  let free := decide (e.opcode = 0x11) && s.clobbers r.ring e [0, 7] e.keptInputs
  let (s, u, c) := s.edgeStrips r free results t (List.range (ceilDiv td.cols 256))
  let s := s.bump Reg.hidTileCount 1
  if u ≠ 0 ∧ r.code = 0 then (s.onRun fun r => { r with held := false }.drain).runFail u c
  else s.onRun fun r => { r.drain with finished := r.finished || decide (t + 1 = e.tiles) }

/-! ### Commands -/

/-- The start of a MATMUL, CONV or GOLDEN op: R204 is checked. -/
def State.matrixStart (s : State) (e : OpEntry) (ring : Nat) : State :=
  if e.usesWindow && !s.winReady ring then s.runFail 2 4 else s

/-- MATMUL (R163 to R182). -/
def execMatmul (ring : Nat) (s : State) : Out := .next <| s.issue ring 0x10 fun s e => s.matrixStart e ring

/-- CONV (R317, R319). -/
def execConv (ring : Nat) (s : State) : Out := .next <| s.issue ring 0x11 fun s e => s.matrixStart e ring

/-- OPERAND_UNCORRECTABLE (R197): an operand with an uncorrectable error, or a parity failure on an operand bus or, while
a tile drains, on a drain lane. -/
def execOperandUncorrectable (parity : Bool) (s : State) : Out :=
  .next <|
    match s.ten.run with
    | none => s
    | some r =>
      if usesHide r.op.opcode ∧ (r.code = 0 ∨ r.shadow.isSome) then
        let s := if parity then (s.flag Reg.hidStatus 10).count Reg.hidParityCount 1 else s
        if r.code = 0 then s.runFail 1 (if parity then 2 else 1) else s
      else s

/-- HIDE_DISABLE (R199). -/
def execHideDisable (who : Initiator) (s : State) : Out :=
  .next (s.softWrite who Reg.hidCtrl 0 fun s v => s.unitEnable Reg.hidCtrl 1 v)

/-- HIDE_ENABLE (R200). -/
def execHideEnable (who : Initiator) (s : State) : Out :=
  .next (s.softWrite who Reg.hidCtrl 1 fun s v => s.unitEnable Reg.hidCtrl 1 v)

/-- HID_CYC_CLR: writing 1 sets the seven cycle counters to 0. -/
def State.cycClear (s : State) (v : Word) : State :=
  if bitOf v 0 then (List.range 7).foldl (fun s c => s.set64 (Reg.hidCycLo c) 0) s else s

/-- HID_CYC_CLEAR (R184). -/
def execHidCycClear (who : Initiator) (s : State) : Out :=
  .next (s.softWrite who Reg.hidCycClr 1 fun s v => s.cycClear v)

/-- The write rule of the HID_ block. -/
def State.hidWrite (s : State) (o : Nat) (v : Word) : State :=
  if o = 4 then s.unitEnable Reg.hidCtrl 1 v
  else if o = 0x140 then s.cycClear v
  else s.putTyped (0x10300000 + o) v 0

end Sys2Proof.Machine
end

