-- ==== Sys2Proof/Machine/Vision.lean ====
section
/-!
DEFINITION. Machine/Vision.lean: CROP_RESIZE and the VIS_ registers (R326 to R338).
-/

namespace Sys2Proof.Machine

/-- The largest integer at most x; infinities and NaN have none and give 0. -/
def Num.floor : Num → Int
  | .fin neg m e =>
    let v : Int := if neg then -(m : Int) else m
    if 0 ≤ e then v * 2 ^ e.toNat else v / 2 ^ (-e).toNat
  | _ => 0

/-- An FP32 value held to 0 … n − 1. -/
def fClamp (x n : Nat) : Nat :=
  if flt x 0 then 0 else if flt (fOfInt (n - 1 : Int)) x then fOfInt (n - 1 : Int) else x

/-- A number as UNIT and UNIT_CODE in one. -/
def unitCode (u c : Nat) : Nat := 256 * u + c

/-! ### Fields (R326) -/

def OpEntry.boxCount (e : OpEntry) : Nat := descField e.desc 0x40 12 0
def OpEntry.cropH (e : OpEntry) : Nat := descField e.desc 0x44 15 0
def OpEntry.cropW (e : OpEntry) : Nat := descField e.desc 0x44 31 16
def OpEntry.samples (e : OpEntry) : Nat := descField e.desc 0x48 4 2
def OpEntry.extrap (e : OpEntry) : Nat := toF32 (f32 (descWord e.desc 0x4C))

/-- A box record (R328). -/
structure CropBox where
  y1 : Nat
  x1 : Nat
  y2 : Nat
  x2 : Nat
  image : Nat
  deriving DecidableEq, Repr

def boxOf (b : List Byte) : CropBox :=
  ⟨descWord b 0, descWord b 4, descWord b 8, descWord b 0xC, descField b 0x10 15 0⟩

/-- Is an FP32 code finite. -/
def fIsFinite (x : Nat) : Bool :=
  match f32 x with
  | .fin _ _ _ => true
  | _ => false

/-- R332. -/
def CropBox.valid (b : CropBox) (images : Nat) : Bool :=
  fIsFinite b.y1 && fIsFinite b.x1 && fIsFinite b.y2 && fIsFinite b.x2 && !flt b.y2 b.y1 && !flt b.x2 b.x1 &&
    decide (b.image < images)

/-- A sample coordinate along one axis (R329): bin u, sample a of s, over an edge from lo to hi in n bins. -/
def sampleAt (lo hi n u s a : Nat) : Nat :=
  let bin := fdiv (fsub hi lo) (fOfInt n)
  fsub (fadd lo (fmul (fdiv (fadd (fOfInt (u * s + a : Nat)) fHalf) (fOfInt s)) bin)) fHalf

/-- Does a coordinate lie outside an axis of n pixels (R330). -/
def outsideAxis (y n : Nat) : Bool := flt y (fneg fHalf) || flt (fsub (fOfInt n) fHalf) y

/-! ### Sampling (R330) -/

/-- The channels of one input pixel in FP32; a failure is Latigo's (R337). -/
def State.pixel (s : State) (ring : Nat) (e : OpEntry) (image : Nat) (p : Nat × Nat) : State × Except Nat (List Nat) :=
  match s.readInputRow ring e 1 (p.2, p.1, image) with
  | (s, .error c) => (s, .error (unitCode 2 (latigoCode c)))
  | (s, .ok vs) => (s, .ok vs)

/-- a + f × (b − a), each step rounded. -/
def lerp (f a b : Nat) : Nat := fadd a (fmul f (fsub b a))

/-- The channel values of one sample point. -/
def State.sample (s : State) (ring : Nat) (e : OpEntry) (image y x : Nat) : State × Except Nat (List Nat) :=
  let t := (e.tensor 1).logical
  if outsideAxis y t.d2 || outsideAxis x t.d1 then
    (s.count Reg.visExtrapCount 1, .ok (List.replicate t.d0 e.extrap))
  else if descField e.desc 0x48 1 0 = 0 then
    let near (v n : Nat) : Nat := (clampI (f32 (fadd v fHalf)).floor 0 (n - 1 : Int)).toNat
    s.pixel ring e image (near y t.d2, near x t.d1)
  else
    let yc := fClamp y t.d2
    let xc := fClamp x t.d1
    let y0 := (f32 yc).floor.toNat
    let x0 := (f32 xc).floor.toNat
    let y1 := min (y0 + 1) (t.d2 - 1)
    let x1 := min (x0 + 1) (t.d1 - 1)
    let fy := fsub yc (fOfInt y0)
    let fx := fsub xc (fOfInt x0)
    match readAll (fun s p => s.pixel ring e image p) s [(y0, x0), (y0, x1), (y1, x0), (y1, x1)] with
    | (s, .error c) => (s, .error c)
    | (s, .ok ps) =>
      let v (k c : Nat) : Nat := (ps.getD k []).getD c 0
      (s, .ok ((List.range t.d0).map fun c => lerp fy (lerp fx (v 0 c) (v 1 c)) (lerp fx (v 2 c) (v 3 c))))

/-- The bin values of all channels (R331). -/
def State.cropBin (s : State) (ring : Nat) (e : OpEntry) (b : CropBox) (u v : Nat) : State × Except Nat (List Nat) :=
  let n := e.samples
  let points := ((List.range n).map fun a => (List.range n).map fun c => (a, c)).flatten
  match readAll (fun s (p : Nat × Nat) => s.sample ring e b.image (sampleAt b.y1 b.y2 e.cropH u n p.1)
      (sampleAt b.x1 b.x2 e.cropW v n p.2)) s points with
  | (s, .error c) => (s, .error c)
  | (s, .ok vs) =>
    let sum := vs.foldl (fun acc x => List.zipWith fadd acc x) (List.replicate (e.tensor 1).logical.d0 0)
    (s, .ok (if n ≤ 1 then sum else sum.map fun x => fdiv x (fOfInt (n * n : Nat))))

/-- One output pixel of a crop. -/
def State.cropPixel (s : State) (ring : Nat) (e : OpEntry) (k : Nat) (b : CropBox) (valid : Bool) (p : Nat × Nat) :
    State × Nat × OutCount :=
  let got := if valid then s.cropBin ring e b p.1 p.2 else (s, .ok (List.replicate (e.tensor 0).d0 e.extrap))
  match got with
  | (s, .error c) => (s, c, OutCount.zero)
  | (s, .ok vs) =>
    let (s, nums) := s.unspecifiedIf (s.clobbers ring e [0] e.keptInputs) (vs.map f32)
    match s.writeRow ring e (e.tensor 0) 0 p.2 p.1 k 0 nums with
    | (s, 0, n) => (s, 0, n)
    | (s, c, n) => (s, unitCode 5 c, n)

/-- One box (R328, R332). -/
def State.cropBox (s : State) (ring : Nat) (e : OpEntry) (k : Nat) : State × Nat × OutCount :=
  let t := e.tensor 2
  match s.planeRead ring t.pid (t.addr + 32 * k) 32 with
  | (s, .error c) => (s, unitCode 5 c, OutCount.zero)
  | (s, .ok bs) =>
    let b := boxOf bs
    let valid := b.valid (e.tensor 1).d3
    let s := s.bump Reg.visBoxCount 1
    let s := if valid then s else (s.count Reg.visBadBoxCount 1).flag Reg.visStatus 6
    writeAll (fun s p => s.cropPixel ring e k b valid p) s
      ((List.range e.cropH).map fun u => (List.range e.cropW).map fun v => (u, v)).flatten

/-- A CROP_RESIZE op runs. -/
def State.cropRun (s : State) (e : OpEntry) (ring : Nat) : State :=
  let (s, c, _) := writeAll (fun s k => s.cropBox ring e k) s (List.range e.boxCount)
  if c = 0 then s.runDone else s.runFail (c / 256) (c % 256)

/-- CROP_RESIZE (R326 to R332). -/
def execCropResize (ring : Nat) (s : State) : Out := .next <| s.issue ring 0x40 fun s e => s.cropRun e ring

/-! ### Registers (R338) -/

/-- The write rule of the VIS_ block. -/
def State.visWrite (s : State) (o : Nat) (v : Word) : State :=
  if o = 4 then s.unitEnable Reg.visCtrl 5 v else s.putTyped (0x10350000 + o) v 0

/-- VISION_DISABLE (R338). -/
def execVisionDisable (who : Initiator) (s : State) : Out :=
  .next (s.softWrite who Reg.visCtrl 0 fun s v => s.unitEnable Reg.visCtrl 5 v)

/-- VISION_ENABLE (R338). -/
def execVisionEnable (who : Initiator) (s : State) : Out :=
  .next (s.softWrite who Reg.visCtrl 1 fun s v => s.unitEnable Reg.visCtrl 5 v)

end Sys2Proof.Machine
end

