-- ==== Sys2Proof/Machine/Tango.lean ====
section
/-!
DEFINITION. Machine/Tango.lean: the attention opcodes, the key-value cache, masks, rotary encoding and the TNG_ registers
(R282 to R316).
-/

namespace Sys2Proof.Machine

/-- The smallest k with n at most 2^k. -/
def ceilLog2 (n : Nat) : Nat := if n ≤ 1 then 0 else Nat.log2 (n - 1) + 1

/-- The tree of R146 over any records, with `fuel` for its depth. -/
def treeOf {α : Type} (f : α → α → α) (d : α) : Nat → List α → α
  | 0, ps => ps.headD d
  | n + 1, ps =>
    match ps with
    | [] => d
    | [p] => p
    | ps =>
      let m := 2 ^ Nat.log2 (ps.length - 1)
      f (treeOf f d n (ps.take m)) (treeOf f d n (ps.drop m))

/-! ### Fields (R308, R289 to R292) -/

/-- The fields of an attention op with the latched sequence entry. -/
structure Attn where
  pid : Nat
  len : Nat
  new : Nat
  qh : Nat
  g : Nat
  d : Nat
  kv : Nat
  mask : Nat
  rope : Nat
  half : Nat
  final : Bool
  stats : Bool
  accum : Bool
  scale : Nat
  base : Nat
  biasLen : Nat
  first : Nat
  count : Nat
  kBase : Nat
  vBase : Nat
  deriving DecidableEq, Repr

def OpEntry.attn (e : OpEntry) : Attn where
  pid := fieldOf e.seqCfg 16 0
  len := fieldOf e.seqLen 20 0
  new := descField e.desc 0x40 31 16
  qh := descField e.desc 0x44 7 0 + 1
  g := descField e.desc 0x44 15 8 + 1
  d := 32 * (descField e.desc 0x44 18 16 + 1)
  kv := descField e.desc 0x48 3 0
  mask := descField e.desc 0x48 5 4
  rope := descField e.desc 0x48 7 6
  half := descField e.desc 0x48 15 8
  final := descField e.desc 0x48 16 16 = 1
  stats := descField e.desc 0x48 17 17 = 1
  accum := descField e.desc 0x48 18 18 = 1
  scale := descWord e.desc 0x4C
  base := descWord e.desc 0x50
  biasLen := descField e.desc 0x54 16 0
  first := descField e.desc 0x58 11 0
  count := descField e.desc 0x58 27 16
  kBase := descLong e.desc 0x60
  vBase := descLong e.desc 0x68

/-- Keys below LEN + NEW. -/
def Attn.keys (a : Attn) : Nat := a.len + a.new

/-- The chunks of the op (R289). -/
def Attn.chunks (a : Attn) : Nat := if a.count = 0 then ceilDiv a.keys 512 - a.first else a.count

/-- Sections, log2 of the fold, chunks of the longest section (R290, R312). -/
def Attn.sections (a : Attn) : Nat := min 16 a.chunks
def Attn.foldLog (a : Attn) : Nat := ceilLog2 a.sections
def Attn.perSection (a : Attn) : Nat := ceilDiv a.chunks (max 1 a.sections)

/-- Heads and rows of a group; rows per strip and M-tiles (R292). -/
def Attn.heads (a : Attn) : Nat := a.qh / a.g
def Attn.rows (a : Attn) : Nat := a.new * a.heads
def Attn.stripRows (a : Attn) : Nat := 256 / 2 ^ a.foldLog
def Attn.mTiles (a : Attn) : Nat := ceilDiv a.rows a.stripRows

/-- The token and the head of row r of group g. -/
def Attn.tokenOf (a : Attn) (r : Nat) : Nat := r / max 1 a.heads
def Attn.headOf (a : Attn) (g r : Nat) : Nat := g * a.heads + r % max 1 a.heads

/-- The keys of chunk j. -/
def Attn.chunkKeys (a : Attn) (j : Nat) : List Nat := (List.range (min 512 (a.keys - 512 * j))).map (512 * j + ·)

/-- The keys of the op. -/
def Attn.opKeys (a : Attn) : List Nat := ((List.range a.chunks).map fun j => a.chunkKeys (a.first + j)).flatten

/-- Section st of the op: its first chunk, and the first chunk beyond it (R290). -/
def Attn.secFrom (a : Attn) (st : Nat) : Nat := a.first + st * a.chunks / max 1 a.sections
def Attn.secTo (a : Attn) (st : Nat) : Nat := a.first + (st + 1) * a.chunks / max 1 a.sections

/-- Element bytes, data bytes and ROW of a cache row (R286). -/
def Attn.rowElems (a : Attn) : Nat := a.g * a.d * fmtBits a.kv / 8
def Attn.rowData (a : Attn) : Nat := a.rowElems + a.g * a.d / 32
def Attn.rowLen (a : Attn) : Nat := 16 * ceilDiv a.rowData 16

/-! ### Quantised rows -/

/-- A row quantised with one scale per 32 elements, to nearest even (R155, R294). -/
def quantRow (fmt : Nat) (vs : List Nat) : Line :=
  let blocks := chunksOf 32 (vs.length + 1) (vs.map f32)
  let scales := blocks.map (blockScale fmt)
  ⟨(List.zipWith (fun b c => (blockEncode fmt c (b.map fun v => (v, .nearest))).map (·.1)) blocks scales).flatten,
    scales.map some⟩

/-- The bytes of a cache row from its groups (R286). -/
def Attn.rowOf (a : Attn) (ls : List Line) : List Byte :=
  let es := packElems (fmtBits a.kv) (ls.map (·.codes)).flatten
  let ss := (ls.map fun l => l.scales.map fun c => BitVec.ofNat 8 (c.getD 127)).flatten
  (es ++ ss) ++ List.replicate (a.rowLen - a.rowData) 0

/-- Group g of a cache row. -/
def Attn.groupLine (a : Attn) (row : List Byte) (g : Nat) : Line :=
  ⟨codesAt (row.drop (g * a.d * fmtBits a.kv / 8)) 0 (fmtBits a.kv) a.d,
    ((row.drop (a.rowElems + g * a.d / 32)).take (a.d / 32)).map fun b => some b.toNat⟩

/-! ### Rotary encoding (R299, R300) -/

/-- cos and sin of the pairs of a row at a position; `back` takes −sin (R310). -/
def Attn.angles (a : Attn) (base pos : Nat) (back : Bool) : List (Nat × Nat) :=
  (List.range a.half).map fun j =>
    let (c, s) := cosSin (dmul (toF64 (.fin false pos 0)) (omega base j (2 * a.half)))
    (c, if back then fneg s else s)

/-- A row rotated. -/
def Attn.rotate (a : Attn) (base pos : Nat) (back : Bool) (xs : List Nat) : List Nat :=
  if a.rope = 0 then xs
  else
    let cs := a.angles base pos back
    (List.range xs.length).map fun i =>
      if 2 * a.half ≤ i then xs.getD i 0
      else
        let (j, isX, p, q) := if a.rope = 1 then (i / 2, decide (i % 2 = 0), i / 2 * 2, i / 2 * 2 + 1)
          else (i % a.half, decide (i < a.half), i % a.half, i % a.half + a.half)
        let (c, s) := cs.getD j (fOne, 0)
        let x := xs.getD p 0
        let y := xs.getD q 0
        if isX then fsub (fmul x c) (fmul y s) else fadd (fmul x s) (fmul y c)

/-! ### Positions and masks (R298, R301) -/

/-- A position in FP32, if it is a whole number from 0 to 1,048,575. -/
def positionOf (code : Nat) : Option Nat :=
  let x := f32 code
  let v := x.floor
  let w : Num := .fin false v.toNat 0
  match x with
  | .fin _ _ _ => if 0 ≤ v ∧ v ≤ 1048575 ∧ !x.lt w ∧ !w.lt x then some v.toNat else none
  | _ => none

/-- The positions of the new tokens, from slot k where it is present. -/
def State.positions (s : State) (ring : Nat) (e : OpEntry) (k : Nat) : State × Except Nat (List Nat) :=
  let a := e.attn
  if !e.has k then (s, .ok ((List.range a.new).map (a.len + ·)))
  else
    match s.readElems ring (e.tensor k) 0 0 0 0 a.new with
    | (s, .error c) => (s, .error c)
    | (s, .ok cs) => (s, if cs.all fun c => (positionOf c).isSome then .ok (cs.filterMap positionOf) else .error 4)

/-- The position of key t (R298). -/
def Mask.keyPos (m : Mask) (t : Nat) : Nat := if t < m.len then t else m.pos.getD (t - m.len) 0

/-- Is key t visible to token i (R301). -/
def Mask.visible (m : Mask) (i t : Nat) : Bool :=
  match m.mode with
  | 0 => true
  | 1 => decide (m.keyPos t ≤ m.pos.getD i 0)
  | 2 => decide (t < m.len) || (m.rows.getD i 0).testBit (t - m.len)
  | _ =>
    match m.tiles.find? fun x => x.1 = (i / 64, t / 64) with
    | some (_, tag, bits) =>
      decide (tag % 4 = 0) || (decide (tag % 4 = 2) && (bytesToNat ((bits.drop (8 * (i % 64))).take 8)).testBit (t % 64))
    | none => false

/-- Read the tag of one 64 × 64 tile and its bitmap. -/
def State.maskTile (s : State) (ring : Nat) (e : OpEntry) (x : Nat × Nat) :
    State × Except Nat ((Nat × Nat) × Nat × List Byte) :=
  let tags := e.tensor 4
  let maps := e.tensor 5
  match s.planeRead ring tags.pid (tags.rowAt x.1 0 0 + 4 * x.2) 4 with
  | (s, .error c) => (s, .error c)
  | (s, .ok w) =>
    let tag := bytesToNat w
    if tag % 4 = 3 ∨ (tag % 4 = 2 ∧ (!e.has 5 ∨ maps.d1 ≤ tag / 4)) then (s, .error 5)
    else if tag % 4 ≠ 2 then (s, .ok (x, tag, []))
    else
      match s.planeRead ring maps.pid (maps.rowAt (tag / 4) 0 0) 512 with
      | (s, .error c) => (s, .error c)
      | (s, .ok bs) => (s, .ok (x, tag, bs))

/-- Read the mask of an op (R301). -/
def State.readMask (s : State) (ring : Nat) (e : OpEntry) (pos : List Nat) : State × Except Nat Mask :=
  let a := e.attn
  let m : Mask := ⟨a.mask, a.len, pos, [], []⟩
  match a.mask with
  | 2 =>
    let t := e.tensor 5
    match s.planeRead ring t.pid t.addr (8 * a.new) with
    | (s, .error c) => (s, .error c)
    | (s, .ok bs) =>
      let rows := (List.range a.new).map fun i => bytesToNat ((bs.drop (8 * i)).take 8)
      (s, .ok { m with rows := rows })
  | 3 =>
    let k0 := 8 * a.first
    let k1 := ceilDiv (min a.keys (512 * (a.first + a.chunks))) 64
    let xs := ((List.range (ceilDiv a.new 64)).map fun q => (List.range (k1 - k0)).map fun k => (q, k0 + k)).flatten
    match readAll (fun s x => s.maskTile ring e x) s xs with
    | (s, .error c) => (s, .error c)
    | (s, .ok ts) => (s, .ok { m with tiles := ts })
  | _ => (s, .ok m)

/-! ### Tiles (R292, R295, R302, R303, R310, R312) -/

/-- The chunk of strip st in a tile, where the tile has one for it: two tiles to a chunk where keys are the columns, one
where keys are the reduction dimension. -/
def Attn.tileChunk (a : Attn) (t : AttnTile) (st : Nat) : Option Nat :=
  let c := a.secFrom st + (if t.pass = 0 ∨ t.pass = 2 ∨ t.pass = 3 then t.idx / 2 else t.idx)
  if t.pass < 5 ∧ c < a.secTo st then some c else none

/-- The key of column `col` of strip st in a tile whose columns are keys (R295). -/
def Attn.colKey (a : Attn) (t : AttnTile) (st col : Nat) : Option Nat :=
  match a.tileChunk t st with
  | some c =>
    let k := 512 * c + 256 * (t.idx % 2) + col
    if k < a.keys then some k else none
  | none => none

/-- The key of row m of strip st in a tile whose rows are keys. -/
def Attn.rowKey (a : Attn) (t : AttnTile) (st m : Nat) : Option Nat :=
  let k := 512 * a.secFrom st + t.idx * a.stripRows + m
  if k < 512 * a.secTo st ∧ k < a.keys then some k else none

/-- The chunks of a tile, by strip. -/
def Attn.tileChunks (a : Attn) (t : AttnTile) : List Nat := (List.range a.sections).filterMap (a.tileChunk t)

/-- The keys whose cache rows a tile reads, by strip. -/
def Attn.tileKeys (a : Attn) (t : AttnTile) : List Nat :=
  if t.pass = 1 ∨ t.pass = 4 then (a.tileChunks t).flatMap a.chunkKeys
  else ((List.range a.sections).map fun st => (List.range 256).filterMap (a.colKey t st)).flatten

/-- The query rows of a tile. -/
def Attn.tileRows (a : Attn) (t : AttnTile) : List Nat :=
  (List.range (min a.stripRows (a.rows - t.mt * a.stripRows))).map (t.mt * a.stripRows + ·)

/-- The tiles of one pass, the M-tiles running fastest, then the tiles of a strip, then the groups. -/
def Attn.passTiles (a : Attn) (pass mts idxs : Nat) : List AttnTile :=
  (List.range a.g).flatMap fun g => (List.range idxs).flatMap fun i => (List.range mts).map fun m => ⟨pass, g, m, i⟩

/-- All tiles of an attention op, in the order of their K passes (R312). -/
def OpEntry.attnTiles (e : OpEntry) : List AttnTile :=
  let a := e.attn
  match e.opcode with
  | 0x20 => a.passTiles 0 a.mTiles (2 * a.perSection)
  | 0x21 => a.passTiles 1 a.mTiles a.perSection
  | 0x23 =>
    let kt := ceilDiv (512 * a.perSection) (max 1 a.stripRows)
    a.passTiles 2 a.mTiles (2 * a.perSection) ++ a.passTiles 3 a.mTiles (2 * a.perSection) ++
      a.passTiles 4 a.mTiles a.perSection ++ a.passTiles 5 1 kt ++ a.passTiles 6 1 kt
  | _ => []

/-- The K of a tile's pass. -/
def Attn.tileK (a : Attn) (t : AttnTile) : Nat :=
  if t.pass = 1 ∨ t.pass = 4 then 512 else if 5 ≤ t.pass then a.rows else a.d

/-- Does no token see a key of a score tile (R302). -/
def Attn.tileHidden (a : Attn) (mask : Mask) (t : AttnTile) : Bool :=
  (a.tileKeys t).all fun k => (List.range a.new).all fun i => !mask.visible i k

/-! ### Tango's own work beside the Hide -/

/-- Tango before it has begun an op. -/
def TangoRun.empty : TangoRun where
  mask := ⟨0, 0, [], [], []⟩
  bias := []
  qs := []
  dos := []
  os := []
  lse := []
  plan := []
  skipped := []
  pages := []
  asked := 0
  vals := []
  parts := []

/-- Tango's work on the op in progress. -/
def State.tango (s : State) : TangoRun := (s.ten.run.bind (·.tango)).getD .empty

/-- Change it. -/
def State.onTango (s : State) (f : TangoRun → TangoRun) : State :=
  s.onRun fun r => { r with tango := some (f (r.tango.getD .empty)) }

/-- A value of a row of a pass at a key. -/
def TangoRun.val (t : TangoRun) (pass g r k : Nat) : Option Nat :=
  (((t.vals.find? fun x => x.1 = (pass, g, r)).map (·.2)).getD []).find? (fun x => x.1 = k) |>.map (·.2)

/-- Values of a row are added. -/
def TangoRun.addVals (t : TangoRun) (key : Nat × Nat × Nat) (vs : List (Nat × Nat)) : TangoRun :=
  let old := ((t.vals.find? fun x => x.1 = key).map (·.2)).getD []
  { t with vals := (t.vals.filter fun x => x.1 ≠ key) ++ [(key, old ++ vs)] }

/-- The partial of a row and a chunk. -/
def TangoRun.part (t : TangoRun) (g r c : Nat) : AttnPart :=
  ((t.parts.find? fun x => x.1 = (g, r, c)).map (·.2)).getD ⟨[], 0xFF800000, 0⟩

/-- Keep the partial of a row and a chunk. -/
def TangoRun.putPart (t : TangoRun) (key : Nat × Nat × Nat) (p : AttnPart) : TangoRun :=
  { t with parts := (t.parts.filter fun x => x.1 ≠ key) ++ [(key, p)] }

/-! ### The cache (R285 to R288) -/

/-- The 64 KiB pages that some rows of the cache touch, in order, each with whether the access writes. -/
def Attn.rowPages (a : Attn) (base len : Nat) (isWrite : Bool) (ts : List Nat) : List (Nat × Bool) :=
  ts.flatMap fun t => [((base + t * a.rowLen) / 65536, isWrite), ((base + t * a.rowLen + len - 1) / 65536, isWrite)]

/-- The first access to each page. -/
def firstPages (ps : List (Nat × Bool)) : List (Nat × Bool) :=
  ps.foldl (fun seen p => if seen.any fun x => x.1 = p.1 then seen else seen ++ [p]) []

/-- The pages of the cache in the order of the op's accesses: the appended rows, then the tiles' rows. -/
def OpEntry.cachePages (e : OpEntry) (plan : List AttnTile) : List (Nat × Bool) :=
  let a := e.attn
  let own := if e.opcode = 0x20 then a.kBase else a.vBase
  firstPages ((if e.has 2 ∧ e.opcode ≠ 0x23 then a.rowPages own a.rowLen true ((List.range a.new).map (a.len + ·)) else []) ++
    plan.flatMap fun t =>
      if 5 ≤ t.pass then []
      else a.rowPages (if t.pass = 1 ∨ t.pass = 3 then a.vBase else a.kBase) a.rowData false (a.tileKeys t))

/-- Ask for the translation of pages up to number `upto` that have not been asked for and not been reached, from `k` on; a
fault ends nothing (R288). -/
def State.askPages (s : State) (ring : Nat) (a : Attn) (k upto : Nat) : State :=
  let t := s.tango
  let lo := max t.asked k
  let hi := min t.pages.length upto
  (((t.pages.drop lo).take (hi - lo)).foldl (fun s p =>
    (s.translate ring a.pid (65536 * p.1) p.2).1.count Reg.tngXlatAheadCount 1) s).onTango fun t =>
      { t with asked := max t.asked hi }

/-- AHEAD (R288). -/
def State.ahead (s : State) : Nat := min 64 (s.fget Reg.tngXlatCfg 6 0)

/-- Before the access to the page of address `at_`, the pages up to AHEAD beyond it are asked for. -/
def State.lookAhead (s : State) (ring : Nat) (a : Attn) (at_ : Nat) : State :=
  let k := s.tango.pages.findIdx fun p => p.1 = at_ / 65536
  s.askPages ring a (k + 1) (k + 1 + s.ahead)

/-- Read the cache row of token t. -/
def State.cacheRow (s : State) (ring : Nat) (a : Attn) (base t : Nat) : State × Except Nat (List Byte) :=
  let at_ := base + t * a.rowLen
  if 2 ^ 40 < at_ + a.rowData then (s, .error 6)
  else (s.lookAhead ring a (at_ + a.rowData - 1)).planeRead ring a.pid at_ a.rowData

/-- Write the row of one new token. -/
def State.appendRow (s : State) (ring : Nat) (a : Attn) (base t : Nat) (ls : List Line) : State × Nat :=
  let at_ := base + t * a.rowLen
  if 2 ^ 40 < at_ + a.rowLen then (s, 6)
  else
    match (s.lookAhead ring a (at_ + a.rowLen - 1)).planeWrite ring a.pid at_ (a.rowOf ls) with
    | (s, 0) => (s.bump Reg.tngAppendCount 1, 0)
    | (s, c) => (s, c)

/-- Append the rows of slot 2 (R294, R303); `turn` gives the rotation of a group's row at a position. -/
def State.appendRows (s : State) (ring : Nat) (e : OpEntry) (base : Nat)
    (turn : Nat → Nat → List Nat → List Nat) : State × Nat × OutCount :=
  let a := e.attn
  if !e.has 2 then (s, 0, OutCount.zero)
  else writeAll (fun s i =>
    match readAll (fun s g => s.readInputRow ring e 2 (g, i, 0)) s (List.range a.g) with
    | (s, .error c) => (s, c, OutCount.zero)
    | (s, .ok rows) =>
      let ls := (List.range a.g).map fun g => quantRow a.kv (turn g i (rows.getD g []))
      let (s, c) := s.appendRow ring a base (a.len + i) ls
      (s, c, OutCount.zero)) s (List.range a.new)

/-! ### Queries -/

/-- The rotary base of head q (R300). -/
def State.ropeBase (s : State) (ring : Nat) (e : OpEntry) : State × Except Nat (List Nat) :=
  let a := e.attn
  if e.opcode = 0x20 ∧ e.has 7 then s.readElems ring (e.tensor 7) 0 0 0 0 a.qh
  else (s, .ok (List.replicate a.qh a.base))

/-- The quantised query rows of slot k, by token and head (R294). -/
def State.queries (s : State) (ring : Nat) (e : OpEntry) (k : Nat) (bases pos : List Nat) :
    State × Except Nat (List (List Line)) :=
  let a := e.attn
  readAll (fun s i => readAll (fun s q =>
    match s.readInputRow ring e k (q, i, 0) with
    | (s, .error c) => (s, .error c)
    | (s, .ok vs) => (s, .ok (quantRow 3 (a.rotate (bases.getD q 0) (pos.getD i 0) false vs)))) s (List.range a.qh))
    s (List.range a.new)

/-- A query line. -/
def queryAt (qs : List (List Line)) (i q : Nat) : Line := (qs.getD i []).getD q ⟨[], []⟩

/-! ### The score pass (R294 to R297) -/

/-- A score before scale, bias and mask. -/
def Attn.raw (a : Attn) (q k : Line) : Nat := narrowReduce (operandFmt 3) (operandFmt a.kv) (pairBlocks q k)

/-- The probability record of a row and chunk. -/
structure ProbRec where
  codes : List Nat
  scales : List Nat
  m : Nat
  l : Nat
  deriving DecidableEq, Repr

/-- The exact sum of quantised values, rounded once (R296). -/
def Line.sum32 (l : Line) (fmt : Nat) : Nat := toF32 ((l.values fmt).foldl Num.add (.fin false 0 0))

/-- Softmax of the scores of a chunk's keys; hidden keys have −∞ (R296, R297). -/
def softRecord (ss : List Nat) : ProbRec :=
  let nan := ss.any fIsNan
  let m := if nan then fNan else ss.foldl fmaxR fNegInf
  let ps := ss.map fun v => if nan then fNan else if m = fNegInf then 0 else tangoExp (fsub v m)
  let q := quantRow 3 ps
  ⟨q.codes ++ List.replicate (512 - q.codes.length) 0,
    q.scales.map (·.getD 127) ++ List.replicate (16 - q.scales.length) 127,
    m, if nan then fNan else if m = fNegInf then 0 else q.sum32 3⟩

/-- The 544 bytes of a record. -/
def ProbRec.bytes (p : ProbRec) : List Byte :=
  p.codes.map (BitVec.ofNat 8) ++ p.scales.map (BitVec.ofNat 8) ++ natToBytes 4 p.m ++ natToBytes 4 p.l ++
    List.replicate 8 0

/-- A record from its bytes. -/
def recOf (bs : List Byte) : ProbRec :=
  ⟨(bs.take 512).map (·.toNat), ((bs.drop 512).take 16).map (·.toNat), descWord bs 0x210, descWord bs 0x214⟩

/-- The address of the record of row r of group g and chunk first + j (R297). -/
def Attn.recAt (a : Attn) (base g r j : Nat) : Nat := base + ((g * a.rows + r) * a.chunks + j) * 544

/-- The bias rows by head (R296). -/
def State.biasRows (s : State) (ring : Nat) (e : OpEntry) : State × Except Nat (List (List Nat)) :=
  if e.opcode = 0x20 ∧ e.has 3 then
    readAll (fun s q => s.readElems ring (e.tensor 3) q 0 0 0 e.attn.biasLen) s (List.range e.attn.qh)
  else (s, .ok [])

/-- The score of a visible key (R296). -/
def Attn.score (a : Attn) (mask : Mask) (bias : List (List Nat)) (i q t raw : Nat) : Nat :=
  let s := fmul raw a.scale
  match bias[q]? with
  | some row => fadd s (row.getD (min (mask.pos.getD i 0 - mask.keyPos t) (a.biasLen - 1)) 0)
  | none => s

/-- Write the record of row r of group g and chunk c (R297); keys without a score are hidden. -/
def State.scoreRecord (s : State) (ring : Nat) (e : OpEntry) (c g r : Nat) : State × Nat :=
  let a := e.attn
  let t := s.tango
  let i := a.tokenOf r
  let q := a.headOf g r
  let ss := (a.chunkKeys c).map fun k =>
    match t.val 0 g r k with
    | some raw => if t.mask.visible i k then a.score t.mask t.bias i q k raw else fNegInf
    | none => fNegInf
  s.planeWrite ring (e.tensor 0).pid (a.recAt (e.tensor 0).addr g r (c - a.first)) (softRecord ss).bytes

/-- Write the records of some rows of group g for some chunks. -/
def State.scoreRecords (s : State) (ring : Nat) (e : OpEntry) (g : Nat) (rows cs : List Nat) : State × Nat × OutCount :=
  writeAll (fun s (x : Nat × Nat) =>
    let (s, c) := s.scoreRecord ring e x.1 g x.2
    (s, c, OutCount.zero)) s (cs.flatMap fun c => rows.map fun r => (c, r))

/-- The sections and the fold of an attention op show from its start (R290). -/
def State.attnStart (s : State) (e : OpEntry) : State :=
  let a := e.attn
  (s.rset Reg.tngLastSplit (toWord (a.sections + 2 ^ 8 * a.foldLog + 2 ^ 16 * (a.chunks % 2 ^ 12)))).fset
    Reg.hidStatus 7 5 a.foldLog

/-- The end of an attention op's own work. -/
def State.attnDone (s : State) (c : Nat) : State := if c = 0 then s.runDone else s.runFail 3 c

/-- An attention op has prepared its operands: it fails, or its tiles follow; without a tile nothing is left to do. -/
def State.attnReady (s : State) (c : Nat) : State :=
  if c ≠ 0 ∨ s.tango.plan.isEmpty then s.attnDone c else s

/-- The tiles are known, and with them the pages of the cache; the first ones are asked for (R288). -/
def State.attnPlan (s : State) (ring : Nat) (e : OpEntry) (mask : Mask) (plan : List AttnTile) : State :=
  let s := s.onTango fun t => { t with mask := mask, plan := plan, pages := e.cachePages plan }
  s.askPages ring e.attn 0 s.ahead

/-- ATTN_SCORE prepares queries, new keys and biases (R294). -/
def State.scorePrep (s : State) (ring : Nat) (e : OpEntry) (pos : List Nat) : State × Nat :=
  let a := e.attn
  match s.ropeBase ring e with
  | (s, .error c) => (s, c)
  | (s, .ok bases) =>
    match s.queries ring e 1 bases pos with
    | (s, .error c) => (s, c)
    | (s, .ok qs) =>
      match s.appendRows ring e a.kBase fun g i vs => a.rotate (bases.getD (g * a.heads) 0) (pos.getD i 0) false vs with
      | (s, 0, _) =>
        match s.biasRows ring e with
        | (s, .error c) => (s, c)
        | (s, .ok bias) => (s.onTango fun t => { t with bias := bias, qs := qs }, 0)
      | (s, c, _) => (s, c)

/-- Chunks without a tile: their records are written at once (R302). -/
def State.hiddenRecords (s : State) (ring : Nat) (e : OpEntry) : State × Nat :=
  let a := e.attn
  let plan := s.tango.plan
  let cs := ((List.range a.chunks).map (a.first + ·)).filter fun c => plan.all fun t => !(a.tileChunks t).contains c
  let (s, c, _) := writeAll (fun s g => s.scoreRecords ring e g (List.range a.rows) cs) s (List.range a.g)
  (s, c)

/-- An ATTN_SCORE op starts (R294, R302). -/
def State.scoreRun (s : State) (e : OpEntry) (ring : Nat) : State :=
  match (s.attnStart e).positions ring e 6 with
  | (s, .error c) => s.attnDone c
  | (s, .ok pos) =>
    match s.readMask ring e pos with
    | (s, .error c) => s.attnDone c
    | (s, .ok mask) =>
      let s := s.attnPlan ring e mask (e.attnTiles.filter fun t => !e.attn.tileHidden mask t)
      match s.scorePrep ring e pos with
      | (s, 0) =>
        let (s, c) := s.hiddenRecords ring e
        s.attnReady c
      | (s, c) => s.attnDone c

/-- ATTN_SCORE (R294 to R297). -/
def execAttnScore (ring : Nat) (s : State) : Out := .next <| s.issue ring 0x20 fun s e => s.scoreRun e ring

/-! ### Alignment (R304) -/

/-- One 32-token block of one 32-dimension block: the shared code. -/
def sharedCode (cs : List Nat) : Nat := cs.foldl max 0

/-- An element re-expressed under the shared code. -/
def alignCode (fmt code scale shared : Nat) : Nat :=
  if scale = shared ∨ shared = 0xFF then code
  else ((operandFmt fmt).encode ((operandFmt fmt).decode code |>.scale ((scale : Int) - shared)) .nearest true).1

/-- Dimension dim of some tokens' lines as a line along the tokens, aligned. -/
def alignedLine (fmt dim : Nat) (ls : List Line) : Line :=
  let blocks := chunksOf 32 (ls.length + 1) ls
  let scaleOf (l : Line) : Nat := (l.scales.getD (dim / 32) none).getD 127
  let shared := blocks.map fun b => sharedCode (b.map scaleOf)
  ⟨(List.zipWith (fun b c => b.map fun l => alignCode fmt (l.codes.getD dim 0) (scaleOf l) c) blocks shared).flatten,
    shared.map some⟩

/-! ### The value pass (R303 to R306) -/

/-- The node operation (R305). -/
def AttnPart.merge (a b : AttnPart) : AttnPart :=
  if fIsNan a.m || fIsNan b.m then ⟨a.o.map fun _ => fNan, fNan, fNan⟩
  else if b.m = fNegInf then a
  else if a.m = fNegInf then b
  else
    let m := fmaxR a.m b.m
    let alpha := tangoExp (fsub a.m m)
    let beta := tangoExp (fsub b.m m)
    ⟨List.zipWith (fun x y => fadd (fmul x alpha) (fmul y beta)) a.o b.o, m, fadd (fmul a.l alpha) (fmul b.l beta)⟩

/-- The end of a row: O and lse, and whether it was empty (R305). -/
def AttnPart.finish (p : AttnPart) : List Nat × Nat × Bool :=
  if (f32 p.l).isZero then (p.o.map fun _ => 0, fNegInf, true)
  else (p.o.map fun x => fdiv x p.l, fadd p.m (tangoLn p.l), false)

/-- Write elements x0 onwards of a row of an attention output by a rule, through step 6 of the Edge unit (R293, R306). -/
def State.attnWrite (s : State) (ring : Nat) (u : OutRule) (t : Tensor) (tno i1 i2 x0 : Nat) (vs : List Nat) :
    State × Nat × OutCount :=
  match s.writeRowAs ring u t tno i1 i2 0 x0 (vs.map f32) with
  | (s, c, n) => (s.edgeCount n, c, n)

/-- Count a finished row (R305). -/
def State.countRow (s : State) (o : List Nat) (lse : Nat) (empty : Bool) : State :=
  let s := if empty then (s.count Reg.tngEmptyRowCount 1).flag Reg.tngStatus 6 else s
  if fIsNan lse || o.any fIsNan then (s.count Reg.tngNanRowCount 1).flag Reg.tngStatus 7 else s

/-- Finish and write the row of head q and token i (R305, R306): O in the op's own conversion, lse as it is. -/
def State.finishRow (s : State) (ring : Nat) (e : OpEntry) (stats : Bool) (i q : Nat) (p : AttnPart) :
    State × Nat × OutCount :=
  let (o, lse, empty) := p.finish
  match (s.countRow o lse empty).attnWrite ring (e.rule 0) (e.tensor 0) 0 q i 0 o with
  | (s, 0, n) => if stats then s.attnWrite ring exactRule (e.tensor 3) 1 i 0 q [lse] else (s, 0, n)
  | r => r

/-- Write the partial of head q and token i as it is (R306, FINAL = 0). -/
def State.partRow (s : State) (ring : Nat) (e : OpEntry) (i q : Nat) (p : AttnPart) : State × Nat × OutCount :=
  match s.attnWrite ring exactRule (e.tensor 0) 0 q i 0 p.o with
  | (s, 0, _) => s.attnWrite ring exactRule (e.tensor 3) 1 q i 0 [p.m, p.l]
  | r => r

/-- Row r of group g from the partials of all its chunks (R305). -/
def State.valueRow (s : State) (ring : Nat) (e : OpEntry) (g r : Nat) : State × Nat × OutCount :=
  let a := e.attn
  let t := s.tango
  let p := treeOf AttnPart.merge ⟨[], fNegInf, 0⟩ (a.chunks + 1) ((List.range a.chunks).map fun j => t.part g r (a.first + j))
  if a.final then s.finishRow ring e a.stats (a.tokenOf r) (a.headOf g r) p
  else s.partRow ring e (a.tokenOf r) (a.headOf g r) p

/-- m and l of the records of chunk c, by group and row. -/
def State.readStats (s : State) (ring : Nat) (e : OpEntry) (c : Nat) : State × Except Nat (List (List (Nat × Nat))) :=
  let a := e.attn
  let t := e.tensor 1
  readAll (fun s g => readAll (fun s r =>
    match s.planeRead ring t.pid (a.recAt t.addr g r (c - a.first) + 0x210) 8 with
    | (s, .error c) => (s, .error c)
    | (s, .ok bs) => (s, .ok (descWord bs 0, descWord bs 4))) s (List.range a.rows)) s (List.range a.g)

/-- A chunk that no row of the op sees is skipped: its partials are empty (R302). -/
def State.skipChunk (s : State) (e : OpEntry) (c : Nat) (stats : List (List (Nat × Nat))) : State :=
  let a := e.attn
  (s.count Reg.tngSkipCount 1).onTango fun t =>
    (List.range a.g).foldl (fun t g => (List.range a.rows).foldl (fun t r =>
      let (m, l) := (stats.getD g []).getD r (fNegInf, 0)
      t.putPart (g, r, c) ⟨List.replicate a.d 0, m, l⟩) t) { t with skipped := t.skipped ++ [c] }

/-- Which chunks ATTN_VALUE skips (R302). -/
def State.findSkips (s : State) (ring : Nat) (e : OpEntry) : State × Except Nat (List Unit) :=
  readAll (fun s c =>
    match s.readStats ring e c with
    | (s, .error c) => (s, .error c)
    | (s, .ok stats) =>
      (if stats.all fun rs => rs.all fun x => x.1 = fNegInf then s.skipChunk e c stats else s, .ok ())) s
    ((List.range e.attn.chunks).map (e.attn.first + ·))

/-- An ATTN_VALUE op starts (R302, R303). -/
def State.valueRun (s : State) (e : OpEntry) (ring : Nat) : State :=
  let a := e.attn
  match ((s.attnStart e).onTango id).findSkips ring e with
  | (s, .error c) => s.attnDone c
  | (s, .ok _) =>
    let skipped := s.tango.skipped
    let s := s.attnPlan ring e s.tango.mask (e.attnTiles.filter fun t => !(a.tileChunks t).all skipped.contains)
    match s.appendRows ring e a.vBase fun _ _ vs => vs with
    | (s, 0, _) =>
      if s.tango.plan.isEmpty then
        let (s, c, _) := writeAll (fun s g => writeAll (fun s r => s.valueRow ring e g r) s (List.range a.rows)) s
          (List.range a.g)
        s.attnDone c
      else s
    | (s, c, _) => s.attnDone c

/-- ATTN_VALUE (R303 to R306). -/
def execAttnValue (ring : Nat) (s : State) : Out := .next <| s.issue ring 0x21 fun s e => s.valueRun e ring

/-! ### ATTN_MERGE (R307) -/

def OpEntry.mergeParts (e : OpEntry) : Nat := descField e.desc 0x40 4 0
def OpEntry.mergeTotal (e : OpEntry) : Nat := descField e.desc 0x44 11 0
def OpEntry.mergeBound (e : OpEntry) (p : Nat) : Nat :=
  if p < e.mergeParts then bytesToNat ((e.desc.drop (0x50 + 2 * p)).take 2) else e.mergeTotal

/-- The part that covers exactly chunks a to b − 1. -/
def OpEntry.partNode (e : OpEntry) (a b : Nat) : Option Nat :=
  (List.range e.mergeParts).find? fun p => e.mergeBound p = a && e.mergeBound (p + 1) = b

/-- The canonical tree over chunks a to b − 1 from the parts at its nodes; none where a part is no node. -/
def OpEntry.mergeNode (e : OpEntry) (ps : List AttnPart) : Nat → Nat → Nat → Option AttnPart
  | 0, _, _ => none
  | fuel + 1, a, b =>
    match e.partNode a b with
    | some p => ps[p]?
    | none =>
      if b ≤ a + 1 then none
      else
        let m := a + 2 ^ (ceilLog2 (b - a) - 1)
        match e.mergeNode ps fuel a m, e.mergeNode ps fuel m b with
        | some x, some y => some (x.merge y)
        | _, _ => none

/-- The parts of a row merged. -/
def OpEntry.mergeRow (e : OpEntry) (ps : List AttnPart) : AttnPart :=
  match e.mergeNode ps 14 0 e.mergeTotal with
  | some p => p
  | none =>
    match ps with
    | [] => ⟨[], fNegInf, 0⟩
    | p :: rest => rest.foldl AttnPart.merge p

/-- Read part p of a row. -/
def State.readPart (s : State) (ring : Nat) (e : OpEntry) (row p : Nat) : State × Except Nat AttnPart :=
  match s.readF32 ring (e.tensor 1) row p 0 with
  | (s, .error c) => (s, .error c)
  | (s, .ok o) =>
    match s.readF32 ring (e.tensor 2) row p 0 with
    | (s, .error c) => (s, .error c)
    | (s, .ok ml) => (s, .ok ⟨o, ml.getD 0 0, ml.getD 1 0⟩)

/-- An ATTN_MERGE op runs. -/
def State.mergeRun (s : State) (e : OpEntry) (ring : Nat) : State :=
  let t := e.tensor 0
  let (s, c, _) := writeAll (fun s i => writeAll (fun s q =>
      match readAll (fun s p => s.readPart ring e (i * t.d1 + q) p) s (List.range e.mergeParts) with
      | (s, .error c) => (s, c, OutCount.zero)
      | (s, .ok ps) => s.finishRow ring e (decide (descField e.desc 0x44 16 16 = 1)) i q (e.mergeRow ps)) s
        (List.range t.d1)) s (List.range t.d2)
  s.attnDone c

/-- ATTN_MERGE (R307). -/
def execAttnMerge (ring : Nat) (s : State) : Out := .next <| s.issue ring 0x22 fun s e => s.mergeRun e ring

/-! ### The backward pass (R310, R311) -/

/-- A matrix quantised with square scales (R228, R310): codes by row, and scale codes by square. -/
structure SquareQuant where
  codes : List (List Nat)
  scales : List (List Nat)
  deriving DecidableEq, Repr

/-- Quantise rows of n values. -/
def squareQuant (fmt n : Nat) (rows : List (List Nat)) : SquareQuant :=
  let bands := chunksOf 32 (rows.length + 1) rows
  let scales := bands.map fun b => (List.range (ceilDiv n 32)).map fun k =>
    blockScale fmt ((b.map fun r => ((r.drop (32 * k)).take 32).map f32).flatten)
  ⟨(List.range rows.length).map fun i => (List.range n).map fun j =>
      ((blockEncode fmt ((scales.getD (i / 32) []).getD (j / 32) 127) [(f32 ((rows.getD i []).getD j 0), .nearest)]).map
        (·.1)).headD 0,
    scales⟩

/-- Row i and column j of a quantised matrix as lines. -/
def SquareQuant.row (m : SquareQuant) (i : Nat) : Line := ⟨m.codes.getD i [], (m.scales.getD (i / 32) []).map some⟩
def SquareQuant.col (m : SquareQuant) (j : Nat) : Line :=
  ⟨m.codes.map fun r => r.getD j 0, m.scales.map fun r => some (r.getD (j / 32) 127)⟩

/-- A block of rows at one dimension, as (scale, code) pairs: the scale code and the element codes along the rows. Rows that
differ in scale are aligned as the part does it (R310 does not say how: log entry 21). -/
def crossBlock (fmt : Nat) (xs : List (Nat × Nat)) : Nat × List Nat :=
  if (xs.map (·.1)).dedup.length ≤ 1 then ((xs.map (·.1)).headD 127, xs.map (·.2))
  else
    let v := Config.rowAlign fmt xs
    (v.headD 127 % 256, (List.range xs.length).map fun i => v.getD (i + 1) 0 % 2 ^ fmtBits fmt)

/-- Dimension x of rows with scales along the dimension, as a line along the rows. -/
def crossLine (fmt x : Nat) (ls : List Line) : Line :=
  let bs := (chunksOf 32 (ls.length + 1) ls).map fun b =>
    crossBlock fmt (b.map fun l => ((l.scales.getD (x / 32) none).getD 127, l.codes.getD x 0))
  ⟨(bs.map (·.2)).flatten, bs.map fun b => some b.1⟩

/-- Write a gradient row, added to what is there with ACCUM = 1 (R311). -/
def State.gradWrite (s : State) (ring : Nat) (e : OpEntry) (k i1 i2 : Nat) (vs : List Nat) : State × Nat × OutCount :=
  if !e.attn.accum then s.attnWrite ring (e.rule k) (e.tensor k) k i1 i2 0 vs
  else
    match s.readF32 ring (e.tensor k) i1 i2 0 with
    | (s, .error c) => (s, c, OutCount.zero)
    | (s, .ok old) => s.attnWrite ring (e.rule k) (e.tensor k) k i1 i2 0 (List.zipWith fadd old vs)

/-- Read by token and head. -/
def State.readHeads {α : Type} (s : State) (a : Attn) (f : State → Nat → Nat → State × Except Nat α) :
    State × Except Nat (List (List α)) :=
  readAll (fun s i => readAll (fun s q => f s q i) s (List.range a.qh)) s (List.range a.new)

/-- ATTN_BWD reads slots 3 to 6 before its first product step. -/
def State.bwdPrep (s : State) (ring : Nat) (e : OpEntry) (pos : List Nat) : State × Nat :=
  let a := e.attn
  match s.queries ring e 3 (List.replicate a.qh a.base) pos with
  | (s, .error c) => (s, c)
  | (s, .ok qs) =>
    match s.readHeads a fun s q i => s.readLine ring (e.tensor 4) q i 0 with
    | (s, .error c) => (s, c)
    | (s, .ok dos) =>
      match s.readHeads a fun s q i => s.readInputRow ring e 5 (q, i, 0) with
      | (s, .error c) => (s, c)
      | (s, .ok os) =>
        match readAll (fun s i => s.readElems ring (e.tensor 6) i 0 0 0 a.qh) s (List.range a.new) with
        | (s, .error c) => (s, c)
        | (s, .ok lse) => (s.onTango fun t => { t with qs := qs, dos := dos, os := os, lse := lse }, 0)

/-- An ATTN_BWD op starts. -/
def State.bwdRun (s : State) (e : OpEntry) (ring : Nat) : State :=
  match (s.attnStart e).positions ring e 7 with
  | (s, .error c) => s.attnDone c
  | (s, .ok pos) =>
    match s.readMask ring e pos with
    | (s, .error c) => s.attnDone c
    | (s, .ok mask) =>
      let (s, c) := (s.attnPlan ring e mask e.attnTiles).bwdPrep ring e pos
      s.attnReady c

/-- ATTN_BWD (R310, R311). -/
def execAttnBwd (ring : Nat) (s : State) : Out := .next <| s.issue ring 0x23 fun s e => s.bwdRun e ring

/-- Σ over d of dO × O, in FP32 by the canonical chunks (R310). -/
def OpEntry.drow (e : OpEntry) (t : TangoRun) (i q : Nat) : Nat :=
  let dO := (queryAt t.dos i q).toF32s 4 (fun _ => .nearest) e.saturates
  mergeTree fadd 2 ((chunksOf 512 (e.attn.d + 1) (List.zip dO ((t.os.getD i []).getD q []))).map fun c =>
    c.foldl (fun acc p => fadd acc (fmul p.1 p.2)) 0)

/-- p of row r and key k from the drained score; hidden keys have 0 (R310). -/
def Attn.bwdProb (a : Attn) (t : TangoRun) (g r k raw : Nat) : Nat :=
  let i := a.tokenOf r
  if t.mask.visible i k then
    tangoExp (fsub (fmul raw a.scale) ((t.lse.getD i []).getD (a.headOf g r) 0))
  else 0

/-- p (pass 2) or dS (pass 3) of a group by row and key of the op, quantised with square scales (R310). -/
def Attn.bwdMatrix (a : Attn) (t : TangoRun) (pass g : Nat) : SquareQuant :=
  squareQuant (if pass = 2 then 3 else 4) a.opKeys.length
    ((List.range a.rows).map fun r => a.opKeys.map fun k => (t.val pass g r k).getD 0)

/-! ### The K passes of an attention op (R293 to R295, R303, R310) -/

/-- A line of zeros for a column without a key (R170). -/
def Attn.zeroLine (a : Attn) : Line := ⟨List.replicate a.d 0, List.replicate (a.d / 32) (some 127)⟩

/-- The N side of a tile whose columns are keys: group g of the cache row of each, strip by strip. -/
def State.keyColumns (s : State) (ring : Nat) (a : Attn) (t : AttnTile) : State × Except Nat (List Line) :=
  readAll (fun s (x : Nat × Nat) =>
    match a.colKey t x.1 x.2 with
    | none => (s, .ok a.zeroLine)
    | some k =>
      match s.cacheRow ring a (if t.pass = 3 then a.vBase else a.kBase) k with
      | (s, .error c) => (s, .error c)
      | (s, .ok row) => (s, .ok (a.groupLine row t.grp))) s
    ((List.range a.sections).flatMap fun st => (List.range 256).map fun col => (st, col))

/-- The tile of a pass with keys as columns (passes 0, 2 and 3): one M side for all strips, with its checksum cells. -/
def State.broadTile (s : State) (r : RunOp) (t : AttnTile) : State × Except Nat TileData :=
  let a := r.op.attn
  let w := s.tango
  let src := if t.pass = 3 then w.dos else w.qs
  let fa := if t.pass = 3 then 4 else 3
  let ms := (a.tileRows t).map fun row => queryAt src (a.tokenOf row) (a.headOf t.grp row)
  match s.keyColumns r.ring a t with
  | (s, .error c) => (s, .error c)
  | (s, .ok ns) =>
    let (rows, cols, corner) := if r.chk.isSome then tileChecks 0 a.d fa a.kv ms ns else ([], [], 0)
    (s, .ok ⟨tileCells 0 (operandFmt fa) (operandFmt a.kv) ms ns, ns.length, rows, cols, corner⟩)

/-- The sets of one strip of a pass with an M side per strip: D columns, the others gated (R293, R303). -/
def stripCells (fa fb : Nat) (m : Option Line) (ns : List Line) : List AccSet :=
  (List.range 256).map fun x =>
    match m, ns[x]? with
    | some m, some n => treeSet (operandFmt fa) (operandFmt fb) (pairBlocks m n)
    | _, _ => .empty

/-- The aligned N side of a chunk: one line per dimension (R304). -/
def State.chunkLines (s : State) (ring : Nat) (a : Attn) (base g c : Nat) : State × Except Nat (List Line) :=
  match readAll (fun s k => s.cacheRow ring a base k) s (a.chunkKeys c) with
  | (s, .error e) => (s, .error e)
  | (s, .ok rows) =>
    let ls := rows.map fun row => a.groupLine row g
    (s, .ok ((List.range a.d).map fun x => alignedLine a.kv x ls))

/-- The M side of strip st's chunk c: the probability records of ATTN_VALUE, whose m and l are kept; or rows of dS. -/
def State.chunkRowsM (s : State) (r : RunOp) (t : AttnTile) (c : Nat) : State × Except Nat (List Line) :=
  let a := r.op.attn
  let n := (a.chunkKeys c).length
  if t.pass = 4 then
    let dS := a.bwdMatrix s.tango 3 t.grp
    let k0 := 512 * (c - a.first)
    (s, .ok ((a.tileRows t).map fun row =>
      let l := dS.row row
      ⟨(l.codes.drop k0).take n, (l.scales.drop (k0 / 32)).take (ceilDiv n 32)⟩))
  else
    let x := r.op.tensor 1
    readAll (fun s row =>
      match s.planeRead r.ring x.pid (a.recAt x.addr t.grp row (c - a.first)) 544 with
      | (s, .error e) => (s, .error e)
      | (s, .ok bs) =>
        let p := recOf bs
        (s.onTango fun w => w.putPart (t.grp, row, c) ⟨[], p.m, p.l⟩,
          .ok ⟨p.codes.take n, (p.scales.take (ceilDiv n 32)).map some⟩)) s (a.tileRows t)

/-- Strip st of a tile with keys as the reduction dimension (passes 1 and 4): its M side and its N side; nothing for a
strip without a chunk, or whose chunk is skipped. -/
def State.chunkStrip (s : State) (r : RunOp) (t : AttnTile) (st : Nat) : State × Except Nat (List Line × List Line) :=
  let a := r.op.attn
  match (a.tileChunk t st).filter fun c => !s.tango.skipped.contains c with
  | none => (s, .ok ([], []))
  | some c =>
    match s.chunkRowsM r t c with
    | (s, .error e) => (s, .error e)
    | (s, .ok ms) =>
      match s.chunkLines r.ring a (if t.pass = 1 then a.vBase else a.kBase) t.grp c with
      | (s, .error e) => (s, .error e)
      | (s, .ok ns) => (s, .ok (ms, ns))

/-- Strip st of a tile with keys as rows (passes 5 and 6): columns of p or dS, and dO or the queries along the rows of the
group. -/
def Attn.rowStrip (a : Attn) (w : TangoRun) (t : AttnTile) (st : Nat) : List Line × List Line :=
  let mat := a.bwdMatrix w (if t.pass = 5 then 2 else 3) t.grp
  let src := (List.range a.rows).map fun r => queryAt (if t.pass = 5 then w.dos else w.qs) (a.tokenOf r) (a.headOf t.grp r)
  ((List.range a.stripRows).filterMap fun m => (a.rowKey t st m).map fun k => mat.col (k - 512 * a.first),
    (List.range a.d).map fun x => crossLine (if t.pass = 5 then 4 else 3) x src)

/-- The formats of the two sides of a pass with an M side per strip. -/
def Attn.stripFmts (a : Attn) (t : AttnTile) : Nat × Nat :=
  match t.pass with
  | 1 => (3, a.kv)
  | 4 => (4, a.kv)
  | 5 => (3, 4)
  | _ => (4, 3)

/-- The tile of a pass with an M side per strip. The sums of R192 are not defined for it. -/
def State.stripTile (s : State) (r : RunOp) (t : AttnTile) : State × Except Nat TileData :=
  let a := r.op.attn
  let w := s.tango
  let (fa, fb) := a.stripFmts t
  match readAll (fun s st => if 5 ≤ t.pass then (s, .ok (a.rowStrip w t st)) else s.chunkStrip r t st) s
      (List.range a.sections) with
  | (s, .error c) => (s, .error c)
  | (s, .ok strips) =>
    (s, .ok ⟨((List.range a.stripRows).map fun m => strips.flatMap fun x => stripCells fa fb x.1[m]? x.2).flatten,
      256 * a.sections, [], [], 0⟩)

/-- The K pass of the next tile may end: p and dS of the group are drained before a pass reduces over them. -/
def RunOp.tileFed (r : RunOp) (plan : List AttnTile) (t : AttnTile) : Bool :=
  t.pass < 4 || (plan.drop r.drained).all fun x => !(decide (x.pass = 2 ∨ x.pass = 3) && decide (x.grp = t.grp))

/-- The preparation cycles (R294, R312). -/
def OpEntry.attnPrep (e : OpEntry) : Nat :=
  let a := e.attn
  let q := a.new * a.qh * a.d
  let n := if e.has 2 then a.new * a.g * a.d else 0
  match e.opcode with
  | 0x20 => ceilDiv (q + n) 256
  | 0x21 => ceilDiv n 256
  | 0x23 => ceilDiv q 256
  | _ => 0

/-- A K pass of an attention op ends (R295, R303): its operands are read, and each chunk that a first tile covers counts as
processed. -/
def State.attnPass (s : State) (r : RunOp) (operandWait drainWait : Nat) : State :=
  let a := r.op.attn
  let plan := s.tango.plan
  match plan[r.passes]? with
  | none => s
  | some t =>
    if !r.tileFed plan t then s
    else
      match if t.pass = 0 ∨ t.pass = 2 ∨ t.pass = 3 then s.broadTile r t else s.stripTile r t with
      | (s, .error c) => s.runFail 3 c
      | (s, .ok td) =>
        let seen := (plan.take r.passes).flatMap a.tileChunks
        let fresh := ((a.tileChunks t).filter fun c => !seen.contains c && !s.tango.skipped.contains c).length
        let (streaming, tail) := passCycles 0 3 3 (a.tileK t)
        let s := (s.bump Reg.tngChunkCount fresh).passCount (decide (r.passes = 0)) (24 + r.op.attnPrep) streaming tail
          operandWait drainWait
        (s.onRun fun r => { r with passes := r.passes + 1 }.swap td).syncPhase (r.passes + 1) plan.length

/-! ### Drains of an attention op (R293, R296, R305, R310) -/

/-- The drained values of row m in the strip and columns of `f`: (key, value). -/
def drainedKeys (a : Attn) (t : AttnTile) (results : List Int) (m : Nat) : List (Nat × Nat) :=
  (List.range a.sections).flatMap fun st => (List.range 256).filterMap fun col =>
    (a.colKey t st col).map fun k => (k, (results.getD (m * (256 * a.sections) + 256 * st + col) 0).toNat)

/-- The D drained values of row m in strip st. -/
def drainedDims (a : Attn) (results : List Int) (m st : Nat) : List Nat :=
  (List.range a.d).map fun x => (results.getD (m * (256 * a.sections) + 256 * st + x) 0).toNat

/-- Does a later tile of the op serve the same rows of the same pass, and the same chunks where `sameChunk`. -/
def laterTile (rest : List AttnTile) (t : AttnTile) (sameChunk : Bool) : Bool :=
  rest.any fun x => x.pass = t.pass && x.grp = t.grp && x.mt = t.mt && (!sameChunk || x.idx / 2 == t.idx / 2)

/-- NaNs that a drained tile brings in its used cells (R190, R293). -/
def nansIn (vs : List Nat) : Nat := (vs.filter fIsNan).length

/-- Drained scores, dP included: raw scores of ATTN_SCORE, p or dS of ATTN_BWD are kept. -/
def State.keepKeys (s : State) (e : OpEntry) (t : AttnTile) (results : List Int) : State :=
  let a := e.attn
  (List.range (a.tileRows t).length).foldl (fun s m =>
    let r := t.mt * a.stripRows + m
    let vs := drainedKeys a t results m
    let w := s.tango
    let kept := vs.map fun x => (x.1, match t.pass with
      | 0 => x.2
      | 2 => a.bwdProb w t.grp r x.1 x.2
      | _ => fmul (fmul ((w.val 2 t.grp r x.1).getD 0) (fsub x.2 (e.drow w (a.tokenOf r) (a.headOf t.grp r)))) a.scale)
    (s.count Reg.hidEdgeNanInCount (nansIn (vs.map (·.2)))).onTango fun w => w.addVals (t.pass, t.grp, r) kept) s

/-- Drained partials of the rows of a tile, by chunk. -/
def State.keepParts (s : State) (e : OpEntry) (t : AttnTile) (results : List Int) : State :=
  let a := e.attn
  (List.range (a.tileRows t).length).foldl (fun s m =>
    (List.range a.sections).foldl (fun s st =>
      match (a.tileChunk t st).filter fun c => !s.tango.skipped.contains c with
      | none => s
      | some c =>
        let r := t.mt * a.stripRows + m
        let o := drainedDims a results m st
        (s.count Reg.hidEdgeNanInCount (nansIn o)).onTango fun w =>
          w.putPart (t.grp, r, c) { w.part t.grp r c with o := o }) s) s

/-- A row of dQ from the partials of its chunks (R145, R146, R310). -/
def State.dqRow (s : State) (ring : Nat) (e : OpEntry) (g r : Nat) : State × Nat × OutCount :=
  let a := e.attn
  let w := s.tango
  let ps := (List.range a.chunks).map fun j => (w.part g r (a.first + j)).o
  let o := (List.range a.d).map fun x =>
    mergeTree (fun u v => accumulate u (f32 v)) (ps.length + 1) (ps.map fun p => p.getD x 0)
  s.gradWrite ring e 0 (a.headOf g r) (a.tokenOf r) (a.rotate a.base (w.mask.pos.getD (a.tokenOf r) 0) true o)

/-- The drained rows of dV and dK (R310). -/
def State.keyGrads (s : State) (ring : Nat) (e : OpEntry) (t : AttnTile) (results : List Int) : State × Nat × OutCount :=
  let a := e.attn
  let w := s.tango
  writeAll (fun s (x : Nat × Nat) =>
    match a.rowKey t x.1 x.2 with
    | none => (s, 0, OutCount.zero)
    | some k =>
      let o := drainedDims a results x.2 x.1
      let s := s.count Reg.hidEdgeNanInCount (nansIn o)
      if t.pass = 5 then s.gradWrite ring e 2 t.grp (k - 512 * a.first) o
      else s.gradWrite ring e 1 t.grp (k - 512 * a.first) (a.rotate a.base (w.mask.keyPos k) true o)) s
    ((List.range a.sections).flatMap fun st => (List.range a.stripRows).map fun m => (st, m))

/-- What the drain of a tile gives and writes: records once a chunk's last tile has drained, rows once their last chunk
has. -/
def State.attnOut (s : State) (ring : Nat) (e : OpEntry) (t : AttnTile) (rest : List AttnTile) (results : List Int) :
    State × Nat × OutCount :=
  let a := e.attn
  let rows := a.tileRows t
  match t.pass with
  | 0 =>
    let s := s.keepKeys e t results
    if laterTile rest t true then (s, 0, OutCount.zero) else s.scoreRecords ring e t.grp rows (a.tileChunks t)
  | 2 | 3 => (s.keepKeys e t results, 0, OutCount.zero)
  | 1 =>
    let s := s.keepParts e t results
    if laterTile rest t false then (s, 0, OutCount.zero) else writeAll (fun s r => s.valueRow ring e t.grp r) s rows
  | 4 =>
    let s := s.keepParts e t results
    if laterTile rest t false then (s, 0, OutCount.zero) else writeAll (fun s r => s.dqRow ring e t.grp r) s rows
  | _ => s.keyGrads ring e t results

/-- The check of a drained tile with an M side per strip, for which the spec gives no sums: its outcome is free (log entry
47). -/
def State.checkStrips (s : State) (r : RunOp) : State :=
  if r.chk.isNone then s
  else
    let (k, s) := s.drawNat
    let bad := if k % 2 = 1 then some (k / 2 % 3, k / 8 % 256) else none
    (s.noteCheck r r.drained bad).onRun fun r => { r with mismatch := r.mismatch || bad.isSome }

/-- The drain of an attention tile ends. -/
def State.attnDrain (s : State) (r : RunOp) (td : TileData) (corrupt : List (Nat × Nat × Nat)) : State :=
  let a := r.op.attn
  let plan := s.tango.plan
  let results := faultyResults (td.results 0) td.cols false corrupt
  match plan[r.drained]? with
  | none => s.onRun RunOp.drain
  | some t =>
    let s := if t.pass = 0 ∨ t.pass = 2 ∨ t.pass = 3 then s.checkTile r td results false a.stripRows else s.checkStrips r
    let (s, c, _) := s.attnOut r.ring r.op t (plan.drop (r.drained + 1)) results
    let s := s.bump Reg.hidTileCount 1
    if c ≠ 0 ∧ r.code = 0 then (s.onRun fun r => { r with held := false }.drain).runFail 3 c
    else s.onRun fun r => { r.drain with finished := r.finished || decide (r.drained + 1 = plan.length) }

/-! ### Tile commands -/

/-- TILE_K_PASS_END (R175, R176): with the cycles that the pass waited for operands and its swap for the drain. -/
def execTileKPassEnd (operandWait drainWait : Nat) (s : State) : Out :=
  .next <|
    match s.ten.run with
    | none => s
    | some r =>
      if r.code ≠ 0 ∨ r.held then s
      else if isMatrix r.op.opcode then
        (if r.passes < r.op.tiles then s.matrixPass r operandWait drainWait else s)
      else if usesHide r.op.opcode then s.attnPass r operandWait drainWait
      else s

/-- TILE_DRAIN_END (R177, R193, R195): with the drained results that a fault changed. -/
def execTileDrainEnd (corrupt : List (Nat × Nat × Nat)) (s : State) : Out :=
  .next <|
    match s.ten.run with
    | none => s
    | some r =>
      match r.shadow with
      | none => s
      | some td => if isMatrix r.op.opcode then s.matrixDrain r td corrupt else s.attnDrain r td corrupt

/-! ### Registers (R282, R316) -/

/-- The write rule of the TNG_ block. -/
def State.tngWrite (s : State) (o : Nat) (v : Word) : State :=
  if o = 4 then s.unitEnable Reg.tngCtrl 3 v
  else if o = 0x860 then s.stallClrWrite (stallBase .tng) v
  else s.putTyped (0x10330000 + o) v 0

/-- TANGO_DISABLE (R316). -/
def execTangoDisable (who : Initiator) (s : State) : Out :=
  .next (s.softWrite who Reg.tngCtrl 0 fun s v => s.unitEnable Reg.tngCtrl 3 v)

/-- TANGO_ENABLE (R316). -/
def execTangoEnable (who : Initiator) (s : State) : Out :=
  .next (s.softWrite who Reg.tngCtrl 1 fun s v => s.unitEnable Reg.tngCtrl 3 v)

end Sys2Proof.Machine
end

