-- ==== Sys2Proof/Machine/Checks.lean ====
section
/-!
DEFINITION. Machine/Checks.lean: the checks of an op descriptor in the order of R263, and the estimates of R249.
-/

namespace Sys2Proof.Machine

/-! ### Reserved fields (R252, steps 5 and 9) -/

/-- The 32-bit words at offsets lo, lo + 4, … below hi. -/
def wholeWords (lo hi : Nat) : List (Nat × Nat × Nat) := (List.range ((hi - lo) / 4)).map fun i => (lo + 4 * i, 31, 0)

/-- The fields of every opcode that must be 0. -/
def OpEntry.commonZero (e : OpEntry) : List (Nat × Nat × Nat) :=
  [(0, 19, 19), (0, 31, 25), (4, 31, 24), (8, 31, 22), (0x14, 31, 16), (0x18, 31, 8), (0x1C, 31, 0), (0x20, 31, 16),
    (0x28, 31, 16), (0x30, 31, 16), (0x38, 31, 16)] ++
  (if descField e.desc 0 24 24 = 0 then [(8, 21, 16)] else []) ++
  (if e.stochastic then [] else [(0xC, 31, 0)])

/-- Common fields that NOP and FENCE do not use. -/
def noTensors : List (Nat × Nat × Nat) :=
  [(0, 20, 20), (0, 21, 21), (0, 22, 22), (0xC, 31, 0), (0x10, 31, 0), (0x14, 31, 0), (0x18, 7, 0)]

/-- The fields of R278 that a golden run's descriptor holds at 0. -/
def goldenZero : List (Nat × Nat × Nat) := wholeWords 0x20 0x40 ++ [(0, 24, 24), (8, 21, 16), (0, 23, 23)]

/-- MATMUL, CONV and GOLDEN. -/
def OpEntry.matrixZero (e : OpEntry) : List (Nat × Nat × Nat) :=
  let act := descField e.desc 0x4C 3 0
  [(0x4C, 31, 4), (0x58, 7, 1), (0x58, 31, 16), (0x6C, 31, 0)] ++
  (if act = 2 ∨ act = 3 then [] else [(0x50, 31, 0)]) ++
  (if act = 2 then [] else [(0x54, 31, 0)]) ++
  (if e.opcode = 0x12 then [(0x58, 0, 0)] else [(0x58, 15, 8)]) ++
  (if e.opcode = 0x11 then [] else wholeWords 0x5C 0x6C) ++
  (if e.reelEn then [(0x70, 31, 8)] ++ wholeWords 0x74 0x80 else wholeWords 0x70 0x80)

/-- The attention opcodes (R308). -/
def OpEntry.attnZero (e : OpEntry) : List (Nat × Nat × Nat) :=
  let shared := [(0x40, 15, 10), (0x44, 31, 19), (0x48, 31, 19), (0x58, 15, 12), (0x58, 31, 28)] ++
    wholeWords 0x5C 0x60 ++ wholeWords 0x70 0x80
  match e.opcode with
  | 0x20 => shared ++ [(0x48, 18, 16), (0x60, 3, 0)] ++ wholeWords 0x68 0x70 ++
      (if e.has 3 then [(0x54, 31, 17)] else [(0x54, 31, 0)])
  | 0x21 => shared ++ [(0x48, 15, 4), (0x48, 18, 18), (0x68, 3, 0)] ++ wholeWords 0x4C 0x58 ++ wholeWords 0x60 0x68 ++
      (if e.attn.final then [] else [(0x48, 17, 17)])
  | 0x23 => shared ++ [(0x48, 17, 16), (0x54, 31, 0), (0x60, 3, 0), (0x68, 3, 0)]
  | _ => [(0x40, 31, 5), (0x44, 15, 12), (0x44, 31, 17)] ++ wholeWords 0x48 0x50 ++ wholeWords 0x70 0x80

/-- The fields of bytes 0x40 to 0x7F that must be 0, and the common fields that the opcode does not use. -/
def OpEntry.ownZero (e : OpEntry) : List (Nat × Nat × Nat) :=
  match e.opcode with
  | 0x00 => noTensors ++ wholeWords 0x40 0x80
  | 0x01 => noTensors ++ [(0x40, 31, 1)] ++ wholeWords 0x44 0x80
  | 0x10 | 0x11 | 0x12 => e.matrixZero
  | 0x20 | 0x21 | 0x22 | 0x23 => e.attnZero
  | 0x30 => [(0x40, 31, 11), (0x4C, 31, 7)] ++ wholeWords 0x50 0x80
  | 0x31 =>
    [(0x40, 3, 3), (0x40, 31, 14)] ++ wholeWords 0x54 0x80 ++
    (if descField e.desc 0x18 2 2 = 1 then [(0x44, 31, 0)] else []) ++
    (if descField e.desc 0x18 3 3 = 1 ∨ !eltUsesC e.eltOpc then [(0x48, 31, 0)] else []) ++
    (if e.reduce = 0 then wholeWords 0x4C 0x54 else [])
  | 0x40 => [(0x40, 31, 13), (0x48, 31, 5)] ++ wholeWords 0x50 0x80
  | _ =>
    [(0, 20, 20), (0x40, 31, 2)] ++ wholeWords 0x44 0x5C ++ wholeWords 0x6C 0x80 ++
    (if descField e.desc 0x40 1 0 = 2 then [] else wholeWords 0x5C 0x6C)

/-- Is a field that must be 0 nonzero (step 5). XFORM 3 is no transform (log entry 20). -/
def OpEntry.reservedBad (e : OpEntry) (golden : Bool) : Bool :=
  (e.commonZero ++ e.ownZero ++ (if golden then goldenZero else [])).any (fun f => descField e.desc f.1 f.2.1 f.2.2 ≠ 0) ||
    (decide (e.opcode = 0x50) && decide (descField e.desc 0x40 1 0 = 3))

/-- Step 9. -/
def tensorReserved (d : List Byte) : Bool :=
  [(0, 31, 18), (4, 31, 17), (0xC, 31, 16)].any fun f : Nat × Nat × Nat => descField d f.1 f.2.1 f.2.2 ≠ 0

/-! ### Tensor descriptors and slots (R257, R201, step 12) -/

/-- FP8, FP6 and FP4. -/
def narrowFloat (fmt : Nat) : Bool := decide (3 ≤ fmt ∧ fmt ≤ 7)

/-- Every element format but the fixed-point ones. -/
def anyFloatOrInt (fmt : Nat) : Bool := decide (fmt ≤ 9)

/-- Does a tensor have these extents. -/
def Tensor.shaped (t : Tensor) (d0 d1 d2 d3 : Nat) : Bool := decide (t.d0 = d0 ∧ t.d1 = d1 ∧ t.d2 = d2 ∧ t.d3 = d3)

/-- The rules of R257 and R201 that hold in every slot. -/
def Tensor.generic (t : Tensor) (gen : Nat) : Bool :=
  decide (t.gen = gen ∧ t.mode ≤ 2 ∧ t.scales ≠ 3) &&
  decide (1 ≤ t.d0 ∧ 1 ≤ t.d1 ∧ 1 ≤ t.d2 ∧ 1 ≤ t.d3) &&
  decide (2 ≤ t.rank ∨ (t.d1 = 1 ∧ t.s1 = 0)) && decide (3 ≤ t.rank ∨ (t.d2 = 1 ∧ t.s2 = 0)) &&
  decide (4 ≤ t.rank ∨ (t.d3 = 1 ∧ t.s3 = 0)) &&
  decide (t.addr % 16 = 0 ∧ t.baddr % 16 = 0 ∧ t.s1 % 16 = 0 ∧ t.s2 % 16 = 0 ∧ t.s3 % 16 = 0) &&
  (decide (t.addr % 64 = 0) || (decide (t.mode ≠ 1) && !t.entropy)) &&
  (decide (t.scales ≠ 0) || decide (t.baddr = 0)) &&
  (decide (t.mode ≠ 1) || decide (t.s1 = 0 ∧ t.s2 = 0 ∧ t.s3 = 0)) &&
  (!t.prefetch || decide (t.mode = 1)) &&
  (!t.entropy || (decide (t.mode = 1 ∧ (t.fmt = 7 ∨ t.fmt = 9)) && !t.transpose)) &&
  (!t.transpose || decide (t.scales ≠ 1))

/-- An IN_PLACE tensor without flags. -/
def Tensor.plain (t : Tensor) : Bool := decide (t.mode = 0) && !t.entropy && !t.transpose && !t.prefetch

/-- An IN_PLACE input without flags, or with TRANSPOSE under square scales (R370). -/
def Tensor.plainInput (t : Tensor) : Bool :=
  decide (t.mode = 0) && !t.entropy && !t.prefetch && (!t.transpose || decide (t.scales = 2))

/-- An output (R154, R257); square scales only where FETCH writes them (R369). -/
def Tensor.isOutput (t : Tensor) (square : Bool) : Bool :=
  t.plain &&
    (if t.scales = 2 then square && narrowFloat t.fmt
     else if 5 ≤ t.fmt ∧ t.fmt ≤ 7 then decide (t.scales = 1)
     else decide (t.scales = 0) || decide (t.fmt = 3 ∨ t.fmt = 4 ∨ t.fmt = 8 ∨ t.fmt = 9))

/-- Block scales of a Hide operand (R138, R370). -/
def Tensor.operandScales (t : Tensor) : Bool :=
  if narrowFloat t.fmt then decide (t.scales ≠ 0) else decide (t.fmt = 8 ∨ t.fmt = 9 ∨ t.scales = 0)

/-- Block scales of an element-wise input: only narrow formats carry them. -/
def Tensor.inputScales (t : Tensor) : Bool := decide (t.scales = 0) || decide (3 ≤ t.fmt ∧ t.fmt ≤ 9)

/-- A tensor of FP32 values without scales. -/
def Tensor.isF32 (t : Tensor) : Bool := t.plain && decide (t.fmt = 0 ∧ t.scales = 0)

/-- A rank-1 FP32 vector (R186). -/
def Tensor.isVector (t : Tensor) (n : Nat) : Bool :=
  decide (t.mode = 0 ∧ t.fmt = 0 ∧ t.scales = 0 ∧ t.rank = 1 ∧ t.d0 = n) && !t.entropy && !t.prefetch

/-- Does every byte of a tensor lie in the range of R79. -/
def untranslated (a n : Nat) : Bool := decide (tierABase ≤ a ∧ a + n ≤ tierABase + 0x10000000)

/-- The slots present. -/
def OpEntry.slots (e : OpEntry) : List Nat := (List.range 8).filter e.has

/-- Are exactly the required slots and perhaps optional ones present. -/
def OpEntry.slotSet (e : OpEntry) (req opt : List Nat) : Bool :=
  req.all e.has && e.slots.all fun k => req.contains k || opt.contains k

/-- Holds of slot k, or it is absent. -/
def OpEntry.slotOk (e : OpEntry) (k : Nat) (p : Tensor → Bool) : Bool := !e.has k || p (e.tensor k)

/-- Slots 6 and 7 of the fused stage (R343, R344). -/
def OpEntry.fusedSlots (e : OpEntry) : Bool :=
  if !e.reelEn ∨ 6 < e.form then true
  else
    let t := e.tensor 0
    let f := e.form
    (e.has 6 == decide (f = 1 ∨ f = 2 ∨ f = 3 ∨ f = 5 ∨ f = 6)) && (e.has 7 == decide (f = 5)) &&
    e.slotOk 6 (fun x => x.plainInput && anyFloatOrInt x.fmt && x.inputScales &&
      (x.logical.shaped t.d0 t.d1 t.d2 t.d3 || decide (x.rank = 1 ∧ x.d0 = t.d0))) &&
    e.slotOk 7 (fun x => x.isF32 && x.shaped t.d0 t.d1 t.d2 t.d3)

/-- Slots of MATMUL, CONV and GOLDEN (R254, R257, R320). -/
def OpEntry.matrixSlots (e : OpEntry) : Bool :=
  let m := e.mLen
  let n := e.nLen
  let k := e.kLen
  let a := e.tensor 1
  let b := e.tensor 2
  let conv := decide (e.opcode = 0x11)
  e.slotSet [0, 1, 2] (if e.opcode = 0x12 then [3, 4, 5] else [3, 4, 5, 6, 7]) &&
  (e.tensor 0).isOutput false &&
  (if conv then (e.tensor 0).shaped (n / e.group) e.geo.outW e.geo.outH a.d3
   else (e.tensor 0).shaped (n / e.group) m 1 1) &&
  a.operandScales && b.operandScales &&
  (if conv then decide (a.mode = 2) && !a.entropy && !a.transpose && !a.prefetch && decide (a.scales = 0 ∨ a.d0 % 32 = 0)
   else decide (a.mode = 0) && (if a.transpose then a.shaped m k 1 1 else a.shaped k m 1 1)) &&
  decide (b.mode = 0 ∨ (b.mode = 1 ∧ e.opcode ≠ 0x12)) && (if b.transpose then b.shaped n k 1 1 else b.shaped k n 1 1) &&
  e.slotOk 3 (·.isVector n) && e.slotOk 4 (·.isVector m) && e.slotOk 5 (·.isVector n) && e.fusedSlots

/-- Slots of FETCH (R233, R325, R369). -/
def OpEntry.fetchSlots (e : OpEntry) : Bool :=
  let d := e.tensor 0
  let t := e.tensor 1
  let g := e.geo
  e.slotSet [0, 1] [] && d.isOutput true && decide (t.mode = 0) && !t.entropy && !t.prefetch && t.inputScales &&
  (decide (d.scales ≠ 2) || anyFloatOrInt t.fmt) &&
  (match descField e.desc 0x40 1 0 with
   | 0 => d.shaped t.logical.d0 t.logical.d1 t.d2 t.d3
   | 1 => d.shaped t.logical.d1 t.logical.d0 t.d2 t.d3 && decide (t.scales ≠ 1)
   | _ => !t.transpose && d.shaped (g.kh * g.kw * t.d0) (t.d3 * g.outH * g.outW) 1 1 && decide (d.scales ≠ 2) &&
      decide (t.scales = 0 ∨ t.d0 % 32 = 0))

/-- Slots of ELTWISE (R349). -/
def OpEntry.eltSlots (e : OpEntry) : Bool :=
  let t := e.tensor 0
  let fits (x d : Nat) : Bool := decide (x = d ∨ x = 1)
  let input (x : Tensor) : Bool := x.plainInput && anyFloatOrInt x.fmt && x.inputScales && fits x.logical.d0 e.eltLen &&
    fits x.logical.d1 t.d1 && fits x.d2 t.d2 && fits x.d3 t.d3
  e.slotSet [0, 1] (2 :: (if eltUsesC e.eltOpc then [3] else [])) && t.isOutput false && anyFloatOrInt t.fmt &&
  (decide (e.reduce = 0) || decide (t.d0 = 1)) && e.slotOk 1 input && e.slotOk 2 input && e.slotOk 3 input

/-- Slots of REEL_SCAN (R361). -/
def OpEntry.scanSlots (e : OpEntry) : Bool :=
  let t := e.tensor 0
  let wide (x : Tensor) (n : Nat) : Bool :=
    x.plain && decide (x.fmt ≤ 2 ∧ x.scales = 0) && x.shaped n e.scanT 1 1
  e.slotSet ([0, 1, 2] ++ if e.contract then [3] else []) [] && t.isOutput false && anyFloatOrInt t.fmt &&
  t.shaped (e.scanW / max 1 e.scanNs) e.scanT 1 1 && e.slotOk 1 (wide · e.scanW) && e.slotOk 2 (wide · e.scanW) &&
  e.slotOk 3 (wide · e.scanNs)

/-- Slots of CROP_RESIZE (R327). -/
def OpEntry.cropSlots (e : OpEntry) : Bool :=
  let t := e.tensor 0
  let x := e.tensor 1
  e.slotSet [0, 1, 2] [] && t.isOutput false && anyFloatOrInt t.fmt && t.shaped x.logical.d0 e.cropW e.cropH e.boxCount &&
  x.plainInput && anyFloatOrInt x.fmt && x.operandScales &&
  e.slotOk 2 (fun b => b.plain && decide (b.fmt = 8 ∧ b.scales = 0 ∧ b.rank = 1 ∧ b.d0 = 32 * e.boxCount))

/-- A tensor of queries, new keys or new values before rotation (R309). -/
def Tensor.isHeads (t : Tensor) (d heads new : Nat) : Bool :=
  t.plainInput && decide (t.fmt = 0 ∨ t.fmt = 1 ∨ t.fmt = 3) && (decide (t.scales = 0) || decide (t.fmt = 3)) &&
    t.logical.shaped d heads new 1

/-- Probability records (R297, R309). -/
def Tensor.isRecords (t : Tensor) : Bool :=
  t.plain && decide (t.fmt = 3 ∧ t.scales = 0 ∧ t.rank = 1) && untranslated t.addr t.d0

/-- Slots of the attention opcodes (R309). -/
def OpEntry.attnSlots (e : OpEntry) : Bool :=
  let a := e.attn
  let t := e.tensor 0
  let keys := a.opKeys.length
  match e.opcode with
  | 0x20 =>
    e.slotSet [0, 1] [2, 3, 4, 5, 6, 7] && t.isRecords && e.slotOk 1 (·.isHeads a.d a.qh a.new) &&
    e.slotOk 2 (·.isHeads a.d a.g a.new) &&
    e.slotOk 3 (fun x => x.isF32 && x.shaped a.biasLen a.qh 1 1 && decide (1 ≤ a.biasLen ∧ a.biasLen ≤ 65536)) &&
    e.slotOk 4 (fun x => x.plain && decide (x.fmt = 8 ∧ x.scales = 0) &&
      x.shaped (4 * ceilDiv a.keys 64) (ceilDiv a.new 64) 1 1) &&
    e.slotOk 5 (fun x => x.plain && decide (x.fmt = 8 ∧ x.scales = 0 ∧ x.d0 = 512)) &&
    e.slotOk 6 (fun x => x.isF32 && x.shaped a.new 1 1 1) && e.slotOk 7 (fun x => x.isF32 && x.shaped a.qh 1 1 1)
  | 0x21 =>
    e.slotSet ([0, 1] ++ if a.stats || !a.final then [3] else []) [2] && t.shaped a.d a.qh a.new 1 &&
    (if a.final then t.isOutput false else t.isF32) && e.slotOk 1 (·.isRecords) &&
    e.slotOk 2 (·.isHeads a.d a.g a.new) &&
    e.slotOk 3 (fun x => x.isF32 && (if a.final then x.shaped a.qh a.new 1 1 else x.shaped 2 a.qh a.new 1))
  | 0x22 =>
    let rows := t.d1 * t.d2
    e.slotSet ([0, 1, 2] ++ if descField e.desc 0x44 16 16 = 1 then [3] else []) [] && t.isOutput false &&
    decide (t.d3 = 1) && e.slotOk 1 (fun x => x.isF32 && x.shaped t.d0 rows e.mergeParts 1) &&
    e.slotOk 2 (fun x => x.isF32 && x.shaped 2 rows e.mergeParts 1) &&
    e.slotOk 3 (fun x => x.isF32 && x.shaped t.d1 t.d2 1 1)
  | _ =>
    let out (x : Tensor) (n m : Nat) : Bool := x.isF32 && x.shaped a.d n m 1
    e.slotSet [0, 1, 2, 3, 4, 5, 6] [7] && out t a.qh a.new && e.slotOk 1 (out · a.g keys) && e.slotOk 2 (out · a.g keys) &&
    e.slotOk 3 (·.isHeads a.d a.qh a.new) &&
    e.slotOk 4 (fun x => x.plainInput && decide (x.fmt = 4 ∧ x.scales = 2) && x.logical.shaped a.d a.qh a.new 1) &&
    e.slotOk 5 (fun x => x.plainInput && anyFloatOrInt x.fmt && x.inputScales && x.logical.shaped a.d a.qh a.new 1) &&
    e.slotOk 6 (fun x => x.isF32 && x.shaped a.qh a.new 1 1) && e.slotOk 7 (fun x => x.isF32 && x.shaped a.new 1 1 1)

/-- Step 12: the slots, R257, and for golden ops the placement of R278. -/
def OpEntry.slotsOk (e : OpEntry) (golden : Bool) : Bool :=
  e.slots.all (fun k => (e.tensor k).generic (descField e.desc 0 3 0)) &&
  (e.slots.isEmpty || decide (descLong e.desc 0x10 % 64 = 0)) &&
  (!golden || e.slots.all fun k => (e.tensor k).ranges.all fun r => untranslated r.1 r.2) &&
  (match e.opcode with
   | 0x00 | 0x01 => e.slots.isEmpty
   | 0x10 | 0x11 | 0x12 => e.matrixSlots
   | 0x20 | 0x21 | 0x22 | 0x23 => e.attnSlots
   | 0x30 => e.scanSlots
   | 0x31 => e.eltSlots
   | 0x40 => e.cropSlots
   | _ => e.fetchSlots)

/-! ### Pairs, shapes and feeds (steps 11, 13, 14) -/

/-- R140. -/
def pairAllowed (a b : Nat) : Bool :=
  (narrowFloat a && narrowFloat b) || decide ((a = 8 ∨ a = 9) ∧ (b = 8 ∨ b = 9)) || decide (a = b ∧ (a = 1 ∨ a = 2))

/-- R147, R173. -/
def OpEntry.shapeOk (e : OpEntry) : Bool :=
  decide (1 ≤ e.kLen ∧ e.kLen ≤ 2097152 ∧ 1 ≤ e.mLen ∧ e.mLen ≤ 16777216 ∧ 1 ≤ e.nLen ∧ e.nLen ≤ 16777216 ∧
    1 ≤ e.tiles ∧ e.tiles ≤ 65536)

/-- One operand's feed in bytes over four cycles: elements, scales. -/
def OpEntry.feed (e : OpEntry) (k count : Nat) : Nat × Nat :=
  let t := e.tensor k
  let a := (e.tensor 1).fmt
  let b := (e.tensor 2).fmt
  let per := if e.path = 2 then 1 else if fmtBits a = 4 ∧ fmtBits b = 4 then 8 else 4
  (count * per * fmtBits t.fmt / 8, if t.scales = 0 then 0 else ceilDiv (count * per) 32)

/-- R168, R229. -/
def OpEntry.feedOk (e : OpEntry) : Bool :=
  let one (k count maxE maxS : Nat) : Bool :=
    let f := e.feed k count
    decide (f.1 ≤ 4 * maxE ∧ f.2 ≤ 4 * maxS) && (!(e.tensor k).transpose || decide (f.1 ≤ 4 * 1024 ∧ f.2 ≤ 4 * 64))
  one 1 e.tileRows 512 32 && one 2 e.tileCols 4096 256

/-! ### The chapters' own checks (step 18) -/

/-- OUT_H or OUT_W by R318. -/
def convOut (size lo hi dil k stride : Nat) : Int :=
  ((size : Int) + lo + hi - dil * ((k : Int) - 1) - 1) / (max 1 stride : Nat) + 1

/-- Is a pad value a finite code of its format (R322). -/
def padOk (fmt code : Nat) : Bool :=
  decide (code < 2 ^ fmtBits fmt) &&
    match (operandFmt fmt).decode code with
    | .fin _ _ _ => true
    | _ => false

/-- The vision checks of a gather (R318, R319, R321, R322): the unit code, or 0. -/
def OpEntry.gatherCode (e : OpEntry) : Nat :=
  let g := e.geo
  let t := e.tensor 1
  if g.kh = 0 ∨ g.kw = 0 ∨ g.sh = 0 ∨ g.sw = 0 ∨ g.dh = 0 ∨ g.dw = 0 then 1
  else if g.outH = 0 ∨ g.outW = 0 ∨ (g.outH : Int) ≠ convOut t.d2 g.padT g.padB g.dh g.kh g.sh ∨
      (g.outW : Int) ≠ convOut t.d1 g.padL g.padR g.dw g.kw g.sw then 2
  else if e.opcode = 0x11 ∧ (e.mLen ≠ t.d3 * g.outH * g.outW ∨ e.kLen ≠ g.kh * g.kw * t.d0) then 3
  else if !padOk t.fmt g.padCode then 4
  else if 65535 < t.d1 ∨ 65535 < t.d2 ∨ 65535 < t.d3 then 7
  else 0

/-- The checks of CROP_RESIZE (R326, R335, R336). -/
def OpEntry.cropCode (e : OpEntry) : Nat :=
  let t := (e.tensor 1).logical
  if e.boxCount = 0 ∨ 4096 < e.boxCount ∨ e.cropH = 0 ∨ 256 < e.cropH ∨ e.cropW = 0 ∨ 256 < e.cropW ∨
      1 < descField e.desc 0x48 1 0 ∨ e.samples = 0 ∨ 4 < e.samples then 5
  else if descField e.desc 0 20 20 = 1 then 6
  else if 4096 < t.d0 ∨ 65535 < t.d1 ∨ 65535 < t.d2 ∨ 65535 < t.d3 then 7
  else 0

/-- The Reel checks of a matrix op, an ELTWISE or a REEL_SCAN (R340, R343, R363, R364). -/
def OpEntry.reelCode (e : OpEntry) : Nat :=
  match e.opcode with
  | 0x31 =>
    let t := e.tensor 0
    if !reelFn (descField e.desc 0x40 7 4) ∨ !reelFn (descField e.desc 0x40 11 8) then 1
    else if 2 ^ 34 < e.eltLen * t.d1 * t.d2 * t.d3 ∨ (e.reduce ≠ 0 ∧ 2097152 < e.eltLen) then 3
    else if descField e.desc 0 20 20 = 1 then 4
    else 0
  | 0x30 =>
    if e.scanT = 0 ∨ 65536 < e.scanT ∨ e.scanW = 0 ∨ 65536 < e.scanW ∨ e.scanNs = 0 ∨ 64 < e.scanNs ∨
        e.scanW % max 1 e.scanNs ≠ 0 ∨ (!e.contract ∧ e.scanNs ≠ 1) then 3
    else if descField e.desc 0 20 20 = 1 then 4
    else 0
  | _ =>
    if !e.reelEn then (if e.has 6 || e.has 7 then 5 else 0)
    else if 6 < e.form ∨ !reelFn e.formFn ∨ (5 ≤ e.form ∧ e.formFn ≠ 0) then 1
    else if e.nLen % e.group ≠ 0 then 2
    else 0

/-- Does MASK_MODE agree with slots 4 and 5 (R301). -/
def OpEntry.maskSlots (e : OpEntry) : Bool :=
  match e.opcode, e.attn.mask with
  | 0x20, 2 => !e.has 4 && e.has 5
  | 0x20, 3 => e.has 4
  | 0x20, _ => !e.has 4 && !e.has 5
  | 0x23, m => decide (m ≤ 1)
  | _, _ => true

/-- The Tango checks (R313, R315). -/
def OpEntry.tangoCode (e : OpEntry) : Nat :=
  let a := e.attn
  let checked := decide (descField e.desc 0 20 20 = 1)
  if e.opcode = 0x22 then
    if checked then 7
    else if e.mergeParts < 2 ∨ 16 < e.mergeParts ∨ e.mergeTotal = 0 ∨ 2048 < e.mergeTotal ∨ e.mergeBound 0 ≠ 0 ∨
        !((List.range e.mergeParts).all fun p => decide (e.mergeBound p < e.mergeBound (p + 1))) ∨
        !((List.range (16 - e.mergeParts)).all fun i =>
          bytesToNat ((e.desc.drop (0x50 + 2 * (e.mergeParts + i))).take 2) = 0) then 10
    else 0
  else if a.qh % a.g ≠ 0 then 1
  else if !bitOf e.seqCfg 31 then 2
  else if a.new = 0 ∨ 16384 < a.new ∨ (e.opcode = 0x20 ∧ a.mask = 2 ∧ 64 < a.new) ∨ 1048576 < a.keys ∨ a.chunks = 0 ∨
      2048 < a.chunks ∨ ceilDiv a.keys 512 < a.first + a.chunks then 3
  else if !e.maskSlots then 4
  else if e.opcode ≠ 0x21 ∧ (a.rope = 3 ∨ (a.rope = 0 ∧ a.half ≠ 0) ∨ (a.rope ≠ 0 ∧ (a.half = 0 ∨ a.d < 2 * a.half))) then 5
  else if descField e.desc 0 18 16 ≠ 0 then 6
  else if checked ∧ e.opcode ≠ 0x20 then 7
  else if a.kv ≠ 3 ∧ a.kv ≠ 5 ∧ a.kv ≠ 6 ∧ a.kv ≠ 7 then 8
  else if e.stochastic ∧ !(e.opcode = 0x21 ∧ a.final) then 9
  else if 128 < a.qh then 11
  else 0

/-- Step 18: (UNIT, UNIT_CODE), with UNIT_CODE 0 where the op passes. -/
def OpEntry.unitCheck (e : OpEntry) : Nat × Nat :=
  match e.opcode with
  | 0x10 => (4, e.reelCode)
  | 0x11 => if e.gatherCode ≠ 0 then (5, e.gatherCode) else (4, e.reelCode)
  | 0x20 | 0x21 | 0x22 | 0x23 => (3, e.tangoCode)
  | 0x30 | 0x31 => (4, e.reelCode)
  | 0x40 => (5, e.cropCode)
  | 0x50 => (5, if descField e.desc 0x40 1 0 = 2 then e.gatherCode else 0)
  | _ => (0, 0)

/-! ### Estimates (R249, R312, R333, R352, R362, R371) -/

/-- W(T, P) of R312. -/
def paced (t p : Nat) : Nat := p + (t - 1) * max p 256

/-- Element bytes of a tensor's extents in a format. -/
def Tensor.elemBytes (t : Tensor) (fmt : Nat) : Nat := rowBytes fmt t.d0 * (t.d1 * t.d2 * t.d3)

/-- Element and scale bytes that a tensor holds. -/
def Tensor.allBytes (t : Tensor) : Nat :=
  t.elemBytes t.fmt + (if t.scales = 0 then 0 else t.blocks * (t.d1 * t.d2 * t.d3))

/-- The estimate of an op in CLK_TEN cycles. -/
def OpEntry.estimate (e : OpEntry) : Nat :=
  let t := e.tensor 0
  let a := e.attn
  match e.opcode with
  | 0x10 | 0x11 | 0x12 =>
    let (str, tail) := passCycles e.path (e.tensor 1).fmt (e.tensor 2).fmt e.kLen
    296 + paced e.tiles (str + tail) + (if e.reelEn then 8 else 0)
  | 0x20 => 328 + e.attnPrep + paced (a.g * a.mTiles * 2 * a.perSection) a.d
  | 0x21 => 328 + e.attnPrep + paced (a.g * a.mTiles * a.perSection) 512
  | 0x22 => 64 + ceilDiv (t.d1 * t.d2 * e.mergeParts * t.d0) 256
  | 0x23 =>
    328 + e.attnPrep + 2 * paced (a.g * a.mTiles * 2 * a.perSection) a.d + paced (a.g * a.mTiles * a.perSection) 512 +
      2 * paced (a.g * ceilDiv (512 * a.perSection) a.stripRows) a.rows
  | 0x30 => 96 + ceilDiv e.scanW 128 * e.scanT
  | 0x31 =>
    let z := e.eltLen * (t.d1 * t.d2 * t.d3)
    let one (k : Nat) : Nat :=
      let x := e.tensor k
      if e.has k then { t with d0 := e.eltLen, fmt := x.fmt, scales := x.scales }.allBytes else 0
    64 + max (ceilDiv z 256) (max (ceilDiv (one 1 + one 2 + one 3) 2048) (ceilDiv t.allBytes 1024))
  | 0x40 => 64 + e.boxCount * e.cropH * e.cropW * (e.samples * e.samples) * ceilDiv t.d0 64
  | 0x50 =>
    let x := e.tensor 1
    let src := if descField e.desc 0x40 1 0 = 2 then t.elemBytes x.fmt else x.elemBytes x.fmt
    let b := if x.fmt = t.fmt then src else max src (t.elemBytes t.fmt)
    64 + ceilDiv b (if descField e.desc 0x40 1 0 = 1 then 1024 else 2048)
  | _ => 0

/-! ### The order (R263) -/

/-- Does an enabled signal name a protected buckle (step 17). -/
def OpEntry.signalsProtected (e : OpEntry) (n : Nat) : Bool := (e.signals n).any fun g => isProtected g.1

/-- Steps 9 to 19 of an op whose descriptors were read: (CODE, UNIT, UNIT_CODE) of the first check that fails. -/
def OpEntry.lateCheck (e : OpEntry) (n bound : Nat) (golden : Bool) : Nat × Nat × Nat :=
  let matrix := isMatrix e.opcode
  if e.tds.any fun d => !d.isEmpty && tensorReserved d then (0x10, 0, 0)
  else if e.slots.any fun k => 0xB < (e.tensor k).fmt then (0x15, 0, 0)
  else if matrix ∧ e.has 1 ∧ e.has 2 ∧ !pairAllowed (e.tensor 1).fmt (e.tensor 2).fmt then (0x16, 0, 0)
  else if !e.slotsOk golden then (0x19, 0, 0)
  else if matrix ∧ !e.shapeOk then (0x17, 0, 0)
  else if matrix ∧ !e.feedOk then (0x18, 0, 0)
  else if matrix ∧ 8 < descField e.desc 0x4C 3 0 then (0x1A, 0, 0)
  else if matrix ∧ (e.tensor 0).scales ≠ 0 ∧ (e.tensor 0).d0 * e.group + (e.group - 1) < e.nLen then (0x1B, 0, 0)
  else if e.signalsProtected n then (0x1C, 0, 0)
  else if e.unitCheck.2 ≠ 0 then (0x23, e.unitCheck.1, e.unitCheck.2)
  else if min 300000 (max 1 bound) < e.estimate then (0x22, 0, 0)
  else (0, 0, 0)

/-- Steps 2 to 7. -/
def OpEntry.earlyCheck (e : OpEntry) (n gen minor : Nat) (golden : Bool) : Nat :=
  if descField e.desc 0 3 0 ≠ gen then 0x11
  else if minor < descField e.desc 0 7 4 then 0x12
  else if !knownOpcode e.opcode then 0x13
  else if e.reservedBad golden then 0x10
  else if golden ∧ e.opcode ≠ 0x12 then 0x13
  else if !golden ∧ e.opcode = 0x12 then 0x1E
  else if n = 1 ∧ descField e.desc 0 23 23 = 1 then 0x10
  else if 4 < descField e.desc 0 18 16 ∨ (!usesHide e.opcode ∧ descField e.desc 0 18 16 ≠ 0) then 0x14
  else 0

end Sys2Proof.Machine
end

