-- ==== Sys2Proof/Machine/Caller.lean ====
section
/-!
DEFINITION. Machine/Caller.lean: reading a descriptor, golden ops, and the end of an op that occupied the Tensor Plane
(R243, R251, R263, R266, R278, R279).
-/

namespace Sys2Proof.Machine

/-! ### Reading (R243, R263 steps 1 and 8) -/

/-- A descriptor of 128 bytes at a physical address: the bytes, or UNIT_CODE 1 access fault, 3 uncorrectable. -/
def State.readDesc (s : State) (a : Nat) : State × Except Nat (List Byte) :=
  if !inTiers a || !s.readable a || !s.readable (a + 127) then (s, .error 1)
  else
    match s.engineLoad a 128 with
    | (s, none) => (s, .error 3)
    | (s, some bs) => (s, .ok bs)

/-- The UNIT_CODE of a failing tensor descriptor read: 1 access, 2 translation, 3 uncorrectable. -/
def descReadCode (c : Nat) : Nat := if c = 1 then 3 else if c = 2 then 2 else 1

/-- Read the tensor descriptors of TDESC_MASK through process 0 of ring n. -/
def State.readTensors (s : State) (n : Nat) (d : List Byte) : State × Except Nat (List (List Byte)) :=
  readAll (fun s k =>
    if descField d 0x18 k k = 1 then
      match s.planeRead n 0 (descLong d 0x10 + 64 * k) 64 with
      | (s, .error c) => (s, .error (descReadCode c))
      | (s, .ok bs) => (s, .ok bs)
    else (s, .ok [])) s (List.range 8)

/-- An op that was read but not yet checked further. -/
def blankOp (index : Word) (d : List Byte) : OpEntry := ⟨index, d, List.replicate 8 [], 0, 0, 0, 0, 0, 0⟩

/-- An op with its rejection. -/
def OpEntry.reject (e : OpEntry) (x : Nat × Nat × Nat) : OpEntry :=
  { e with code := x.1, unit := x.2.1, ucode := x.2.2 }

/-- Latch the sequence entry of an attention op (R283). -/
def State.latchSeq (s : State) (e : OpEntry) : OpEntry :=
  if e.opcode = 0x20 ∨ e.opcode = 0x21 ∨ e.opcode = 0x23 then
    let k := descField e.desc 0x40 9 0
    { e with seqCfg := s.rget (Reg.tngSeqCfg k), seqLen := s.rget (Reg.tngSeqLen k) }
  else e

/-- Where the tensor descriptors of a golden op must lie (R278). -/
def goldenTdescOk (d : List Byte) : Bool :=
  (List.range 8).all fun k => descField d 0x18 k k = 0 || untranslated (descLong d 0x10 + 64 * k) 64

/-- Steps 8 to 19. -/
def State.checkTensors (s : State) (n : Nat) (e : OpEntry) (golden : Bool) : State × OpEntry :=
  if golden ∧ !goldenTdescOk e.desc then (s, e.reject (0x19, 0, 0))
  else
    match s.readTensors n e.desc with
    | (s, .error c) => (s, e.reject (0x1F, 0, c))
    | (s, .ok tds) =>
      let e := s.latchSeq { e with tds := tds }
      (s, e.reject (e.lateCheck n (s.fget Reg.calOpBound 22 0) golden))

/-- Read and check the op descriptor at physical address `a` (R263). -/
def State.readOp (s : State) (n a : Nat) (index : Word) (golden : Bool) : State × OpEntry :=
  match s.readDesc a with
  | (s, .error c) => (s, (blankOp index []).reject (0x1F, 0, c))
  | (s, .ok d) =>
    let e := blankOp index d
    match e.earlyCheck n (s.fget (Reg.calRingCfg n) 3 0) (s.fget Reg.calVersion 11 8) golden with
    | 0 => s.checkTensors n e golden
    | c => (s, e.reject (c, 0, 0))

/-- DESCRIPTOR_READ (R243, R263): a RUNNING ring reads, and a HELD one reads ahead, for R262 stops only issue (DEDUCED,
log entry 32). -/
def execDescriptorRead (ring : Nat) (s : State) : Out :=
  .next <|
    let h := s.rget (Reg.calRingHead ring)
    let base := (s.rget (Reg.calRingBaseLo ring)).toNat + 2 ^ 32 * s.fget (Reg.calRingBaseHi ring) 15 0
    if ring < 2 ∧ s.mainOn ∧ (s.ringState ring = 1 ∨ s.ringState ring = 2) ∧
        isAfter (s.rget (Reg.calRingTail ring)) h ∧
        (h - s.rget (Reg.calRingDone ring)).toNat < 8 ∧ !s.tlg.halted.contains (0x18 + ring) then
      let (s, e) := s.readOp ring (base + 128 * (h.toNat % s.ringSlots ring)) h false
      (((s.putRingQ ring (s.ringQ ring ++ [e])).rset (Reg.calRingHead ring) (h + 1)).syncRing ring).syncWindow ring
    else s

/-! ### Golden ops (R278, R279) -/

/-- GOLDEN (R246, R278): the next op of the run that holds the issue slot; a halt and a clock change come first. -/
def execGolden (s : State) : Out :=
  .next <|
    match s.ten.goldRun with
    | none => s
    | some (set, j) =>
      if s.mainOn ∧ s.ten.run.isNone ∧ s.fget Reg.tlgStatus 4 2 = 0 ∧ s.ten.clockReq.isNone then
        let base := (s.rget Reg.calGoldenBaseLo).toNat + 2 ^ 32 * s.fget Reg.calGoldenBaseHi 15 0
        let (s, e) := s.readOp 0 (base + 128 * ((s.fget Reg.calGoldenCfg 7 4 + 1) * set + j)) 0 true
        if e.code ≠ 0 then (s.endGolden set j e 0 (s.endAtOnce e.code e.unit e.ucode)).syncHalt
        else s.beginOp 0 (some (set, j)) e fun s e => s.matrixStart e 0
      else s

/-! ### The end of an op (R266) -/

/-- The cycles of the fill of an op (R181, R294). -/
def OpEntry.fillCycles (e : OpEntry) : Nat := 24 + (if isMatrix e.opcode then 0 else e.attnPrep)

/-- The Hide's last cycles of an op: pauses of its outputs, and its final drain and Edge latency (R181, R184, R345). Of an op
that failed, the `cycles` that no category has yet are products, operand waits and the last drain, how many of each is
free; an op without a K pass has its fill. -/
def State.lastCycles (s : State) (r : RunOp) (outputWait cycles : Nat) : State :=
  if !usesHide r.op.opcode then s
  else
    let s := s.hideCycles 5 outputWait
    let left (s : State) : Nat := cycles - ((s.ten.run.map (·.counted)).getD 0)
    let s := if r.passes = 0 then s.hideCycles 1 (min (left s) r.op.fillCycles) else s
    if r.code = 0 then
      s.hideCycles 6 (if r.passes = 0 then left s
        else 272 + (if r.op.reelEn then 8 else 0) + (if isMatrix r.op.opcode then 0 else 32))
    else
      let (j, s) := s.drawNat
      let s := s.hideCycles 0 (j % (left s + 1))
      let (k, s) := s.drawNat
      let s := s.hideCycles 3 (k % (left s + 1))
      s.hideCycles 6 (left s)

/-- What ended, for its records. -/
def RunOp.ended (r : RunOp) (cycles : Nat) : OpEnd where
  code := r.code
  unit := r.unit
  ucode := r.ucode
  mismatch := r.mismatch
  overrun := r.overrun
  issueBeat := r.issueBeat
  mhz := r.mhz
  cycles := cycles
  stalls := r.stalls

/-- The units are free again, and the counters of the op move; not for an op that did not run (R260, R267). -/
def State.unitsDone (s : State) (r : RunOp) (outputWait cycles : Nat) : State :=
  if r.code = 0x20 ∨ r.code = 0x1D then s
  else
    let s := s.lastCycles r outputWait cycles
    (r.op.units.foldl State.unitFree s).countOp r.op

/-- The op leaves the Tensor Plane, and a power throttle ends (R43). -/
def State.leavePlane (s : State) (r : RunOp) : State :=
  let s := { s with ten := { s.ten with run := none, throttled := none } }
  if r.op.usesWindow && r.golden.isNone then s.dropRecords r.ring fun i => i = r.op.index else s

/-- OP_END (R266): once nothing of the op is left; with the cycles it took, the cycles its outputs held back the final
drain, and the CLK_TEN cycles of both stall banks since the last beat. -/
def execOpEnd (outputWait cycles : Nat) (lat tng : List TenCycle) (s : State) : Out :=
  .next <|
    match s.ten.run with
    | none => s
    | some r =>
      if !r.finished || r.shadow.isSome || r.held then s
      else
        let s := s.planeCycles lat tng
        let r := { r with stalls := (s.ten.run.map (·.stalls)).getD r.stalls }
        let (s, r) := if r.op.opcode = 0x30 ∧ r.code ≠ 0x20 ∧ r.code ≠ 0x1D then s.scanEnd r else (s, r)
        let s := s.unitsDone r outputWait cycles
        let s := (if s.hostChanged r then s.spoil r.ring r.outs else s).leavePlane r
        let d := r.ended cycles
        let s := match r.golden with
          | some (set, j) =>
            s.endGolden set j r.op (if r.code = 0 then crc32c (outputBytes r.outs) else 0) d
          | none => s.endOp r.ring 1 r.op d
        (s.syncWindow (r.ring % 2)).syncHalt

/-! ### Waiting rings (R251) -/

/-- The CLK_FAB cycles of beat b: 9.6 cycles, over five beats 48. -/
def fabCycles (b : Nat) : Nat := 48 * (b + 1) / 5 - 48 * b / 5

/-- CAL_RINGn_WAIT_CYC over one beat (R251): the first unfinished op of ring n is ready, and an op of the other ring or a
golden run occupies the Tensor Plane. -/
def State.ringWait (s : State) (n : Nat) : State :=
  let other := s.ten.goldRun.isSome || (match s.ten.run with
    | some r => decide (r.ring ≠ n) || r.golden.isSome
    | none => false)
  if other && (s.readyTensorOp n).isSome then s.bump64 (Reg.calRingWaitCycLo n) (fabCycles s.beat) else s

/-- Both rings over one beat. -/
def State.ringWaits (s : State) : State := if s.mainOn then (s.ringWait 0).ringWait 1 else s

end Sys2Proof.Machine
end

