-- ==== Sys2Proof/Machine/Digest.lean ====
section
/-!
DEFINITION. Machine/Digest.lean: SHA-384 and the ECDSA P-384 verification that image signatures use (R602, R610). The spec
names the two standards; their constants and steps are those of FIPS 180-4 and FIPS 186-5 (log entry 22).
-/

namespace Sys2Proof.Machine

/-! ### SHA-384 -/

/-- The largest number of at most 68 bits whose k-th power does not exceed n, bit by bit from the highest. -/
def rootFloor (k n : Nat) : Nat :=
  (List.range 68).foldl (fun r b => if (r + 2 ^ (67 - b)) ^ k ≤ n then r + 2 ^ (67 - b) else r) 0

/-- The first 64 bits of the fraction of the k-th root of p. -/
def rootBits (k p : Nat) : BitVec 64 := BitVec.ofNat 64 (rootFloor k (p * 2 ^ (64 * k)))

/-- The 80 primes below 410. -/
def shaPrimes : List Nat :=
  (List.range 410).filter fun n => decide (2 ≤ n) && (List.range 21).all fun d => decide (d < 2 ∨ n ≤ d ∨ n % d ≠ 0)

/-- The constant of each round: from the cube roots of the first 80 primes (FIPS 180-4, section 4.2.3). -/
def shaRounds : List (BitVec 64) := shaPrimes.map (rootBits 3)

/-- A number from its bytes, the most significant first. -/
def bigEndian (bs : List Byte) : Nat := bs.foldl (fun n b => 256 * n + b.toNat) 0

/-- The working variables of SHA-384, and its hash value. -/
structure ShaVars where
  a : BitVec 64
  b : BitVec 64
  c : BitVec 64
  d : BitVec 64
  e : BitVec 64
  f : BitVec 64
  g : BitVec 64
  h : BitVec 64
  deriving DecidableEq, Repr

/-- The initial hash value: from the square roots of the ninth to the sixteenth prime (FIPS 180-4, section 5.3.4). -/
def ShaVars.initial : ShaVars :=
  let r (k : Nat) : BitVec 64 := rootBits 2 (shaPrimes.getD (8 + k) 0)
  ⟨r 0, r 1, r 2, r 3, r 4, r 5, r 6, r 7⟩

/-- The exclusive or of two rotations of a word and of a third word made from it. -/
def mixed (x : BitVec 64) (m n : Nat) (last : BitVec 64) : BitVec 64 := x.rotateRight m ^^^ (x.rotateRight n ^^^ last)

/-- The 80 words of the message schedule (FIPS 180-4, section 6.4.2) from the newest 16, the newest last. -/
def shaWords : Nat → List (BitVec 64) → List (BitVec 64)
  | 0, ws => ws
  | k + 1, ws =>
    let at_ (t : Nat) : BitVec 64 := ws.getD t 0
    let next := at_ 0 + mixed (at_ 1) 1 8 (at_ 1 >>> 7) + at_ 9 + mixed (at_ 14) 19 61 (at_ 14 >>> 6)
    at_ 0 :: shaWords k (ws.drop 1 ++ [next])

/-- One round with the sum of its constant and its word. -/
def ShaVars.round (v : ShaVars) (kw : BitVec 64) : ShaVars :=
  let chosen := v.g ^^^ (v.e &&& (v.f ^^^ v.g))
  let most := (v.a &&& (v.b ||| v.c)) ||| (v.b &&& v.c)
  let add := kw + chosen + v.h + mixed v.e 14 18 (v.e.rotateRight 41)
  { a := add + most + mixed v.a 28 34 (v.a.rotateRight 39), b := v.a, c := v.b, d := v.c
    e := v.d + add, f := v.e, g := v.f, h := v.g }

/-- Word by word sum. -/
def ShaVars.plus (v w : ShaVars) : ShaVars :=
  ⟨v.a + w.a, v.b + w.b, v.c + w.c, v.d + w.d, v.e + w.e, v.f + w.f, v.g + w.g, v.h + w.h⟩

/-- The hash value after one more block of 16 words. -/
def ShaVars.absorb (v : ShaVars) (block : List (BitVec 64)) : ShaVars :=
  v.plus (((shaWords 64 block).zipWith (· + ·) shaRounds).foldl ShaVars.round v)

/-- The message with its padding, as 64-bit words: a 1 bit, zeros, and the length in bits, to a multiple of 16 words. -/
def shaMessage (bs : List Byte) : List (BitVec 64) :=
  let words := ceilDiv (bs.length + 17) 128 * 16
  let v := (256 * bigEndian bs + 0x80) * 2 ^ (64 * words - 8 * bs.length - 8) + 8 * bs.length
  (List.range words).map fun i => BitVec.ofNat 64 (v / 2 ^ (64 * (words - 1 - i)))

/-- SHA-384: 48 bytes (R602). -/
def sha384 (bs : List Byte) : List Byte :=
  let ws := shaMessage bs
  let v := (List.range (ws.length / 16)).foldl (fun v i => v.absorb ((ws.drop (16 * i)).take 16)) ShaVars.initial
  [v.a, v.b, v.c, v.d, v.e, v.f].flatMap fun w => (natToBytes 8 w.toNat).reverse

/-! ### ECDSA over P-384 -/

/-- The field prime of P-384. -/
def p384 : Nat := 2 ^ 384 - 2 ^ 128 - 2 ^ 96 + 2 ^ 32 - 1

/-- The order of its base point. -/
def n384 : Nat :=
  0xffffffffffffffffffffffffffffffffffffffffffffffffc7634d81f4372ddf581a0db248b0a77aecec196accc52973

/-- The coefficient b of the curve y^2 = x^3 - 3x + b. -/
def b384 : Nat :=
  0xb3312fa7e23ee7e4988e056be3f82d19181d9c6efe8141120314088f5013875ac656398d8a2ed19d2a85c8edd3ec2aef

/-- The base point. -/
def g384 : Nat × Nat :=
  (0xaa87ca22be8b05378eb1c71ef320ad746e1d3b628ba79b9859f741e082542a385502f25dbf55296c3a545e3872760ab7,
   0x3617de4a96262c6f5d9e98bf9292dc29f8f41dbd289a147ce9da3113b5f0b8c00a60b1ce1d7e819d7a431d7c90ea0e5f)

/-- x^e mod m, for e below 2^k. -/
def powMod (m : Nat) : Nat → Nat → Nat → Nat
  | 0, _, _ => 1 % m
  | k + 1, x, e => (if e % 2 = 1 then x else 1) * powMod m k (x * x % m) (e / 2) % m

/-- The inverse modulo a prime below 2^384. -/
def invMod (m x : Nat) : Nat := powMod m 384 (x % m) (m - 2)

/-- A point of the curve; none is the point at infinity. -/
abbrev CurvePoint := Option (Nat × Nat)

/-- The third point on the line with slope l through (x1, y1) and x2, mirrored. -/
def chord (l x1 y1 x2 : Nat) : CurvePoint :=
  let x := (l * l + 2 * p384 - x1 - x2) % p384
  some (x, (l * (x1 + p384 - x) + p384 - y1) % p384)

/-- The sum of two points. -/
def addPoints : CurvePoint → CurvePoint → CurvePoint
  | none, q => q
  | p, none => p
  | some (x1, y1), some (x2, y2) =>
    if x1 = x2 then
      if (y1 + y2) % p384 = 0 then none
      else chord ((3 * x1 * x1 + p384 - 3) * invMod p384 (2 * y1) % p384) x1 y1 x2
    else chord ((y2 + p384 - y1) * invMod p384 (x2 + p384 - x1) % p384) x1 y1 x2

/-- e times a point, for e below 2^k. -/
def mulPoint : Nat → Nat → CurvePoint → CurvePoint
  | 0, _, _ => none
  | k + 1, e, p =>
    let q := mulPoint k (e / 2) (addPoints p p)
    if e % 2 = 1 then addPoints p q else q

/-- Is (x, y) a point of the curve. -/
def onCurve (x y : Nat) : Bool :=
  decide (x < p384 ∧ y < p384 ∧ y * y % p384 = (x * x * x + 3 * (p384 - x) + b384) % p384)

/-- Does the signature (r, s) of `message` verify under the public key (x, y) (R602). -/
def ecdsaVerify (x y r s : Nat) (message : List Byte) : Bool :=
  onCurve x y && decide (1 ≤ r ∧ r < n384 ∧ 1 ≤ s ∧ s < n384) &&
    let w := invMod n384 s
    let z := bigEndian (sha384 message)
    match addPoints (mulPoint 384 (z * w % n384) (some g384)) (mulPoint 384 (r * w % n384) (some (x, y))) with
    | none => false
    | some (vx, _) => decide (vx % n384 = r)

end Sys2Proof.Machine
end

