-- ==== Sys2Proof/Machine/Power.lean ====
section
/-!
DEFINITION. Machine/Power.lean: rails, resets, temperature and power caps (R39 to R43, R673 to R697).
-/

namespace Sys2Proof.Machine

/-- Change what power and reset hold beside their registers. -/
def State.withPwr (s : State) (f : Power → Power) : State := { s with pwr := f s.pwr }

/-! ### Tensor clock (R39 to R43, R690) -/

/-- The lower of the cap's clock and the thermal clock applies (R690): where it is not the clock in use, the tensor clock
is asked to change at the next op boundary (R41); THROTTLING follows. A request for a lower clock keeps the beat of the
request for a lower clock that it replaces (R43). -/
def State.askClock (s : State) : State :=
  let mhz := min s.pwr.capTen s.pwr.thermTen
  let now := s.fget Reg.stwPower 26 16
  let s := s.bput Reg.sysStatus 2 (decide (s.pwr.thermTen < s.pwr.capTen))
  let b := match s.ten.clockReq with
    | some (old, b) => if old < now ∧ mhz < now then b else s.beat
    | none => s.beat
  { s with ten := { s.ten with
    clockReq := if now = mhz then none else some (mhz, b) } }

/-- The range of the tensor clock in MHz (R40). -/
def tenRange (mhz : Nat) : Nat := max 600 (min 1500 mhz)

/-- The Steward scales both clocks to a newly selected cap (R39, R40, R42). How far depends on the measured power, and is
free: a lower cap raises neither clock, a higher cap lowers neither, and the same cap changes nothing (log entry 33). The
tensor clock stays within 0.6 GHz and 1.5 GHz. -/
def State.chooseClock (s : State) (old new : Nat) : State :=
  let (k, s) := s.drawNat
  let (j, s) := s.drawNat
  (s.withPwr fun p =>
    let ten := tenRange p.capTen
    if new < old then
      { p with capTen := 600 + k % (ten - 600 + 1), capApp := j % (p.capApp + 1) }
    else if old < new then
      { p with capTen := ten + k % (1500 - ten + 1), capApp := p.capApp + j % (2600 - p.capApp + 1) }
    else { p with capTen := ten }).askClock

/-- A write of STW_POWER (R39, R42): CAP 5 to 7 are ignored. -/
def State.capWrite (s : State) (v : Word) : State :=
  if fieldOf v 2 0 ≤ 4 then
    let old := s.fget Reg.stwPower 2 0
    let s := s.fset Reg.stwPower 2 0 (fieldOf v 2 0)
    if s.stewardActs then s.chooseClock old (fieldOf v 2 0) else s
  else s

/-- POWER_CAP_SELECT (R42). -/
def execPowerCapSelect (who : Initiator) (cap : Nat) (s : State) : Out :=
  .next (s.softWrite who Reg.stwPower (toWord (cap % 8)) fun s v => s.capWrite v)

/-- The power measured lies above the cap (R42): the Steward lowers the cluster clock at once and asks for a tensor clock
below the one in use at the next op boundary; by how much is free. While it restarts or is halted, the clock controller
asks for 0.6 GHz (R615, R627). -/
def State.excursion (s : State) : State :=
  if s.stewardActs then
    let (k, s) := s.drawNat
    let (j, s) := s.drawNat
    (s.withPwr fun p => { p with
      capTen := 600 + k % max 1 (min (s.fget Reg.stwPower 26 16) p.capTen - 600)
      capApp := j % max 1 (min p.capApp p.thermApp) }).askClock
  else (s.withPwr fun p => { p with capTen := 600 }).askClock

/-- POWER_EXCURSION (R42). -/
def execPowerExcursion (s : State) : Out := .next (if s.mainOn then s.excursion else s)

/-! ### Temperature (R689 to R691) -/

/-- TRIP_C in force: values above 115 act as 115. -/
def State.tripC (s : State) : Nat := min 115 (s.fget Reg.sysThermCfg 15 8)

/-- THROTTLE_C in force: values above TRIP_C − 5 act as TRIP_C − 5. -/
def State.throttleC (s : State) : Int := min (s.fget Reg.sysThermCfg 7 0 : Int) (s.tripC - 5)

/-- HYST in force: 0 acts as 1. -/
def State.hystC (s : State) : Nat := max 1 (s.fget Reg.sysThermCfg 19 16)

/-- The reading of sensor n in units of 0.125 °C, where it is current. -/
def State.temp (s : State) (n : Nat) : Option Int :=
  if s.bit (Reg.sysTemp n) 31 then some (sext 12 (s.fget (Reg.sysTemp n) 11 0)) else none

/-- Does a sensor of the first k read at or above `c` °C. -/
def State.anyAt (s : State) (k : Nat) (c : Int) : Bool :=
  (List.range k).any fun n => (s.temp n).any fun t => decide (8 * c ≤ t)

/-- Some sensor reads at or above THROTTLE_C: THERM_N is low (R690). -/
def State.hot (s : State) : Bool := s.anyAt 21 s.throttleC

/-- The level of THERM_N (R690). -/
def State.thermN (s : State) : Bool := !s.hot

/-- Every sensor reads below THROTTLE_C − HYST (R690). -/
def State.cooled (s : State) : Bool := !s.anyAt 21 (s.throttleC - s.hystC)

/-- TEMP_SENSOR_UPDATE (R689, R690): 21 readings of 12 bits; those of the DRAM stacks come in steps of 1 °C. Which of several equally hot sensors is named is open: a free
number picks it. -/
def execTempSensorUpdate (readings : List Nat) (s : State) : Out :=
  .next <|
    let r := fun n => let v := readings.getD n 0 % 2 ^ 12; if 17 ≤ n then v / 8 * 8 else v
    let s := (List.range 21).foldl (fun s n => s.rset (Reg.sysTemp n) (toWord (r n + 2 ^ 31))) s
    let top := (List.range 21).foldl (fun m n => max m (sext 12 (r n))) (-2048)
    let at_ := (List.range 21).filter fun n => decide (sext 12 (r n) = top)
    let (k, s) := match at_ with
      | [n] => (n, s)
      | ns => let (k, s) := s.drawNat; (ns.getD (k % max 1 ns.length) 0, s)
    let s := (s.fset Reg.sysThermStatus 11 0 (BitVec.ofInt 12 top).toNat).fset Reg.sysThermStatus 20 16 k
    if s.hot then s.flag Reg.sysStatus 1 else s

/-- One millisecond in beats. -/
def beatsPerMs : Nat := 125000

/-- THERMAL_THROTTLE_STEP (R690): at most once per millisecond, both clocks one step down while hot, one step up once every
sensor has cooled, up to what the cap allows. -/
def execThermalThrottleStep (s : State) : Out :=
  .next <|
    let due := match s.pwr.stepBeat with
      | none => true
      | some b => decide (b + beatsPerMs ≤ s.beat)
    if !s.stewardActs || !due then s
    else if s.hot then
      (s.withPwr fun p => { p with
        thermTen := max 600 (min p.thermTen p.capTen - 100)
        thermApp := min p.thermApp p.capApp - 200
        stepBeat := some s.beat }).askClock
    else if s.cooled then
      (s.withPwr fun p => { p with
        thermTen := if p.capTen ≤ p.thermTen + 100 then 1500 else p.thermTen + 100
        thermApp := if p.capApp ≤ p.thermApp + 200 then 2600 else p.thermApp + 200
        stepBeat := some s.beat }).askClock
    else s

/-! ### The main reset (R679 to R688) -/

/-- A transaction goes to IDLE without signalling (R124): its seals open, its vouch request goes. -/
def State.txnCleared (s : State) (n : Nat) : State := (s.unsealAll n).dropVouch n

/-- What of the debug module a main reset leaves (R622, R668): the test port, the halt-on-reset requests, and the debug mode
of halted Reflex cores, which no main reset resets (log entry 48). -/
def Tooling.kept (t : Tooling) : Tooling :=
  let reflex (h : Nat) : Bool := decide (0x20 ≤ h)
  { Tooling.idle with
    halted := t.halted.filter reflex
    stops := t.stops.filter fun x => reflex x.1
    written := t.written.filter fun x => reflex x.1
    resetHalt := t.resetHalt
    tap := t.tap }

/-- What a main reset clears (R679): every register of the main domain, the contents of Tiers A and B, and what the main
domain's units hold beside their registers. The firmware of the always-on classes stays (R595). Memory entries of a
committed transaction that are not yet written are dropped with their tier (R33 does not say whether they are still
written: DESIGN CHOICE, log entry 29). -/
def State.clearMain (s : State) : State :=
  let s := (s.txns.map (·.1)).foldl State.txnCleared s
  let s := s.loseMemory fun u => decide (u ≤ 16)
  { s with
    regs := s.regs.filter fun r => !mainAddress r.1
    reservations := []
    buffers := s.buffers.filter fun e => isAlwaysOn e.who
    cache := []
    busErrors := []
    txns := []
    memPending := []
    snaps := []
    tlb := []
    devCtxs := []
    procCtxs := []
    swapRuns := []
    throttles := []
    throttleIrq := false
    landed := []
    shz := Shauz.idle
    ten := Plane.idle
    tlg := s.tlg.kept
    pcie := Pcie.idle
    field := { s.field with gates := [], histories := [] }
    stw := { Steward.idle with
      active := s.stw.active.filter fun f => decide (3 ≤ f.1)
      vaonLost := s.stw.vaonLost }
    pwr := { s.pwr with capTen := 600, capApp := 0, thermTen := 1500, thermApp := 2600, stepBeat := none } }

/-- A source of a main reset arises (R679, R683, R686): it sets its bit of SYS_RESET_CAUSE; a source during a main reset
extends it. A safe-state command of its beat takes effect first (R686), and no event of lower order does (R388). -/
def State.mainReset (s : State) (cause : Nat) : State :=
  let s := if s.cin.command then s.safeCommanded else s
  let s := { s.flag Reg.sysResetCause cause with order := 9 }
  let s := if cause = 5 ∨ cause = 6 then s.withPwr fun p => { p with softBeat := some s.beat } else s
  if s.mainOn then
    (s.clearMain.bput Reg.sysStatus 0 false).bput Reg.sysStatus 2 false |>.withPwr fun p => { p with endBeat := none }
  else { s with stw := { s.stw with toBoot := false } }

/-- RESET_N_ASSERT (R684): low for 1 µs. -/
def execResetNAssert (s : State) : Out := .next ((s.withPwr fun p => { p with resetN := false }).mainReset 1)

/-- The bit of SYS_RAIL_STATUS of a watched rail: 0 to 6 the rails, 7 the on-package regulators. -/
def State.railSet (s : State) (rail : Nat) (good : Bool) : State := s.bput Reg.sysRailStatus rail good

/-- POWER_FAULT (R677): the monitor reports a rail; with RESET_N low it is no power fault, but Cinch hears of it. -/
def execPowerFault (rail : Nat) (resetNLow : Bool) (s : State) : Out :=
  .next <|
    if 8 ≤ rail then s
    else
      let s := (s.railSet rail false).withPwr fun p => { p with resetN := !resetNLow }
      let s := if resetNLow then s else
        (((s.mainReset 2).fset Reg.sysRailStatus 11 8 (rail + 1)).bump Reg.sysPwrFaultCount 1).flag Reg.sysStatus 4
      s.vinMainLoss

/-- RAIL_BACK_IN_TOLERANCE (R526, R677). -/
def execRailBackInTolerance (rail : Nat) (s : State) : Out :=
  .next <|
    if 8 ≤ rail ∨ s.bit Reg.sysRailStatus rail then s
    else
      let s := s.railSet rail true
      if s.railsGood then (s.withPwr fun p => { p with goodSince := s.beat }).withCin fun c => { c with vinLost := false }
      else s

/-- REF_LOSS (R688): the hand-off request of every loop in RUN is asserted in the beat in which the main reset starts. The
engines stop with CLK_RFX. -/
def execRefLoss (s : State) : Out :=
  .next <|
    let s := (List.range 128).foldl
      (fun s l => if s.loopState l = 1 then s.flag (Reg.loopReg l 0x84) 9 else s) (s.mainReset 4)
    s.syncHandoff.withPwr fun p => { p with refLost := true }

/-- THERMAL_TRIP (R691): a die sensor, 0 to 16, reads at or above TRIP_C. -/
def execThermalTrip (s : State) : Out :=
  .next <|
    if s.anyAt 17 s.tripC then
      ((((s.railSet 7 false).flag Reg.sysStatus 3).withPwr fun p => { p with tripLow := true }).mainReset 3)
    else s

/-- A keyed request of a main reset: it starts in the next beat (R686). -/
def State.askReset (s : State) (cause : Nat) : State :=
  s.withPwr fun p => { p with asked := p.asked ++ [(s.beat + 1, cause)] }

/-- A write of SYS_RESET (R697): MAIN needs the key 0xA5C3 in the same write. -/
def State.sysResetWrite (s : State) (v : Word) : State :=
  if bitOf v 0 && decide (fieldOf v 31 16 = 0xA5C3) then s.askReset 6 else s

/-- SYS_RESET_MAIN (R686). -/
def execSysResetMain (who : Initiator) (key : Nat) (s : State) : Out :=
  .next (s.softWrite who Reg.sysReset (toWord (1 + 65536 * key)) fun s v => s.sysResetWrite v)

/-- The main resets that were asked for in an earlier beat start (R686). -/
def State.askedResets (s : State) : State :=
  let due := s.pwr.asked.filter fun r => decide (r.1 ≤ s.beat)
  let s := s.withPwr fun p => { p with asked := p.asked.filter fun r => !decide (r.1 ≤ s.beat) }
  due.foldl (fun s r => s.mainReset r.2) s

/-- The condition on the beats of R683: 10 ms of good rails, 100 µs after ndmreset or SYS_RESET.MAIN, and after a thermal
trip every die sensor below TRIP_C − 10 °C. That RESET_N has been high for 1 µs and the system reference present for 1 ms
is what MAIN_RESET_END reports. -/
def State.resetMayEnd (s : State) : Bool :=
  !s.mainOn && s.railsGood && decide (s.pwr.goodSince + 10 * beatsPerMs ≤ s.beat) &&
    (match s.pwr.softBeat with
      | none => true
      | some b => decide (b + 100 * beatsPerUs ≤ s.beat)) &&
    !(s.pwr.tripLow && s.anyAt 17 (s.tripC - 10))

/-- R682: ingress restores the buckles of its enabled streams; REL_BKL where the stream releases by buckle. -/
def State.restoreStream (s : State) (n : Nat) : State :=
  if s.bit (Reg.ingStrCfg n) 0 then
    let v := s.rget (Reg.ingStrSeq n)
    let s := s.bklSet .ingress (s.fget (Reg.ingStrBkl n) 13 0) v
    if s.bit (Reg.ingStrCfg n) 14 then s.bklSet .ingress (s.fget (Reg.ingStrBkl n) 29 16) v else s
  else s

/-- R682: Quadrille restores PUB_BKL and its release buckle. -/
def State.restorePub (s : State) : State :=
  let s := s.bklSet .quadrille (s.fget Reg.qdrPubBkl 13 0) s.qdr.pubSeq
  if s.bit Reg.qdrPubCfg 2 then s.bklSet .quadrille (s.fget Reg.qdrPubBkl 29 16) s.qdr.pubSeq else s

/-- R682: the SSU restores the DONE_BKL that problem p's descriptor names. -/
def State.restoreProblem (s : State) (p : Nat) : State :=
  let w := s.readNat (reflexBase + s.fget (Reg.ssuPDesc p) 22 6 * 64 + 0x30) 4
  if bitsOf w 15 15 = 1 then s.bklSet .ssu (bitsOf w 13 0) (s.rget (Reg.ssuPSeq p)) else s

/-- The count of blown bits of ROLLBACK (R602, R609). -/
def Fuses.rollbackCount (f : Fuses) : Nat := (List.range 64).foldl (fun c i => c + b2n (f.rollback.testBit i)) 0

/-- The fuse controller loads the fields with the reset value "fuse" (R13, R593). -/
def State.loadFuses (s : State) (fuseError : Bool) : State :=
  let f := s.fuses
  let s := s.rset Reg.cfgFuse (toWord (b2n f.secureBoot + 2 * (f.keyRevoke % 4) + 8 * b2n f.debugLock + 65536 * f.rollbackCount))
  let s := (s.rset Reg.cfgUidLo (toWord f.uid)).rset Reg.cfgUidHi (toWord (f.uid / 2 ^ 32))
  s.bput Reg.cfgStatus 6 fuseError

/-- Is debug access open (R625): DEBUG_LOCK is not blown, or the Steward has opened it. The debug module is in the main
domain. -/
def State.debugOpen (s : State) : Bool := s.mainOn && (!s.fuses.debugLock || s.bit Reg.tlgAuth 0)

/-- A hart of the debug module enters debug mode (R627): it stops with registers that are its own. -/
def State.haltHart (s : State) (hart : Nat) : State :=
  if s.tlg.halted.contains hart then s
  else
    let stop := s.freeCtr
    let (_, s) := s.drawNat
    { s with tlg := { s.tlg with
      halted := hart :: s.tlg.halted
      stops := (hart, stop) :: s.tlg.stops.filter fun x => x.1 ≠ hart
      written := s.tlg.written.filter fun x => x.1 ≠ hart } }

/-- The harts of the main domain that the debugger asked to halt on their reset halt as they leave it (R622). -/
def State.haltOnReset (s : State) : State :=
  if s.debugOpen then (s.tlg.resetHalt.filter fun h => decide (h < 0x20)).foldl State.haltHart s |>.syncHalt else s

/-- MAIN_RESET_END (R683, R682, R593): the main domain leaves reset, the buckles are restored, the fuses are loaded. -/
def execMainResetEnd (fuseError : Bool) (s : State) : Out :=
  .next <|
    if s.resetMayEnd then
      let s := (s.flag Reg.sysStatus 0).withPwr fun p => { p with
        resetN := true, softBeat := none, endBeat := some s.beat, tripLow := false, refLost := false }
      let s := (List.range 40).foldl State.restoreStream s
      let s := (List.range 8).foldl State.restoreProblem s.restorePub
      let s := s.loadFuses fuseError
      { s with stw := { s.stw with toBoot := true } }.haltOnReset
    else s

/-- The level of RESET_OUT_N (R685): high from 1 ms after the end of the main reset. -/
def State.resetOutN (s : State) : Bool :=
  s.mainOn && (match s.pwr.endBeat with
    | none => false
    | some b => decide (b + beatsPerMs ≤ s.beat))

/-- The level of XSPI_RST_N (R667, R695): low in a main reset, and for the first 10 µs of the boot, which starts 50 µs after
it (R683). -/
def State.xspiRstN (s : State) : Bool :=
  s.mainOn && (match s.pwr.endBeat with
    | none => false
    | some b => decide (b + 60 * beatsPerUs ≤ s.beat))

/-- Has the Steward left reset: 50 µs after the end of the main reset (R683). -/
def State.stewardOut (s : State) : Bool :=
  s.mainOn && s.pwr.endBeat.any fun b => decide (b + 50 * beatsPerUs ≤ s.beat)

/-- POWER_ON_RESET (R679): every block at its reset values; the fuses and the flash keep their contents, and every memory
loses them. -/
def execPowerOnReset (s : State) : Out :=
  .next (State.loseMemory { State.reset with
    pending := s.pending
    freeCtr := s.freeCtr
    lost := s.lost
    fuses := s.fuses
    flash := s.flash } fun _ => true)

/-- The write rule of the SYS_ registers (R697). -/
def State.sysWrite (s : State) (o : Nat) (v : Word) : State :=
  if o = 0x0C then s.sysResetWrite v
  else
    let s := s.putTyped (0x10000000 + o) v 0
    if o = 0x18 ∧ s.hot then s.flag Reg.sysStatus 1 else s

end Sys2Proof.Machine
end

