-- ==== Sys2Proof/Machine/Steward.lean ====
section
/-!
DEFINITION. Machine/Steward.lean: images and packages, fuses, the configuration flash, and the commands to the Steward
(R597 to R621). The boot itself is in Boot.lean.
-/

namespace Sys2Proof.Machine

/-- Change what the Steward holds beside its registers. -/
def State.withStw (s : State) (f : Steward → Steward) : State := { s with stw := f s.stw }

/-! ### Images (R597 to R602) -/

/-- One entry of a section table (R597). -/
structure Section where
  typ : Nat
  slot : Nat
  offset : Nat
  length : Nat
  entry : Nat
  version : Nat
  crc : Nat
  digest : List Byte
  /-- every reserved field is 0 -/
  clean : Bool
  deriving DecidableEq, Repr

/-- Are these bytes of a header or a table entry all zero. -/
def zeros (bs : List Byte) (a n : Nat) : Bool := ((bs.drop a).take n).all (· = 0)

/-- The entry that 128 bytes hold. -/
def sectionOf (e : List Byte) : Section where
  typ := descField e 0 7 0
  slot := descField e 0 9 8
  offset := descWord e 0x04
  length := descWord e 0x08
  entry := descWord e 0x0C
  version := descField e 0x10 15 0
  crc := descWord e 0x14
  digest := (e.drop 0x20).take 48
  clean := decide (descField e 0 31 10 = 0 ∧ descField e 0x10 31 16 = 0) && zeros e 0x18 8 && zeros e 0x50 48

/-- The sections of an image. -/
def sectionsOf (img : List Byte) : List Section :=
  (List.range (descField img 0x0C 6 0)).map fun i => sectionOf ((img.drop (0x100 + 128 * i)).take 128)

/-- IMAGE_LEN (R597). -/
def imageLen (img : List Byte) : Nat := descWord img 0x08

/-- The bytes of a section. -/
def sectionBytes (img : List Byte) (x : Section) : List Byte := (img.drop x.offset).take x.length

/-- The class of a section type (R597); 15 for the sections that belong to none. -/
def sectionClass (typ : Nat) : Nat :=
  if typ = 1 then 0 else if typ = 2 then 1 else if typ = 3 then 2 else if typ = 4 ∨ typ = 5 then 3
  else if typ = 6 then 4 else 15

/-- The size of the slot that a section goes to (R612). The spec gives no size for a Stirrup image, which is open, and
none for the configuration records; CLUSTER_BOOT has the rest of Tier A. -/
def slotSize (x : Section) : Nat :=
  if x.typ = 2 then 65536
  else if x.typ = 6 then Config.stirrupImageMax
  else if x.typ = 7 then 2 ^ 32
  else if x.typ = 8 then 0x10000000 - x.entry / 4096 * 4096
  else 262144

/-- Do two sections share a byte. -/
def overlaps (x y : Section) : Bool := decide (x.offset < y.offset + y.length ∧ y.offset < x.offset + x.length)

/-- Is every section of a list apart from the others. -/
def allApart : List Section → Bool
  | [] => true
  | x :: xs => !xs.any (overlaps x) && allApart xs

/-- Does the list hold a section of this type and slot. -/
def hasSection (secs : List Section) (typ slot : Nat) : Bool := secs.any fun x => x.typ = typ && x.slot = slot

/-- R599: the checks of the header. -/
def headerOk (img : List Byte) : Bool :=
  decide (descWord img 0 = 0x4339424C ∧ descField img 4 3 0 = 1 ∧ descField img 4 7 4 = 0 ∧
    descField img 4 31 10 = 0 ∧ descField img 0x0C 31 7 = 0 ∧ descField img 0x18 31 17 = 0 ∧
    descField img 0x1C 31 5 = 0 ∧ imageLen img ≤ 33554432 ∧ 1 ≤ descField img 0x0C 6 0 ∧
    descField img 0x0C 6 0 ≤ 64) &&
  zeros img 0x2C 0xD0 &&
  decide (crc32c (img.take 0xFC ++ (img.drop 0x100).take (128 * descField img 0x0C 6 0)) = descWord img 0xFC)

/-- R599: is the signature block inside the image, where one is present (R602: four values of 48 B and a word). -/
def signatureInside (img : List Byte) : Bool :=
  descField img 4 8 8 = 0 || decide (descWord img 0x28 + 196 ≤ imageLen img)

/-- R599: the checks of the section table but for the lengths; a package names slotted sections only and ignores SLOT. -/
def tableOk (img : List Byte) (package : Bool) : Bool :=
  let secs := sectionsOf img
  let slotFits (x : Section) : Bool :=
    package || (if x.typ = 7 ∨ x.typ = 8 then x.slot = 2 else decide (x.slot ≤ 1))
  let slots := if package then [0] else [0, 1]
  let has (typ k : Nat) : Bool := if package then secs.any (·.typ = typ) else hasSection secs typ k
  secs.all (fun x => x.clean && decide (1 ≤ x.typ ∧ x.typ ≤ 8) && slotFits x &&
    decide (x.offset + x.length ≤ imageLen img)) &&
  allApart secs && signatureInside img &&
  slots.all (fun k => !has 4 k || has 5 k) &&
  (package || (secs.any (·.typ = 1) && secs.any (·.typ = 7) && secs.any (·.typ = 8)))

/-- R598, R601: the CRC of every section, and its digest where the image is signed. -/
def sectionOk (img : List Byte) (x : Section) : Bool :=
  decide (crc32c (sectionBytes img x) = x.crc) &&
    (descField img 4 8 8 = 0 || decide (sha384 (sectionBytes img x) = x.digest))

/-- R605: the configuration records of a section: address and value. -/
def recordsOf (bs : List Byte) : List (Nat × Nat) :=
  (List.range (bs.length / 8)).map fun i => (descWord bs (8 * i), descWord bs (8 * i + 4))

/-- R599, R601: the failure code of a header and a table: 2, or 5 for a package section that is too long (R613). -/
def tableCode (img : List Byte) (package : Bool) : Nat :=
  if !headerOk img || !tableOk img package then 2
  else if (sectionsOf img).any fun x => decide (slotSize x < x.length) then (if package then 5 else 2)
  else 0

/-- Is SECURE_BOOT blown, or to be treated as blown (R593). -/
def State.secure (s : State) : Bool := s.fuses.secureBoot || s.bit Reg.cfgStatus 6

/-- Is key slot k usable: not revoked (R593, R602). -/
def State.keyUsable (s : State) (k : Nat) : Bool := !s.fuses.keyRevoke.testBit k && !s.bit Reg.cfgStatus 6

/-- R602, R608: the failure code of the signature, where one is required or present. -/
def State.signatureCode (s : State) (img : List Byte) : Nat :=
  if descField img 4 8 8 = 0 then (if s.secure then 3 else 0)
  else
    let g := img.drop (descWord img 0x28)
    let part (k : Nat) : List Byte := (g.drop (48 * k)).take 48
    let slot := descWord g 192
    let hash := if slot = 0 then s.fuses.keyHash0 else s.fuses.keyHash1
    if 1 < slot || !s.keyUsable slot || decide (bigEndian (sha384 (part 0 ++ part 1)) ≠ hash) ||
        !ecdsaVerify (bigEndian (part 0)) (bigEndian (part 1)) (bigEndian (part 2)) (bigEndian (part 3))
          (img.take (0x100 + 128 * descField img 0x0C 6 0)) then 3
    else if descWord img 0x10 < s.fuses.rollbackCount then 4
    else 0

/-- The key slot that signed an image. -/
def keySlotOf (img : List Byte) : Option Nat :=
  if descField img 4 8 8 = 0 then none else some (descWord (img.drop (descWord img 0x28)) 192)

/-- The failure code of a whole image or package (R598 to R602, R608). -/
def State.imageCode (s : State) (img : List Byte) (package : Bool) : Nat :=
  let c := tableCode img package
  if c ≠ 0 then c
  else
    let g := s.signatureCode img
    if g ≠ 0 then g
    else if (sectionsOf img).all (sectionOk img) &&
        (sectionsOf img).all (fun x => x.typ ≠ 7 || (recordsOf (sectionBytes img x)).all fun r => inBlock r.1) then 0
    else 2

/-! ### The flash (R597, R621, R667) -/

/-- The size of the flash: at least 64 MiB. -/
def flashSize : Nat := 0x4000000 + Config.flashBeyond

/-- What an unlisted byte of the flash reads as: erased, or unknown in a block that a failed erase or write left. -/
def flashDefault (unknown : List (Nat × Nat)) (a : Nat) : Byte :=
  match spGet (fun _ => 0) unknown (a / 65536) with
  | 0 => 0xFF
  | e + 1 => Config.flashByte e a

/-- One byte of the flash. -/
def Flash.byte (f : Flash) (a : Nat) : Byte := spGet (flashDefault f.unknown) f.cells a

/-- Bytes of the flash. -/
def Flash.bytes (f : Flash) (a n : Nat) : List Byte := (List.range n).map fun i => f.byte (a + i)

/-- The whole image in an image region: what its header's IMAGE_LEN names, or its header alone where that is too long. -/
def Flash.image (f : Flash) (a : Nat) : List Byte :=
  let n := imageLen (f.bytes a 0x100)
  f.bytes a (if n ≤ 33554432 then max 0x100 n else 0x100)

/-- Drop the image regions that a range touches from those that hold a verified image (R621). -/
def Flash.touched (f : Flash) (a n : Nat) : Flash :=
  { f with verified := f.verified.filter fun r => !decide (a < 0x2000000 * (r + 1) ∧ 0x2000000 * r < a + n) }

/-- Erase whole blocks. -/
def Flash.erase (f : Flash) (a n : Nat) : Flash :=
  { f.touched a n with
    cells := f.cells.filter fun c => !decide (a ≤ c.1 ∧ c.1 < a + n)
    unknown := f.unknown.filter fun c => !decide (a / 65536 ≤ c.1 ∧ c.1 < (a + n) / 65536) }

/-- Program bytes: a NOR cell goes from 1 to 0 only (log entry 23). -/
def Flash.program (f : Flash) (a : Nat) (bs : List Byte) : Flash :=
  { f.touched a bs.length with
    cells := (bs.zipIdx).foldl
      (fun m b => spSet (flashDefault f.unknown) m (a + b.2) (spGet (flashDefault f.unknown) m (a + b.2) &&& b.1)) f.cells }

/-- A failed erase or write leaves the blocks it touches unknown. -/
def State.flashBroken (s : State) (a n : Nat) : State :=
  let (_, t) := s.drawNat
  let blocks := (List.range (ceilDiv (a % 65536 + n) 65536)).map fun i => a / 65536 + i
  let f := s.flash.touched a n
  { t with flash := { f with
    cells := f.cells.filter fun c => !blocks.contains (c.1 / 65536)
    unknown := blocks.foldl (fun u b => spSet (fun _ => 0) u b (s.freeCtr + 1)) f.unknown } }

/-- The image region that the running boot used (R621); none after factory defaults or before a boot. -/
def State.bootRegion (s : State) : Option Nat :=
  if s.bit Reg.cfgStatus 0 && decide (s.fget Reg.cfgStatus 2 1 ≤ 1) then some (s.fget Reg.cfgStatus 2 1) else none

/-- May a command act on a range of the flash (R621): inside the device, and the region of the running boot only while
the other one holds a verified image. -/
def State.flashAllowed (s : State) (a n : Nat) : Bool :=
  decide (0 < n ∧ a + n ≤ flashSize) &&
    match s.bootRegion with
    | none => true
    | some r =>
      !decide (a < 0x2000000 * (r + 1) ∧ 0x2000000 * r < a + n) || s.flash.verified.contains (1 - r)

/-! ### Runtime slots (R611, R612, R617) -/

/-- The instance that a class and an index name. -/
def instanceOf (cls index : Nat) : Option Nat :=
  if cls = 0 then some 0
  else if cls = 1 ∧ index < 2 then some (1 + index)
  else if cls = 2 ∧ index < 4 then some (3 + index)
  else if cls = 3 then some 7
  else if cls = 4 ∧ index < 5 then some (8 + index)
  else none

/-- The firmware that an instance runs. -/
def State.firmware (s : State) (i : Nat) : Option Firmware := (s.stw.active.find? fun f => f.1 = i).map (·.2)

/-- The pending slot of an instance. -/
def State.pendingFw (s : State) (i : Nat) : Option Firmware := (s.stw.waiting.find? fun f => f.1 = i).map (·.2)

/-- CFG_SLOT_VER and STP_ENG_IMAGE show an instance's active slot and version (R617). -/
def State.syncSlot (s : State) (i : Nat) : State :=
  match s.firmware i with
  | none => if i < 8 then s.bput (Reg.cfgSlotVer i) 17 (s.pendingFw i).isSome else s
  | some f =>
    if i < 8 then
      s.rset (Reg.cfgSlotVer i) (toWord (f.version % 65536 + 65536 * f.slot + 131072 * b2n (s.pendingFw i).isSome))
    else s.rset (Reg.stpEngImage (i - 8)) (toWord (f.version % 65536 + 65536))

/-- The slot beside the active one. -/
def State.otherSlot (s : State) (i : Nat) : Nat :=
  match s.firmware i with
  | none => 0
  | some f => 1 - f.slot

/-- The loader writes a Cinch slot (R612, R619): the firmware at the slot's start; where in the slot the safety parameters
go is open: at a free offset behind the firmware. -/
def State.loadCinch (s : State) (slot : Nat) (fw params : List Byte) : State :=
  let base := cinchBase + 0x40000 * (slot % 2)
  let (k, s) := s.drawNat
  let room := 0x40000 - fw.length - params.length
  (s.writeBytes base (fw.take 0x40000)).writeBytes (base + fw.length + k % (room + 1))
    (params.take (0x40000 - fw.length - k % (room + 1)))

/-- Firmware from a section. -/
def firmwareOf (img : List Byte) (x : Section) (slot : Nat) : Firmware :=
  ⟨sectionBytes img x, x.version, x.entry, slot⟩

/-- LOAD (R611): the failure code, and the state with the pending slot written. -/
def State.stwLoad (s : State) (c : StwCmd) : State × Nat :=
  match instanceOf c.cls c.index with
  | none => (s, 5)
  | some i =>
    if c.pkg % 64 ≠ 0 || !(regionOf c.pkg = .tierB || regionOf c.pkg = .reflexSram) then (s, 10)
    else
      match s.engineLoad c.pkg 0x100 with
      | (s, none) => (s, 2)
      | (s, some hd) =>
        if 33554432 < imageLen hd then (s, 2)
        else
          match s.engineLoad c.pkg (max 0x100 (imageLen hd)) with
          | (s, none) => (s, 2)
          | (s, some img) =>
            let code := s.imageCode img true
            let secs := sectionsOf img
            if code ≠ 0 then (s, code)
            else if secs.any fun x => decide (sectionClass x.typ ≠ c.cls) then (s, 5)
            else
              match secs.find? fun x => x.typ ≠ 5 with
              | none => (s, 5)
              | some x =>
                let f := firmwareOf img x (s.otherSlot i)
                let s := if i = 7 then
                    s.loadCinch f.slot f.image
                      ((secs.find? fun y => y.typ = 5).elim [] (sectionBytes img))
                  else s
                ((s.withStw fun w => { w with
                  waiting := (i, f) :: w.waiting.filter fun g => g.1 ≠ i }).syncSlot i, 0)

/-- The pending slot of an instance becomes the active one. -/
def State.takeSlot (s : State) (i : Nat) (f : Firmware) : State :=
  (s.withStw fun w => { w with
    active := (i, f) :: w.active.filter fun g => g.1 ≠ i
    waiting := w.waiting.filter fun g => g.1 ≠ i }).syncSlot i

/-- 10 ms in beats. -/
def tenMs : Nat := 1250000

/-- ACTIVATE (R612): the failure code; none while a Reflex core has not yielded and still may. -/
def State.stwActivate (s : State) (c : StwCmd) : State × Option Nat :=
  match instanceOf c.cls c.index with
  | none => (s, some 5)
  | some i =>
    match s.pendingFw i with
    | none => (s, some 6)
    | some f =>
      if i = 0 then
        let t := s.takeSlot 0 f
        let t := (t.bput Reg.stwStatus 2 (f.slot = 1)).flag Reg.stwStatus 3
        (t.fset Reg.stwStatus 15 8 (t.fget Reg.stwStatus 15 8 + 1), some 0)
      else if i ≤ 2 then
        if s.ringState (i - 1) = 0 || s.ringState (i - 1) = 4 then (s.takeSlot i f, some 0) else (s, some 6)
      else if i ≤ 6 then
        if !s.bit Reg.stwRfxYield (i - 3) then (s, none)
        else if c.beat + tenMs < s.beat then (s.bput Reg.stwRfxYield (i - 3) false, some 7)
        else ((s.takeSlot i f).bput Reg.stwRfxYield (i - 3) false, some 0)
      else if i = 7 then
        if s.cinState = 3 && s.bit Reg.cinReq 2 then (s.takeSlot 7 f, some 0) else (s, some 6)
      else if s.engRole (i - 8) = 1 then (s.takeSlot i f, some 0)
      else (s, some 6)

/-- SET_BOOT (R604): CFG_BOOT_SEL through the load path. -/
def State.stwSetBoot (s : State) (c : StwCmd) : State × Nat :=
  if c.cls ≤ 4 then (s.bput Reg.cfgBootSel c.cls (c.arg0 % 2 = 1), 0) else (s, 5)

/-- FLASH_ERASE (R621, R667): whole blocks of 64 KiB. -/
def State.stwErase (s : State) (c : StwCmd) (deviceError : Bool) : State × Nat :=
  if c.arg0 % 65536 ≠ 0 || c.arg1 % 65536 ≠ 0 || !s.flashAllowed c.arg0 c.arg1 then (s, 10)
  else if deviceError then (s.flashBroken c.arg0 c.arg1, 8)
  else ({ s with flash := s.flash.erase c.arg0 c.arg1 }, 0)

/-- FLASH_WRITE (R621). -/
def State.stwWriteFlash (s : State) (c : StwCmd) (deviceError : Bool) : State × Nat :=
  if c.pkg % 64 ≠ 0 || !(regionOf c.pkg = .tierB || regionOf c.pkg = .reflexSram) || !s.flashAllowed c.arg0 c.arg1 then
    (s, 10)
  else
    match s.engineLoad c.pkg c.arg1 with
    | (s, none) => (s, 10)
    | (s, some bs) =>
      if deviceError then (s.flashBroken c.arg0 c.arg1, 8)
      else ({ s with flash := s.flash.program c.arg0 bs }, 0)

/-- FLASH_VERIFY (R621). -/
def State.stwVerify (s : State) (c : StwCmd) (deviceError : Bool) : State × Nat :=
  if c.arg0 ≠ 0 ∧ c.arg0 ≠ 0x2000000 then (s, 10)
  else if deviceError then (s, 8)
  else
    let code := s.imageCode (s.flash.image c.arg0) false
    let r := c.arg0 / 0x2000000
    if code = 0 then
      ({ s with flash := { s.flash with verified := if s.flash.verified.contains r then s.flash.verified else
        r :: s.flash.verified } }, 0)
    else (s, code)

/-- Has the unit that SELFTEST names no work in progress (R620): the Callers stand for the Tensor Plane, whose next op
boundary counts. -/
def State.selftestDue (s : State) (c : StwCmd) : Bool :=
  if c.cls = 1 then s.ten.run.isNone
  else if c.cls = 3 then decide (s.cinState = 3)
  else if c.cls = 4 then decide (s.engRole c.index = 1)
  else true

/-- SELFTEST (R620): none while it is deferred. -/
def State.stwSelftest (s : State) (c : StwCmd) : Option Nat :=
  if (instanceOf c.cls c.index).isNone then some 5
  else if c.beat + c.arg0 * beatsPerMs < s.beat then some 7
  else if s.selftestDue c then some 0
  else none

/-- FUSE (R609): which fuse bits ARG0 and ARG1 name is open (the table of fuses gives no numbers). Revoking the key slot
of the running image, or a ROLLBACK count above its SEC_VERSION, is refused. -/
def State.stwFuse (s : State) (c : StwCmd) : State × Nat :=
  let open_ := s.stw.unlock.any fun b => decide (b ≤ c.beat ∧ c.beat ≤ b + beatsPerMs)
  let f := s.fuses
  if !open_ || !c.trusted then (s, 9)
  else
    match Config.fuseNamed c.arg0 with
    | 0 => ({ s with fuses := { f with secureBoot := f.secureBoot || c.arg1 % 2 = 1 } }, 0)
    | 1 => ({ s with fuses := { f with keyHash0 := f.keyHash0 ||| Config.fuseShift c.arg0 c.arg1 } }, 0)
    | 2 => ({ s with fuses := { f with keyHash1 := f.keyHash1 ||| Config.fuseShift c.arg0 c.arg1 } }, 0)
    | 3 =>
      if s.stw.signedBy.any fun k => c.arg1.testBit k then (s, 9)
      else ({ s with fuses := { f with keyRevoke := f.keyRevoke ||| c.arg1 % 4 } }, 0)
    | 4 =>
      if (s.rget Reg.cfgSecVer).toNat < c.arg1 || decide (64 < c.arg1) then (s, 9)
      else ({ s with fuses := { f with rollback := f.rollback ||| (2 ^ c.arg1 - 1) } }, 0)
    | 5 => ({ s with fuses := { f with debugLock := f.debugLock || c.arg1 % 2 = 1 } }, 0)
    | 6 => ({ s with fuses := { f with uid := f.uid ||| Config.fuseShift c.arg0 c.arg1 % 2 ^ 64 } }, 0)
    | _ => (s, 10)

/-- R618: FUSE, SET_BOOT for class 3, and LOAD or ACTIVATE for Cinch need a trusted initiator. -/
def StwCmd.permitted (c : StwCmd) : Bool :=
  c.trusted || !(decide (c.op = 8) || (decide (c.cls = 3) && decide (c.op ≤ 3)))

/-- The Steward carries out a command: its failure code, or none while its condition is still to come. -/
def State.carryOut (s : State) (c : StwCmd) (deviceError : Bool) : State × Option Nat :=
  let done (r : State × Nat) : State × Option Nat := (r.1, some r.2)
  if !c.permitted then (s, some 9)
  else
    match c.op with
    | 1 => done (s.stwLoad c)
    | 2 => s.stwActivate c
    | 3 => done (s.stwSetBoot c)
    | 4 => done (s.stwErase c deviceError)
    | 5 => done (s.stwWriteFlash c deviceError)
    | 6 => done (s.stwVerify c deviceError)
    | 7 => (s, s.stwSelftest c)
    | _ => done (s.stwFuse c)

/-- Carry out the command in progress if it has not been carried out and the Steward acts (R615, R627). -/
def State.stwRun (s : State) (deviceError : Bool) : State :=
  match s.stw.cmd with
  | some c =>
    if c.code.isSome || !s.stewardActs then s
    else
      let (t, code) := s.carryOut c deviceError
      t.withStw fun w => { w with cmd := some { c with code := code } }
  | none => s

/-- Start a command. -/
def State.stwStart (s : State) (c : StwCmd) (deviceError : Bool) : State :=
  ((s.flag Reg.stwCmdStatus 0).withStw fun w => { w with cmd := some c }).stwRun deviceError

/-- A command is over (R614): DONE, its code and its OP. -/
def State.stwReport (s : State) (op code : Nat) : State :=
  ((s.flag Reg.stwCmdStatus 1).fset Reg.stwCmdStatus 7 4 code).fset Reg.stwCmdStatus 15 8 op

/-- A write of STW_CMD (R614, R615, R618): refused with 0x1 while a command is in progress; held while the Steward
restarts. An OP that the table does not list does nothing. -/
def State.stwCmdWrite (s : State) (who : Initiator) (v : Word) (deviceError : Bool) : State :=
  let op := fieldOf v 7 0
  let c : StwCmd := ⟨op, fieldOf v 11 8, fieldOf v 15 12, (s.rget Reg.stwArg0).toNat, (s.rget Reg.stwArg1).toNat,
    (s.rget Reg.stwPkgLo).toNat + 2 ^ 32 * s.fget Reg.stwPkgHi 15 0, isTrusted who, s.beat, none⟩
  if op = 0 ∨ 8 < op then s
  else if s.bit Reg.stwStatus 3 then s.withStw fun w => { w with queue := w.queue ++ [c] }
  else if s.bit Reg.stwCmdStatus 0 then s.stwReport op 1
  else s.stwStart c deviceError

/-- The command in progress ends with its code; the Steward's restart ends with the ACTIVATE that caused it (R615), and
a command written meanwhile starts. -/
def State.stwEnd (s : State) (c : StwCmd) (code : Nat) : State :=
  let s := ((s.stwReport c.op code).bput Reg.stwCmdStatus 0 false).bput Reg.stwStatus 3 false
  let s := s.withStw fun w => { w with cmd := none, queue := w.queue.drop 1 }
  s

/-- Start the first command that was held. -/
def State.stwNext (s : State) (held : List StwCmd) : State :=
  match held with
  | [] => s
  | c :: _ => s.stwStart c false

/-- STW_COMMAND_DONE (R614). -/
def execStwCommandDone (deviceError : Bool) (s : State) : Out :=
  .next <|
    if s.tlg.halted.contains 0x10 || !s.mainOn then s
    else
      let s := s.stwRun deviceError
      match s.stw.cmd with
      | some c =>
        match c.code with
        | some code => (s.stwEnd c code).stwNext s.stw.queue
        | none => s
      | none => s

/-- A command's row: its write of STW_CMD. -/
def stwCommand (who : Initiator) (op cls index : Nat) (deviceError : Bool) (s : State) : Out :=
  .next (s.softWrite who Reg.stwCmd (toWord (op + 256 * (cls % 16) + 4096 * (index % 16)))
    fun s v => s.stwCmdWrite who v deviceError)

/-- STW_LOAD (R611). -/
def execStwLoad (who : Initiator) (cls index : Nat) (s : State) : Out := stwCommand who 1 cls index false s

/-- STW_ACTIVATE (R612). -/
def execStwActivate (who : Initiator) (cls index : Nat) (s : State) : Out := stwCommand who 2 cls index false s

/-- STW_SET_BOOT (R604): the slot is ARG0 [0]. -/
def execStwSetBoot (who : Initiator) (cls : Nat) (s : State) : Out := stwCommand who 3 cls 0 false s

/-- STW_FLASH_ERASE (R621). -/
def execStwFlashErase (who : Initiator) (deviceError : Bool) (s : State) : Out := stwCommand who 4 0 0 deviceError s

/-- STW_FLASH_WRITE (R621). -/
def execStwFlashWrite (who : Initiator) (deviceError : Bool) (s : State) : Out := stwCommand who 5 0 0 deviceError s

/-- STW_FLASH_VERIFY (R621). -/
def execStwFlashVerify (who : Initiator) (deviceError : Bool) (s : State) : Out := stwCommand who 6 0 0 deviceError s

/-- STW_SELFTEST (R620). -/
def execStwSelftest (who : Initiator) (cls index : Nat) (s : State) : Out := stwCommand who 7 cls index false s

/-- STW_FUSE (R609). -/
def execStwFuse (who : Initiator) (s : State) : Out := stwCommand who 8 0 0 false s

/-- A Reflex core consents: bit n from core n only (R618); an ACTIVATE that waits for it is carried out (R612). -/
def State.yieldWrite (s : State) (who : Initiator) (v : Word) : State :=
  match who with
  | .reflex n => (if bitOf v (n % 4) then s.flag Reg.stwRfxYield (n % 4) else s).stwRun false
  | _ => s

/-- RFX_YIELD_WRITE (R612, R618). -/
def execRfxYieldWrite (who : Initiator) (value : Word) (s : State) : Out :=
  .next (s.softWrite who Reg.stwRfxYield value fun s v => s.yieldWrite who v)

/-- ACTIVATE_TIMEOUT (R612, R620): 10 ms without the yield, or ARG0 ms without a point at which the self-test could run. -/
def execActivateTimeout (s : State) : Out :=
  .next <|
    match s.stw.cmd with
    | none => s
    | some c =>
      let limit := if c.op = 2 then tenMs else c.arg0 * beatsPerMs
      if c.code.isNone && s.stewardActs && decide (c.op = 2 ∨ c.op = 7) && decide (c.beat + limit < s.beat) then
        let s := if c.op = 2 ∧ c.cls = 2 then s.bput Reg.stwRfxYield (c.index % 4) false else s
        (s.stwEnd c 7).stwNext s.stw.queue
      else s

/-- A write of CFG_FUSE_UNLOCK (R609). -/
def State.unlockWrite (s : State) (v : Word) : State :=
  if v = 0x0000F05E then s.withStw fun w => { w with unlock := some s.beat } else s

/-- FUSE_UNLOCK_WRITE (R609). -/
def execFuseUnlockWrite (who : Initiator) (key : Word) (s : State) : Out :=
  .next (s.softWrite who Reg.cfgFuseUnlock key fun s v => s.unlockWrite v)

/-- The write rule of the STW_ registers (R618). -/
def State.stwWrite (s : State) (who : Initiator) (o : Nat) (v : Word) : State :=
  if o = 0x104 then s.stwCmdWrite who v false
  else if o = 0x11C then s.capWrite v
  else if o = 0x120 then s.yieldWrite who v
  else s.putTyped (0x10000000 + o) v 0

/-- The write rule of the CFG_ block. -/
def State.cfgWrite (s : State) (o : Nat) (v : Word) : State :=
  if o = 0x1C then s.unlockWrite v else s.putTyped (0x10800000 + o) v 0

end Sys2Proof.Machine
end

