-- ==== Sys2Proof/Machine/Tooling.lean ====
section
/-!
DEFINITION. Machine/Tooling.lean: debug access, halts, event counters, samples, and the beat (R622 to R642).
-/

namespace Sys2Proof.Machine

/-- Change what Tooling holds beside its registers. -/
def State.withTlg (s : State) (f : Tooling → Tooling) : State := { s with tlg := f s.tlg }

/-! ### The debug module (R622 to R627) -/

/-- R623: the harts of the debug module, by initiator code. -/
def harts : List Nat := [0, 1, 2, 3, 4, 5, 6, 7, 8, 9, 10, 11, 0x10, 0x18, 0x19, 0x20, 0x21, 0x22, 0x23]

/-! ### The test access port (R626, R668) -/

/-- The instruction that the port takes up when `i` is shifted in: with DEBUG_LOCK blown only those of R626; another acts as
BYPASS (log entry 48). -/
def State.tapTakes (s : State) (i : TapInstr) : TapInstr :=
  if !s.fuses.debugLock then i
  else
    match i with
    | .bypass | .idcode | .samplePreload | .dtmcs | .dmi => i
    | .extest | .clamp | .highz => .bypass

/-- IDCODE (R668). -/
def tapIdcode : Nat := 0x00960A3D

/-- dtmcs as it reads (R622): version 1, abits 7, idle 1. -/
def tapDtmcs : Nat := 1 + 16 * 7 + 4096 * 1

/-- What the selected data register captures: the identification, the transport's status, the pins or the debug module's answer
(free), or the 0 of the bypass bit. -/
def State.tapCapture (s : State) : Nat × State :=
  match s.tlg.tap.ir with
  | .idcode => (tapIdcode, s)
  | .dtmcs => (tapDtmcs, s)
  | .samplePreload | .extest | .dmi => s.drawNat
  | .bypass | .clamp | .highz => (0, s)

/-- Change the port. -/
def State.withTap (s : State) (f : Tap → Tap) : State := s.withTlg fun t => { t with tap := f t.tap }

/-- One scan: TRST_N selects IDCODE and takes the level of JTAG_2PIN; a data register's capture comes out and, for the boundary
register, what is shifted in stands in the cells. -/
def State.tapScan (s : State) : TapScan → State
  | .reset twoPin => s.withTap fun t => { t with twoPin := twoPin, ir := .idcode }
  | .ir i => s.withTap fun t => { t with ir := s.tapTakes i }
  | .dr v =>
    let (out, s) := s.tapCapture
    s.withTap fun t => { t with
      out := out
      cells := if t.ir = .samplePreload ∨ t.ir = .extest then v else t.cells }

/-- The scans that bring a debug command. -/
def State.tapScans (s : State) (scans : List TapScan) : State := scans.foldl State.tapScan s

/-- The level of a pin whose boundary cell is number `cell` and which the block drives to `own`; none: it floats. The cells of
CIN_SAFE_A, CIN_SAFE_B and CIN_STO_N only capture, whatever instruction is loaded (R626). -/
def Tap.pin (t : Tap) (safety : Bool) (cell : Nat) (own : Bool) : Option Bool :=
  if safety then some own
  else
    match t.ir with
    | .extest | .clamp => some (t.cells.testBit cell)
    | .highz => none
    | .bypass | .idcode | .samplePreload | .dtmcs | .dmi => some own

/-- A debug command reaches the debug module once its scans have left the port at DMI (R622, R668); `f` is what it does
there. -/
def State.debugCommand (s : State) (scans : List TapScan) (f : State → State) : State :=
  let s := s.tapScans scans
  if s.tlg.tap.ir = .dmi then f s else s

/-! ### Halting harts (R622, R627) -/

/-- DEBUG_HALT_REQUEST (R622, R627): the hart alone stops; a Caller raises an engine halt with HALT_ON_CALLER. With `atReset`
the request is to halt on its next reset, or takes that back. -/
def execDebugHaltRequest (scans : List TapScan) (hart : Nat) (atReset : Option Bool) (s : State) : Out :=
  .next <| s.debugCommand scans fun s =>
    if s.debugOpen && harts.contains hart then
      match atReset with
      | none => (s.haltHart hart).syncHalt
      | some on => s.withTlg fun t => { t with
          resetHalt := (if on then [hart] else []) ++ t.resetHalt.filter (· ≠ hart) }
    else s

/-- DEBUG_RESUME_REQUEST (R622). -/
def execDebugResumeRequest (scans : List TapScan) (hart : Nat) (s : State) : Out :=
  .next <| s.debugCommand scans fun s =>
    if s.debugOpen && s.tlg.halted.contains hart then
      (s.withTlg fun t => { t with
        halted := t.halted.filter (· ≠ hart)
        stops := t.stops.filter fun x => x.1 ≠ hart
        written := t.written.filter fun x => x.1 ≠ hart }).syncHalt
    else s

/-- A number for each register, for the free values. -/
def regCode : HartReg → Nat
  | .csr n => n % 4096
  | .gpr n => 0x1000 + n % 32
  | .fpr n => 0x1020 + n % 32
  | .vec n => 0x1040 + n % 32

/-- Does the hart have the register (R622): vector registers in the application cores only. -/
def hasReg (hart : Nat) : HartReg → Bool
  | .csr n => decide (n < 4096)
  | .gpr n | .fpr n => decide (n < 32)
  | .vec n => decide (n < 32 ∧ hart < 12)

/-- The width of a register: 64 bits, 256 for a vector register. -/
def regWidth : HartReg → Nat
  | .vec _ => 256
  | _ => 64

/-- What a register of a halted hart reads: x0 is 0; what the debugger wrote; else what the hart left, which is free. -/
def State.hartReg (s : State) (hart : Nat) (r : HartReg) : Nat :=
  if r = .gpr 0 then 0
  else
    match s.tlg.written.find? fun x => x.1 = hart ∧ x.2.1 = r with
    | some x => x.2.2
    | none =>
      let stop := ((s.tlg.stops.find? fun x => x.1 = hart).map (·.2)).getD 0
      Config.hartRegister stop hart (regCode r) % 2 ^ regWidth r

/-- DEBUG_ACCESS_REGISTER (R622): a read shows the register in the command's data; a write stores its value, and what a
control and status register makes of it is free. Error code 2: no such register; 4: the hart is not halted (the codes of
the RISC-V Debug Specification 1.0, log entry 25). -/
def execDebugAccessRegister (scans : List TapScan) (hart : Nat) (reg : HartReg) (write : Option Nat) (s : State) :
    Out :=
  .next <| s.debugCommand scans fun s =>
    if !s.debugOpen then s
    else if !s.tlg.halted.contains hart then s.withTlg fun t => { t with cmderr := 4 }
    else if !hasReg hart reg then s.withTlg fun t => { t with cmderr := 2 }
    else
      match write with
      | none => s.withTlg fun t => { t with data := s.hartReg hart reg, cmderr := 0 }
      | some v =>
        let (k, t) := s.drawNat
        let isCsr := match reg with
          | .csr _ => true
          | _ => false
        let (v, s) := if isCsr then (k, t) else (v, s)
        s.withTlg fun t => { t with
          written := (hart, reg, v % 2 ^ regWidth reg) :: t.written.filter fun x => !(x.1 = hart && x.2.1 = reg)
          cmderr := 0 }

/-- DEBUG_NDMRESET (R622, R686). -/
def execDebugNdmreset (scans : List TapScan) (s : State) : Out :=
  .next <| s.debugCommand scans fun s => if s.debugOpen then s.askReset 5 else s

/-! ### Event counters (R633, R634) -/

/-- How many instances an event of the catalogue has; none for a code that it does not list. -/
def eventInstances (e : Nat) : Option Nat :=
  if e ≤ 2 ∨ (4 ≤ e ∧ e ≤ 6) then some 0
  else if e = 3 then some 12
  else if (0x010 ≤ e ∧ e ≤ 0x016) ∨ (0x018 ≤ e ∧ e ≤ 0x01A) ∨ (0x020 ≤ e ∧ e ≤ 0x025) ∨ (0x028 ≤ e ∧ e ≤ 0x02D) then some 0
  else if 0x030 ≤ e ∧ e ≤ 0x032 then some 2
  else if e = 0x033 ∨ e = 0x034 then some 0
  else if e = 0x038 ∨ e = 0x039 then some 2
  else if 0x040 ≤ e ∧ e ≤ 0x042 then some 2
  else if 0x048 ≤ e ∧ e ≤ 0x04C then some 4
  else if 0x050 ≤ e ∧ e ≤ 0x052 then some 16
  else if (0x058 ≤ e ∧ e ≤ 0x05A) ∨ e = 0x060 ∨ e = 0x061 then some 0
  else if 0x070 ≤ e ∧ e ≤ 0x072 then some 40
  else if e = 0x078 ∨ e = 0x079 then some 0
  else if 0x080 ≤ e ∧ e ≤ 0x082 then some 4
  else if e = 0x088 ∨ e = 0x089 then some 8
  else if 0x090 ≤ e ∧ e ≤ 0x092 then some 0
  else if 0x098 ≤ e ∧ e ≤ 0x09A then some 2
  else if e = 0x0A0 ∨ e = 0x0A1 then some 4
  else none

/-- May a counter be given this selection (R633, R634). -/
def selValid (v : Word) : Bool :=
  match eventInstances (fieldOf v 9 0) with
  | none => false
  | some k => decide (fieldOf v 21 16 = 63 ∨ fieldOf v 21 16 < k)

/-- Refuse a write (R633, R634, R642). -/
def State.tlgRefuse (s : State) : State := s.flag Reg.tlgStatus 6

/-- A write of TLG_CNTc_SEL (R633): it selects and sets the counter to 0. -/
def State.cntSelWrite (s : State) (c : Nat) (v : Word) : State :=
  if selValid v then (s.putRw (Reg.tlgCntSel c) v).set64 (Reg.tlgCntLo c) 0 else s.tlgRefuse

/-- TLG_CNT_SEL_WRITE (R633). -/
def execTlgCntSelWrite (who : Initiator) (c : Nat) (value : Word) (s : State) : Out :=
  s.named (decide (c < 512)) (s.softWrite who (Reg.tlgCntSel c) value fun s v => s.cntSelWrite c v)

/-- All 512 counters are 0. -/
def State.clearCounters (s : State) : State :=
  { s with regs := s.regs.filter fun r => !decide (0x10702000 ≤ r.1 ∧ r.1 < 0x10703000) }

/-- TLG_CNT_CLR (R633). -/
def execTlgCntClr (who : Initiator) (s : State) : Out :=
  .next (s.softWrite who Reg.tlgCntClr 1 fun s v => if bitOf v 0 then s.clearCounters else s)

/-- Cycles of a clock of `mhz` MHz in beat b of 8 ns, as the part of a running sum that falls into the beat. -/
def clockCycles (mhz b : Nat) : Nat := mhz * 8 * (b + 1) / 1000 - mhz * 8 * b / 1000

/-- The events of the catalogue that the spec counts in physical accesses and bank cycles, which are not given by what
the block computes: their counts are free (R634, log entry 26). -/
def State.freeEvent (s : State) (e i : Nat) : State :=
  if (s.counting e i).isEmpty then s
  else
    let (k, s) := s.drawNat
    s.tally e i k

/-- Does any event counter count. -/
def State.anyCounter (s : State) : Bool := s.regs.any fun r => decide (0x10701000 ≤ r.1 ∧ r.1 < 0x10701800)

/-- The event counters of clocks over one beat (R633, R634). -/
def State.tickCounters (s : State) : State :=
  if !s.anyCounter then s
  else
    let b := s.beat
    let s := s.tally 0x002 64 (clockCycles (s.fget Reg.stwPower 26 16) b)
    let s := (List.range 12).foldl (fun s i => s.tally 0x003 i (clockCycles (min s.pwr.capApp s.pwr.thermApp) b)) s
    let s := ((s.tally 0x004 64 (clockCycles 1200 b)).tally 0x005 64 (clockCycles 1000 b)).tally 0x006 64 (clockCycles 800 b)
    let s := (List.range 4).foldl (fun s i => (s.freeEvent 0x048 i).freeEvent 0x049 i) s
    (List.range 16).foldl (fun s i => ((s.freeEvent 0x050 i).freeEvent 0x051 i).freeEvent 0x052 i) s

/-! ### Samples (R635, R636) -/

/-- The stamp record (R636). -/
def State.stampRecord (s : State) (n : Nat) : List Byte :=
  let values := (List.range n).flatMap fun c => natToBytes 8 (s.get64 (Reg.tlgCntLo c))
  let body := natToBytes 4 s.tlg.smpSeq.toNat ++ natToBytes 4 (n + 65536 * min 65535 s.tlg.smpLost) ++
    natToBytes 8 s.beat ++ natToBytes 8 s.secs ++ natToBytes 4 s.nanos ++
    natToBytes 4 (s.fget Reg.stwPower 26 16) ++ List.replicate 32 0 ++ values
  body ++ List.replicate (64 * ceilDiv (64 + 8 * n) 64 - body.length) 0

/-- A sample that could not be written is lost (R636, R641). -/
def State.smpLose (s : State) : State :=
  ((s.count Reg.tlgSmpLost 1).flag Reg.tlgStatus 7).withTlg fun t => { t with smpLost := t.smpLost + 1 }

/-- One sample of counters 0 to N − 1 (R635, R636). -/
def State.stampSample (s : State) : State :=
  let n := s.fget Reg.tlgSmpCfg 15 7 + 1
  let bs := s.stampRecord n
  let len := 4096 * max 1 (s.fget Reg.tlgSmpSize 19 0)
  let next (s : State) : State := s.withTlg fun t => { t with smpSeq := t.smpSeq + 1 }
  match ringRoom (s.rget Reg.tlgSmpWr).toNat (s.rget Reg.tlgSmpRd).toNat len bs.length (s.bit Reg.tlgSmpCfg 1) with
  | none => next s.smpLose
  | some o =>
    let base := (s.rget Reg.tlgSmpBaseLo).toNat / 4096 * 4096 + 2 ^ 32 * s.fget Reg.tlgSmpBaseHi 15 0
    if regionOf (base + o) ≠ .tierB then next s.smpLose
    else
      let (t, ok) := s.engineStore .tooling (base + o) bs
      if ok then
        let wr := if len < o + bs.length + bs.length then 0 else o + bs.length
        next ((t.rset Reg.tlgSmpWr (toWord wr)).withTlg fun t => { t with smpLost := 0 })
      else next t.smpLose

/-- TLG_SAMPLE (R635): in the beats that INTERVAL and PHASE select. -/
def execTlgSample (s : State) : Out :=
  .next <|
    if s.mainOn && s.bit Reg.tlgSmpCfg 0 &&
        decide (s.beat % max 1 (s.fget Reg.tlgSmpInterval 26 0) = s.fget Reg.tlgSmpPhase 26 0) then s.stampSample
    else s

/-! ### Registers (R625, R628, R630, R640, R642) -/

/-- A write of TLG_SMP_CFG (R635, R642): EN at any time, the other fields while EN is 0; setting EN starts a new series. -/
def State.smpCfgWrite (s : State) (v : Word) : State :=
  let a := Reg.tlgSmpCfg
  if s.bit a 0 then
    let s := if (s.rget a ^^^ v) &&& 0x0000FF82 = 0 then s else s.tlgRefuse
    s.bput a 0 (bitOf v 0)
  else
    let s := s.putRw a v
    if bitOf v 0 then (s.rset Reg.tlgSmpWr 0).withTlg fun t => { t with smpSeq := 0, smpLost := 0 } else s

/-- A write of TLG_TRC_CFG (R640, R642): it clears FROZEN; the rest as for the samples. -/
def State.trcCfgWrite (s : State) (v : Word) : State :=
  let a := Reg.tlgTrcCfg
  let s := (s.flushTrace.bput Reg.tlgStatus 9 false).withTlg fun t => { t with trcPost := none }
  if s.bit a 0 then
    let s := if (s.rget a ^^^ v) &&& 0x0000FF0E = 0 then s else s.tlgRefuse
    s.bput a 0 (bitOf v 0)
  else
    let s := s.putRw a v
    if bitOf v 0 then (s.rset Reg.tlgTrcWr 0).withTlg fun t => { t with trcSeq := 0 } else s

/-- Is a sampling or trace register's write refused (R635, R642). -/
def State.tlgRefused (s : State) (o : Nat) (v : Word) : Bool :=
  if 0x14 ≤ o ∧ o ≤ 0x24 then
    s.bit Reg.tlgSmpCfg 0 ||
      (if o = 0x14 then
        decide (fieldOf v 26 0 < 125 ∨ 125000000 < fieldOf v 26 0 ∨ fieldOf v 26 0 ≤ s.fget Reg.tlgSmpPhase 26 0)
       else decide (o = 0x18) && decide (s.fget Reg.tlgSmpInterval 26 0 ≤ fieldOf v 26 0))
  else decide (0x44 ≤ o ∧ o ≤ 0x4C) && s.bit Reg.tlgTrcCfg 0

/-- The write rule of the TLG_ block. -/
def State.tlgWrite (s : State) (o : Nat) (v : Word) : State :=
  if o = 0x10 then s.smpCfgWrite v
  else if o = 0x40 then s.trcCfgWrite v
  else if o = 0x5C then (if bitOf v 0 then s.clearCounters else s)
  else if 0x1000 ≤ o ∧ o < 0x1800 then s.cntSelWrite ((o - 0x1000) / 4) v
  else if s.tlgRefused o v then s.tlgRefuse
  else (s.putTyped (0x10700000 + o) v 0).syncHalt

/-- A named write of a TLG_ register. -/
def tlgCommand (who : Initiator) (a : Nat) (v : Word) (s : State) : Out :=
  .next (s.softWrite who a v fun s v => s.tlgWrite (a % 0x10000) v)

/-- TLG_AUTH_WRITE (R625). -/
def execTlgAuthWrite (who : Initiator) (value : Word) (s : State) : Out := tlgCommand who Reg.tlgAuth value s

/-- ENGINE_HALT_WRITE (R628, R630). -/
def execEngineHaltWrite (who : Initiator) (value : Word) (s : State) : Out := tlgCommand who Reg.tlgEngCtrl value s

/-- OBP_FIRED_CLEAR (R630). -/
def execObpFiredClear (who : Initiator) (k : Nat) (s : State) : Out :=
  s.named (decide (k < 4)) (s.softWrite who (Reg.tlgObpStatus k) 1 fun s v => s.tlgWrite (0x8C + 0x10 * k) v)

/-! ### The beat -/

/-- What the beat that ends still owes: actions of its start (R700) and outputs (R447) that no command brought, its trace
records (R389), and the errors that have arisen in stored words (R66, R75). -/
def State.closeBeat (s : State) (upsets : List ErrFinding) : State :=
  let s := s.stepsApply.snapLatch.handoverDue.loopsDue.flushTrace
  { s with upsets := s.upsets ++ upsets.filter fun e => !s.suspect e.word }

/-- The clocks of the main domain over the beat: both stall banks (R88), the cycles of IOM_IOHPMCYCLES (R77: cycles of
CLK_TEN, DEDUCED, log entry 16), the rings' waits (R251) and the event counters (R633). -/
def State.mainClocks (s : State) (lat tng : List TenCycle) : State :=
  if s.mainOn then
    let s := s.planeCycles lat tng
    (s.hpmCycles (clockCycles (s.fget Reg.stwPower 26 16) s.beat)).ringWaits.tickCounters
  else s

/-- BEAT (R379, R686): the end of the beat, the next beat, and the main resets that were asked for in an earlier one. -/
def execBeat (upsets : List ErrFinding) (lat tng : List TenCycle) (s : State) : Out :=
  .next (((s.closeBeat upsets).mainClocks lat tng).beatStep.askedResets)

end Sys2Proof.Machine
end

