-- ==== Sys2Proof/Machine/Host.lean ====
section
/-!
DEFINITION. Machine/Host.lean: PCIe (R643 to R651, R669).
-/

namespace Sys2Proof.Machine

/-- Change what PCIe holds beside its registers. -/
def State.withPcie (s : State) (f : Pcie → Pcie) : State := { s with pcie := f s.pcie }

/-- x4 + x4 (R645). -/
def State.bifurcated (s : State) : Bool := s.bit Reg.pciCfg 0

/-- Does port p exist in the present mode. -/
def State.portExists (s : State) (p : Nat) : Bool := decide (p = 0) || (decide (p = 1) && s.bifurcated)

/-- Is the link of port p up. -/
def State.linkIsUp (s : State) (p : Nat) : Bool := s.bit (Reg.pciPLink p) 0

/-! ### Inbound requests (R647, R648) -/

/-- Base and size in bytes of aperture k of port p. -/
def State.aperture (s : State) (p k : Nat) : Nat × Nat :=
  ((s.rget (Reg.pciInwBaseLo p k)).toNat / 4096 * 4096 + 2 ^ 32 * (s.rget (Reg.pciInwBaseHi p k)).toNat,
    4096 * s.fget (Reg.pciInwSize p k) 24 0)

/-- Does an aperture of `size` bytes at `base` lie wholly in Tier A or wholly in Tier B (R647). -/
def wholeTier (base size : Nat) : Bool :=
  decide (0 < size) && (regionOf base = .tierA || regionOf base = .tierB) && regionOf (base + (size - 1)) = regionOf base

/-- Do `n` bytes at bus address `a` lie in an enabled aperture of port p (R647). -/
def State.inAperture (s : State) (p a n : Nat) : Bool :=
  (List.range 4).any fun k =>
    s.bit (Reg.pciInwCtrl p k) 0 && wholeTier (s.aperture p k).1 (s.aperture p k).2 &&
      decide ((s.aperture p k).1 ≤ a ∧ a + n ≤ (s.aperture p k).1 + (s.aperture p k).2)

/-- Unsupported Request (R647). -/
def State.unsupported (s : State) (p : Nat) : State := (s.count (Reg.pciPUrCount p) 1).respond .unsupported

/-- The bus address of MSI writes (R648). -/
def State.msiAddr (s : State) (p : Nat) : Nat :=
  (s.rget (Reg.pciPMsiLo p)).toNat + 2 ^ 32 * (s.rget (Reg.pciPMsiHi p)).toNat

/-- R648: an interrupt identity for the core's supervisor interrupt file; one that the file does not have is discarded.
Identity 0 names none. -/
def State.msi (s : State) (p v : Nat) : State :=
  let core := s.fget (Reg.pciPMsi p) 3 0
  if Config.imsicIdentities < v ∨ 12 ≤ core then s.count (Reg.pciPUrCount p) 1
  else if v = 0 ∨ s.pcie.imsic.contains (core, v) then s
  else s.withPcie fun x => { x with imsic := (core, v) :: x.imsic }

/-- PCIE_MSI_WRITE (R648). -/
def execPcieMsiWrite (port value : Nat) (s : State) : Out :=
  .next (if port < 2 ∧ s.mainOn then (s.msi port (value % 2 ^ 32)).respond .done else s)

/-- An inbound write of bytes (R647). -/
def State.inboundWrite (s : State) (p a : Nat) (bs : List Byte) (found : List ErrFinding) : State :=
  if bs.length = 4 ∧ a = s.msiAddr p then (s.msi p (bytesToNat bs)).respond .done
  else if bs.isEmpty then s.respond .done
  else if !s.inAperture p a bs.length then s.unsupported p
  else
    match s.longDenied .pcie a bs.length with
    | some d => (s.noteDenied d).unsupported p
    | none =>
      let (s, ok) := s.storeBytes a bs found
      if ok then (s.noteHost a bs.length).respond .done else s.unsupported p

/-- PCIE_INBOUND_WRITE (R647). -/
def execPcieInboundWrite (port addr : Nat) (data : List Byte) (found : List ErrFinding) (s : State) : Out :=
  .next (if port < 2 ∧ s.mainOn then s.inboundWrite port addr data found else s)

/-- An inbound read (R647, R67). -/
def State.inboundRead (s : State) (p a n : Nat) (found : List ErrFinding) : State :=
  if n = 0 then s.respond (.data 0)
  else if !s.inAperture p a n || !s.readable a || !s.readable (a + (n - 1)) then s.unsupported p
  else
    let (s, ok) := s.checkWords (dwordsOf a n) found
    if ok then s.respond (.data (s.readNat a n)) else s.unsupported p

/-- PCIE_INBOUND_READ (R647). -/
def execPcieInboundRead (port addr size : Nat) (found : List ErrFinding) (s : State) : Out :=
  .next (if port < 2 ∧ s.mainOn then s.inboundRead port addr size found else s)

/-! ### The outbound window (R646, R649, R650) -/

/-- The port whose window holds an address, and the offset in it. -/
def windowPort (a : Nat) : Nat × Nat := ((a - 0x400000000000) / 0x200000000000, (a - 0x400000000000) % 0x200000000000)

/-- The first tag that no request of the port has. -/
def State.freeTag (s : State) (p : Nat) : Nat :=
  ((List.range (s.pcie.reqs.length + 1)).find? fun t => !s.pcie.reqs.any fun r => r.port = p ∧ r.tag = t).getD 0

/-- Send a non-posted request; the access waits for its completion. -/
def State.request (s : State) (p : Nat) (kind : PcieKind) (addr size : Nat) : State :=
  (s.withPcie fun x => { x with reqs := x.reqs ++ [⟨p, s.freeTag p, kind, addr, size, s.beat⟩] }).respond .waiting

/-- The PCIe address of a memory request at offset x of the window (R646). -/
def State.pcieAddr (s : State) (p x : Nat) : Nat :=
  (x - 0x10000000 + ((s.rget (Reg.pciPOutBaseLo p)).toNat / 4096 * 4096 +
    2 ^ 32 * (s.rget (Reg.pciPOutBaseHi p)).toNat)) % 2 ^ 64

/-- Does the window of port p work (R646, R649). -/
def State.windowOpen (s : State) (p : Nat) : Bool := s.mainOn && s.portExists p && s.linkIsUp p

/-- A load from the PCIe window. What the root port's own configuration space holds is not given: a free value. -/
def State.pcieLoad (s : State) (a size : Nat) : State :=
  let (p, x) := windowPort a
  if !s.windowOpen p then s.respond .accessFault
  else if x < 0x1000 then
    let (k, s) := s.drawNat
    s.respond (.data (k % 2 ^ (8 * size)))
  else if x < 0x10000000 then s.request p .cfgRead x size
  else s.request p .memRead (s.pcieAddr p x) size

/-- A store to the PCIe window: a memory write is posted, and has completed once the port has sent it. -/
def State.pcieStore (s : State) (a size : Nat) : State :=
  let (p, x) := windowPort a
  if !s.windowOpen p then s.respond .accessFault
  else if x < 0x1000 then s.respond .done
  else if x < 0x10000000 then s.request p .cfgWrite x size
  else s.respond .done

/-- A request is over. -/
def State.requestDone (s : State) (r : PcieReq) (x : Resp) : State :=
  (s.withPcie fun y => { y with reqs := y.reqs.filter fun q => q ≠ r }).respond x

/-- A request fails with an access fault and counts (R650). -/
def State.requestFails (s : State) (r : PcieReq) : State :=
  (s.count (Reg.pciPCplErrCount r.port) 1).requestDone r .accessFault

/-- A completion arrives (R650). -/
def State.complete (s : State) (r : PcieReq) (status : CplStatus) (data : Nat) : State :=
  match status, r.kind with
  | .success, .cfgWrite => s.requestDone r .done
  | .success, _ => s.requestDone r (.data (data % 2 ^ (8 * r.size)))
  | .retry, .cfgRead => s
  | .retry, .cfgWrite => s
  | .unsupported, .cfgRead => s.requestDone r (.data (0xFFFFFFFF % 2 ^ (8 * r.size)))
  | _, _ => s.requestFails r

/-- The request of a port with a tag. -/
def State.requestOf (s : State) (p tag : Nat) : Option PcieReq := s.pcie.reqs.find? fun r => r.port = p ∧ r.tag = tag

/-- PCIE_COMPLETION (R650). -/
def execPcieCompletion (port tag : Nat) (status : CplStatus) (data : Nat) (s : State) : Out :=
  .next <|
    match s.requestOf port tag with
    | none => s
    | some r => s.complete r status data

/-- PCIE_COMPLETION_TIMEOUT (R649): 50 ms. -/
def execPcieCompletionTimeout (port tag : Nat) (s : State) : Out :=
  .next <|
    match s.requestOf port tag with
    | none => s
    | some r =>
      if r.beat + 50 * beatsPerMs ≤ s.beat then
        (s.count (Reg.pciPTimeoutCount r.port) 1).requestDone r .accessFault
      else s

/-- PCIE_ERROR_MESSAGE (R650): logged in the root port's AER registers; its interrupt follows the log. -/
def execPcieErrorMessage (port severity : Nat) (s : State) : Out :=
  .next (if port < 2 ∧ s.mainOn then s.withPcie fun x => { x with aer := (port, severity) :: x.aer } else s)

/-! ### Links (R644, R649, R651) -/

/-- The time that the PTM responder gives (R644): the time base in ns. -/
def State.ptmTime (s : State) : Nat := s.timeNs

/-- PCIE_LINK_DOWN (R649): `posted` writes were still pending. -/
def execPcieLinkDown (port posted : Nat) (s : State) : Out :=
  .next <|
    if port < 2 ∧ s.linkIsUp port then
      let s := ((s.rset (Reg.pciPLink port) 0).flag Reg.pciStatus (1 + port)).count (Reg.pciPDownCount port) 1
      let s := s.count (Reg.pciPDropCount port) posted
      let s := if s.pcie.reqs.any (fun r => r.port = port) then s.respond .accessFault else s
      s.withPcie fun x => { x with reqs := x.reqs.filter fun r => r.port ≠ port }
    else s

/-- The SerDes lanes of port p (R643). -/
def State.pcieLanes (s : State) (p : Nat) : List Nat :=
  if s.bifurcated then (List.range 4).map (4 * p + ·) else if p = 0 then List.range 8 else []

/-- PCIE_LINK_UP (R643, R644, R649): at most at MAX_SPEED, over at most the port's lanes. -/
def execPcieLinkUp (port speed width : Nat) (s : State) : Out :=
  .next <|
    if s.mainOn && s.bit Reg.pciCtrl 0 && s.portExists port then
      let v := min speed (s.fget (Reg.pciPCtrl port) 4 2)
      let changed := !s.linkIsUp port
      let s := s.rset (Reg.pciPLink port) (toWord (1 + 2 * (v % 8) + 16 * min width (s.pcieLanes port).length))
      let s := s.withPcie fun x => { x with retrain := x.retrain.filter (· ≠ port) }
      if changed then s.flag Reg.pciStatus (1 + port) else s
    else s

/-- A write of PCI_Pp_CTRL (R644, R651, R669): MAX_SPEED only while the controller is disabled. -/
def State.pciCtrlWrite (s : State) (p : Nat) (v : Word) : State :=
  let a := Reg.pciPCtrl p
  if s.bit Reg.pciCtrl 0 && decide (fieldOf v 4 2 ≠ s.fget a 4 2) then s.flag Reg.pciStatus 0
  else
    let s := s.putRw a v
    if bitOf v 1 then s.withPcie fun x => { x with retrain := p :: x.retrain.filter (· ≠ p) } else s

/-- PCIE_RETRAIN (R644). -/
def execPcieRetrain (who : Initiator) (port : Nat) (value : Word) (s : State) : Out :=
  s.named (decide (port < 2)) (s.softWrite who (Reg.pciPCtrl port) (value ||| 2) fun s v => s.pciCtrlWrite port v)

/-- PCIE_PERST_WRITE (R651). -/
def execPciePerstWrite (who : Initiator) (port : Nat) (value : Word) (s : State) : Out :=
  s.named (decide (port < 2)) (s.softWrite who (Reg.pciPCtrl port) value fun s v => s.pciCtrlWrite port v)

/-- The level of PCIE_PERSTp_N (R651): low in reset; in x8 mode port 1 follows port 0. -/
def State.perstN (s : State) (p : Nat) : Bool :=
  s.mainOn && s.bit (Reg.pciPCtrl (if s.bifurcated then p else 0)) 0

/-- The write rule of the PCI_ block (R645, R669): the ports' registers only while the controller is disabled. -/
def State.pciWrite (s : State) (o : Nat) (v : Word) : State :=
  let p := (o - 0x100) / 0x100
  if o = 0x0C then s.flag Reg.pciStatus 0
  else if o = 0x104 ∨ o = 0x204 then s.pciCtrlWrite p v
  else if 0x100 ≤ o ∧ 8 ≤ o % 0x100 ∧ o % 0x100 < 0x60 ∧ s.bit Reg.pciCtrl 0 then s.flag Reg.pciStatus 0
  else s.putTyped (0x10600000 + o) v 0

end Sys2Proof.Machine
end

