-- ==== Sys2Proof/Machine/Field.lean ====
section
/-!
DEFINITION. Machine/Field.lean: Ethernet, CSI-2 clock loss, CAN FD, SPI and I²C (R652 to R669).
-/

namespace Sys2Proof.Machine

/-- Change what the field ports hold beside their registers. -/
def State.withField (s : State) (f : Field → Field) : State := { s with field := f s.field }

/-! ### Ethernet frames -/

/-- What the port reads from a frame's headers. -/
structure EthHead where
  dmac : Nat
  /-- PCP and VLAN ID of an IEEE 802.1Q tag -/
  vlan : Option (Nat × Nat)
  /-- sequence number of an R-TAG (R657) -/
  rtag : Option Nat
  etype : Nat
  /-- where the payload after the EtherType starts -/
  off : Nat
  deriving DecidableEq, Repr

/-- Two bytes of a frame, in network order. -/
def be16 (f : List Byte) (o : Nat) : Nat := bigEndian ((f.drop o).take 2)

/-- The headers of a frame: an 802.1Q tag (EtherType 0x8100), then an R-TAG (0xF1C1), then the EtherType. -/
def headOf (f : List Byte) : EthHead :=
  let tagged := be16 f 12 = 0x8100
  let o := if tagged then 16 else 12
  let redundant := be16 f o = 0xF1C1
  let o' := if redundant then o + 6 else o
  { dmac := bigEndian (f.take 6)
    vlan := if tagged then some (be16 f 14 / 2 ^ 13, be16 f 14 % 2 ^ 12) else none
    rtag := if redundant then some (be16 f (o + 4)) else none
    etype := be16 f o'
    off := o' + 2 }

/-- The UDP destination port of a frame with the place of its payload: over IPv4 (1) or IPv6 (2). -/
def udpOf (f : List Byte) (h : EthHead) : Option (Nat × Nat × Nat) :=
  let ip := f.drop h.off
  if h.etype = 0x0800 ∧ ((ip.drop 9).headD 0).toNat = 17 then
    let n := 4 * ((ip.headD 0).toNat % 16)
    some (1, be16 ip (n + 2), h.off + n + 8)
  else if h.etype = 0x86DD ∧ ((ip.drop 6).headD 0).toNat = 17 then some (2, be16 ip 42, h.off + 48)
  else none

/-- Where the PTP message of a frame starts, over the transports of R385: IEEE 802.3 (0), UDP/IPv4 (1), UDP/IPv6 (2). -/
def ptpAt (f : List Byte) (h : EthHead) : Option (Nat × Nat) :=
  if h.etype = 0x88F7 then some (0, h.off)
  else
    match udpOf f h with
    | some (k, port, o) => if port = 319 ∨ port = 320 then some (k, o) else none
    | none => none

/-- A PTP message of the transports of R385. -/
def isPtp (f : List Byte) (h : EthHead) : Bool := (ptpAt f h).isSome

/-- The messageType of IEEE 1588 of a message at offset o: 0 Sync, 1 Delay_Req, 2 Pdelay_Req, 3 Pdelay_Resp. -/
def ptpType (f : List Byte) (o : Nat) : Nat := ((f.drop o).headD 0).toNat % 16

/-- Is a frame stamped (R385): of the PTP messages the four event messages; a frame that is none may be, where its descriptor
asks. -/
def stampable (f : List Byte) (h : EthHead) : Bool :=
  match ptpAt f h with
  | none => true
  | some (_, o) => decide (ptpType f o < 4)

/-- A number of n bytes in network order. -/
def natToBe (n v : Nat) : List Byte := (natToBytes n v).reverse

/-- The bytes `bs` stand at offset o of a frame. -/
def patch (f : List Byte) (o : Nat) (bs : List Byte) : List Byte := f.take o ++ bs ++ f.drop (o + bs.length)

/-- One-step transmit at time t, in ns (R385, R658): a Sync, or a Pdelay_Resp, over IEEE 802.3 or UDP/IPv4 whose twoStepFlag is
clear gets its time: a Sync as its originTimestamp, a Pdelay_Resp as the time since the receipt timestamp that it carries, added
to its correctionField. The fields are those of IEEE 1588-2019 (PRESUMED, log entry 30). The UDP/IPv4 checksum is sent as 0. -/
def oneStep (f : List Byte) (h : EthHead) (t : Nat) : List Byte :=
  match ptpAt f h with
  | none => f
  | some (k, o) =>
    if k = 2 ∨ (ptpType f o ≠ 0 ∧ ptpType f o ≠ 3) ∨ be16 f (o + 6) / 512 % 2 = 1 then f
    else
      let stamp (sec ns : Nat) : List Byte := natToBe 6 sec ++ natToBe 4 ns
      let g :=
        if ptpType f o = 0 then patch f (o + 34) (stamp (t / 1000000000) (t % 1000000000))
        else
          let t2 := bigEndian ((f.drop (o + 34)).take 6) * 1000000000 + bigEndian ((f.drop (o + 40)).take 4)
          let c := bigEndian ((f.drop (o + 8)).take 8)
          patch (patch f (o + 8) (natToBe 8 ((c + (t + 2 ^ 64 - t2 % 2 ^ 64) * 65536) % 2 ^ 64))) (o + 34) (stamp 0 0)
      if k = 1 then patch g (o - 2) [0, 0] else g

/-- The streams that a frame matches, with the payload that each takes (R398, R653). -/
def State.frameStreams (s : State) (p : Nat) (f : List Byte) (h : EthHead) : List (Nat × List Byte) :=
  ((s.ethStreams p 0 h.etype).map fun n => (n, f.drop h.off)) ++
    (match udpOf f h with
      | none => []
      | some (k, port, o) => (s.ethStreams p k port).map fun n => (n, f.drop o))

/-- The stream with the lowest number. -/
def lowestStream (xs : List (Nat × List Byte)) : Option (Nat × List Byte) :=
  xs.foldl (fun b x => match b with
    | none => some x
    | some y => if x.1 < y.1 then some x else some y) none

/-! ### Frame replication and elimination (R657) -/

/-- Destination address of FRER entry e of port p. -/
def State.frerDmac (s : State) (p e : Nat) : Nat :=
  (s.rget (Reg.ethFrerDmacLo p e)).toNat + 2 ^ 32 * s.fget (Reg.ethFrerDmacHi p e) 15 0

/-- The first entry of port p of a kind whose stream identity a frame has. -/
def State.frerEntry (s : State) (p : Nat) (h : EthHead) (kind : Nat → Bool) : Option Nat :=
  (List.range 64).find? fun e =>
    let c := (s.rget (Reg.ethFrerCfg p e)).toNat
    kind c && s.frerDmac p e == h.dmac && Config.frerVlan c == (h.vlan.map (·.2)).getD 0

/-- The history of entry e of port p: the last number and the mask of those before it. -/
def State.frerHist (s : State) (p e : Nat) : Option (Nat × Nat) :=
  (s.field.histories.find? fun x => x.1 = 64 * p + e).map (·.2)

/-- Keep a history. -/
def State.putHist (s : State) (p e last mask : Nat) : State :=
  s.withField fun x => { x with
    histories := (64 * p + e, last, mask) :: x.histories.filter fun y => y.1 ≠ 64 * p + e }

/-- Vector recovery (R657): the state and whether the frame is accepted. -/
def State.recover (s : State) (p e seq : Nat) : State × Bool :=
  let n := max 1 (min 32 (Config.frerHistory (s.rget (Reg.ethFrerCfg p e)).toNat))
  match s.frerHist p e with
  | none => (s.putHist p e seq 1, true)
  | some (last, mask) =>
    let ahead := (seq + 65536 - last) % 65536
    let behind := (last + 65536 - seq) % 65536
    if ahead < n then
      if ahead = 0 then (s.count (Reg.ethFrerDiscard p) 1, false)
      else (s.putHist p e seq ((mask * 2 ^ ahead + 1) % 2 ^ n), true)
    else if behind < n then
      if mask.testBit behind then (s.count (Reg.ethFrerDiscard p) 1, false)
      else (s.putHist p e last (mask ||| 2 ^ behind), true)
    else ((s.putHist p e seq 1).count (Reg.ethFrerRogue p) 1, true)

/-- A received frame passes the recovery entries of its port. -/
def State.frerReceive (s : State) (p : Nat) (h : EthHead) : State × Bool :=
  match h.rtag, s.frerEntry p h Config.frerRecovers with
  | some seq, some e => s.recover p e seq
  | _, _ => (s, true)

/-! ### Queues (R654, R655, R658) -/

/-- The five registers of a queue. -/
structure QueueRegs where
  lo : Nat
  cfg : Nat
  tail : Nat
  head : Nat

/-- Transmit or receive queue q of port p. -/
def queueRegs (transmit : Bool) (p q : Nat) : QueueRegs :=
  if transmit then ⟨Reg.ethTxqBaseLo p q, Reg.ethTxqCfg p q, Reg.ethTxqTail p q, Reg.ethTxqHead p q⟩
  else ⟨Reg.ethRxqBaseLo p q, Reg.ethRxqCfg p q, Reg.ethRxqTail p q, Reg.ethRxqHead p q⟩

/-- The address of the descriptor at HEAD. -/
def State.descAddr (s : State) (r : QueueRegs) : Nat :=
  (s.rget r.lo).toNat + 2 ^ 32 * s.fget (r.lo + 4) 15 0 + 32 * ((s.rget r.head).toNat % 2 ^ s.fget r.cfg 3 0)

/-- The owned descriptor at HEAD of an enabled queue, read from memory (R654), with what the read counted. -/
def State.ownedDesc (s : State) (r : QueueRegs) : State × Option (List Byte) :=
  if s.bit r.cfg 5 && isAfter (s.rget r.tail) (s.rget r.head) then
    let (s, d) := s.engineLoad (s.descAddr r) 32
    (s, d.filter fun d => decide (descField d 8 0 0 = 1))
  else (s, none)

/-- The descriptor's bytes after the port is done with it (R654): OWN clear; LEN, STATUS and ERR; and a timestamp in ns,
where one was taken. -/
def descBack (d : List Byte) (len status : Nat) (stamp : Option Nat) : List Byte :=
  let ts := stamp.getD 0
  natToBytes 6 (bytesToNat (d.take 6)) ++ natToBytes 2 len ++
    natToBytes 4 (2 * descField d 8 1 1 + 4 * b2n stamp.isSome + 8 * b2n (status ≠ 0) + 256 * status) ++
    natToBytes 4 (ts % 1000000000) ++ natToBytes 8 (ts / 1000000000) ++ natToBytes 8 0

/-- The port returns the descriptor, advances HEAD, and signals the queue's buckle. -/
def State.descReturn (s : State) (r : QueueRegs) (d : List Byte) (len status : Nat) (stamp : Option Nat) : State :=
  let s := (s.engineStore .ethernet (s.descAddr r) (descBack d len status stamp)).1
  let s := s.rset r.head (s.rget r.head + 1)
  if s.bit r.cfg 4 then s.bklAdd .ethernet (s.fget r.cfg 29 16) 1 else s

/-- Why an access to a buffer failed: 2 it cannot be reached, 3 its data is uncorrectable. -/
def bufferStatus (reached ok : Bool) : Nat := if ok then 0 else if reached then 3 else 2

/-- A frame for receive queue q of port p (R654, R655). -/
def State.rxFrame (s : State) (p q : Nat) (f : List Byte) (stamp : Option Nat) : State :=
  let r := queueRegs false p q
  match s.ownedDesc r with
  | (s, none) => s.count (Reg.ethRxDrop p) 1
  | (s, some d) =>
    let a := bytesToNat (d.take 6)
    let room := bytesToNat ((d.drop 6).take 2)
    if room < f.length then s.descReturn r d f.length 1 none
    else
      let reached := (s.longDenied .ethernet a f.length).isNone
      let (s, ok) := s.engineStore .ethernet a f
      s.descReturn r d f.length (bufferStatus reached ok) (if ok then stamp else none)

/-- A time with a signed latency added, in ns. -/
def withLatency (t : Nat) (lat : Int) : Nat := ((t : Int) + lat).toNat

/-- A frame with a good FCS goes to its first destination (R653). -/
def State.steer (s : State) (p : Nat) (f : List Byte) (h : EthHead) (t : Nat) : State :=
  if isPtp f h then
    s.rxFrame p 7 f (if stampable f h then some (withLatency t (-(s.rget (Reg.ethPTsLatRx p)).toInt)) else none)
  else
    match lowestStream (s.frameStreams p f h) with
    | some (n, payload) => s.ethUnit n t payload
    | none =>
      match h.vlan with
      | some (pcp, _) => s.rxFrame p pcp f none
      | none => s.rxFrame p 0 f none

/-- ETH_FRAME_RECEIVE (R653, R657): the frame without its FCS, and the time of its start-of-frame delimiter. Frames of 64
to 9,216 bytes with the FCS are received. -/
def execEthFrameReceive (port : Nat) (frame : List Byte) (fcsOk : Bool) (sec ns : Nat) (s : State) : Out :=
  .next <|
    if port < 4 ∧ s.mainOn ∧ s.bit (Reg.ethPCfg port) 0 ∧ s.bit (Reg.ethPStatus port) 0 ∧ 60 ≤ frame.length ∧
        frame.length ≤ 9212 then
      if fcsOk then
        let h := headOf frame
        let (s, ok) := (s.count (Reg.ethRxFrames port) 1).frerReceive port h
        if ok then s.steer port frame h (sec * 1000000000 + ns) else s
      else s.count (Reg.ethFcsCount port) 1
    else s

/-- ETH_QUEUE_TAIL_WRITE (R654). -/
def execEthQueueTailWrite (who : Initiator) (port : Nat) (transmit : Bool) (queue : Nat) (value : Word) (s : State) : Out :=
  s.named (decide (port < 4 ∧ queue < 8))
    (s.softWrite who (queueRegs transmit port queue).tail value fun s v => s.rset (queueRegs transmit port queue).tail v)

/-- A frame leaves through port p. -/
def State.frameOut (s : State) (p : Nat) (f : List Byte) : State :=
  (s.count (Reg.ethTxFrames p) 1).withField fun x => { x with
    sent := (p, f) :: x.sent.filter fun y => y.1 ≠ p }

/-- The frame with sequence number n in its R-TAG (R657): in the tag that it has, or in one behind its addresses and VLAN tag. -/
def tagged (f : List Byte) (h : EthHead) (n : Nat) : List Byte :=
  if h.rtag.isSome then patch f (h.off - 4) (natToBe 2 n)
  else f.take (h.off - 2) ++ natToBe 2 0xF1C1 ++ natToBe 2 0 ++ natToBe 2 n ++ f.drop (h.off - 2)

/-- A transmitted frame of a stream with a sequence-generation entry takes its number and goes out through every port of
REPLICATE (R657). -/
def State.frerSend (s : State) (p : Nat) (f : List Byte) : State :=
  let h := headOf f
  match s.frerEntry p h Config.frerGenerates with
  | none => s.frameOut p f
  | some e =>
    let mask := Config.frerReplicate (s.rget (Reg.ethFrerCfg p e)).toNat
    let n := s.fget (Reg.ethFrerSeq p e) 15 0
    let s := s.rset (Reg.ethFrerSeq p e) (toWord ((n + 1) % 65536))
    (List.range 4).foldl (fun s k => if mask.testBit k then s.frameOut k (tagged f h n) else s) s

/-! ### Gates in time (R656) -/

/-- The gates of port p in time. -/
def State.gates (s : State) (p : Nat) : GateRun := spGet (fun _ => GateRun.idle) s.field.gates p

/-- Keep the gates of port p. -/
def State.putGates (s : State) (p : Nat) (g : GateRun) : State :=
  s.withField fun x => { x with gates := spSet (fun _ => GateRun.idle) x.gates p g }

/-- Entry e of the operational list. -/
def State.gateEntry (s : State) (p e : Nat) : Word :=
  s.rget (if s.bit (Reg.ethGclStatus p) 0 then Reg.ethGclb p e else Reg.ethGcla p e)

/-- The transmit gates that are open, one bit per class: with ENABLE 0 every gate is. -/
def State.openGates (s : State) (p : Nat) : Nat :=
  if s.bit (Reg.ethGclCtrl p) 1 then fieldOf (s.gateEntry p (s.gates p).entry) 7 0 else 0xFF

/-- The entries of the operational list as parts of the cycle: first and last instant, and the gates. The last entry, and one
that reaches it, ends at the cycle's end. -/
def State.gateParts (s : State) (p : Nat) : List (Nat × Nat × Nat) :=
  let g := s.gates p
  ((List.range g.len).foldl (fun (acc : Nat × List (Nat × Nat × Nat)) e =>
    let w := s.gateEntry p e
    let stop := if g.len ≤ e + 1 then g.cycle else min g.cycle (acc.1 + fieldOf w 31 8)
    (stop, acc.2 ++ [(acc.1, stop, fieldOf w 7 0)])) (0, [])).2

/-- Is the gate of class q open all the time from the instant t for d ns. -/
def State.gateOpenFor (s : State) (p q t d : Nat) : Bool :=
  let g := s.gates p
  if !s.bit (Reg.ethGclCtrl p) 1 then true
  else if g.cycle = 0 then fieldOf (s.gateEntry p 0) 7 0 |>.testBit q
  else
    let o := (((t : Int) - g.start) % g.cycle).toNat
    let hit (a b : Nat) : Bool := decide (a < o + d ∧ o < b)
    decide (d ≤ g.cycle) && (s.gateParts p).all fun x =>
      x.2.2.testBit q || !(hit x.1 x.2.1 || hit (x.1 + g.cycle) (x.2.1 + g.cycle))

/-- The speed of the port in Mb/s (R652), by MODE. -/
def ethSpeed (mode : Nat) : Nat := [10000, 10000, 5000, 2500, 1000, 100].getD mode 10000

/-- How long a frame of `len` bytes without its FCS occupies the line, in ns. -/
def State.frameNs (s : State) (p len : Nat) : Nat := ceilDiv ((len + 4) * 8000) (ethSpeed (s.fget (Reg.ethPCfg p) 3 1))

/-- Is class q of port p preemptable (R652). -/
def State.preemptable (s : State) (p q : Nat) : Bool := s.bit (Reg.ethPCfg p) 12 && !s.bit (Reg.ethPCfg p) (4 + q)

/-- May a frame of class q that starts at t have been sent (R656): an express frame starts only when it completes before its gate
closes, a preemptable one while its gate is open. -/
def State.maySend (s : State) (p q t len : Nat) : Bool :=
  s.gateOpenFor p q t (if s.preemptable p q then 1 else s.frameNs p len)

/-- A frame of a preemptable class may be discarded at its gate (R656). -/
def State.mayDiscard (s : State) (p q : Nat) : Bool := s.bit (Reg.ethGclCtrl p) 1 && s.preemptable p q

/-- ETH_TX_FRAME_DONE (R654, R656 to R658): the frame left, with its start-of-frame delimiter at the time given, or its
gate discarded it. A frame that its gates do not let go waits. -/
def execEthTxFrameDone (port queue sec ns : Nat) (discarded : Bool) (s : State) : Out :=
  .next <|
    let r := queueRegs true port queue
    if port < 4 ∧ queue < 8 ∧ s.mainOn ∧ s.bit (Reg.ethPCfg port) 0 then
      match s.ownedDesc r with
      | (s, none) => s
      | (s, some d) =>
        let a := bytesToNat (d.take 6)
        let len := bytesToNat ((d.drop 6).take 2)
        if discarded then (if s.mayDiscard port queue then s.descReturn r d len 4 none else s)
        else if !s.maySend port queue (sec * 1000000000 + ns) len then s
        else
          let reached := len = 0 || (s.readable a && s.readable (a + (len - 1)))
          match s.engineLoad a len with
          | (s, none) => s.descReturn r d len (bufferStatus reached false) none
          | (s, some f) =>
            let t := withLatency (sec * 1000000000 + ns) (s.rget (Reg.ethPTsLatTx port)).toInt
            (s.frerSend port (oneStep f (headOf f) t)).descReturn r d len 0
              (if descField d 8 1 1 = 1 ∧ stampable f (headOf f) then some t else none)
    else s

/-- ETH_LINK_CHANGE (R652). -/
def execEthLinkChange (port : Nat) (up : Bool) (s : State) : Out :=
  .next (if port < 4 ∧ s.mainOn then s.bput (Reg.ethPStatus port) 0 up else s)

/-! ### Gate lists (R656) -/

/-- The instant at which an entry that began at t ends: the last one, and one that reaches it, at the cycle's end. -/
def State.entryEnd (s : State) (p : Nat) (g : GateRun) (e t : Nat) : Nat :=
  if g.len ≤ e + 1 then g.start + g.cycle else min (g.start + g.cycle) (t + fieldOf (s.gateEntry p e) 31 8)

/-- A write of GCL_CTRL (R656). -/
def State.gclWrite (s : State) (p : Nat) (v : Word) : State :=
  if bitOf v 0 && s.bit (Reg.ethGclStatus p) 1 then s.flag (Reg.ethPStatus p) 1
  else
    let s := s.putRw (Reg.ethGclCtrl p) v
    if bitOf v 0 then
      let cycle := s.fget (Reg.ethGclCycle p) 29 0
      let base := ((s.rget (Reg.ethGclBaseSecLo p)).toNat + 2 ^ 32 * (s.rget (Reg.ethGclBaseSecHi p)).toNat) * 1000000000 +
        s.fget (Reg.ethGclBaseNs p) 29 0
      let start := base + ceilDiv (s.timeNs - base) (max 1 cycle) * cycle
      (s.flag (Reg.ethGclStatus p) 1).putGates p { s.gates p with swap := some (start, cycle, fieldOf v 9 2 + 1) }
    else s

/-- GCL_GO (R656). -/
def execGclGo (who : Initiator) (port : Nat) (value : Word) (s : State) : Out :=
  s.named (decide (port < 4)) (s.softWrite who (Reg.ethGclCtrl port) (value ||| 1) fun s v => s.gclWrite port v)

/-- GCL_SWAP (R656): the administrative list becomes operational at its start; its entry 0 governs that instant. -/
def execGclSwap (port : Nat) (s : State) : Out :=
  .next <|
    match (s.gates port).swap with
    | none => s
    | some (start, cycle, len) =>
      if port < 4 ∧ start ≤ s.timeNs then
        let s := (s.bput (Reg.ethGclStatus port) 0 (!s.bit (Reg.ethGclStatus port) 0)).bput (Reg.ethGclStatus port) 1 false
        let g : GateRun := ⟨start, cycle, len, 0, 0, none⟩
        s.putGates port { g with until_ := s.entryEnd port g 0 start }
      else s

/-- GATE_TRANSITION (R656). -/
def execGateTransition (port : Nat) (s : State) : Out :=
  .next <|
    let g := s.gates port
    if port < 4 ∧ g.cycle ≠ 0 ∧ g.until_ ≤ s.timeNs then
      if g.start + g.cycle ≤ g.until_ then
        let g := { g with start := g.start + g.cycle, entry := 0 }
        s.putGates port { g with until_ := s.entryEnd port g 0 g.start }
      else
        s.putGates port { g with entry := g.entry + 1, until_ := s.entryEnd port g (g.entry + 1) g.until_ }
    else s

/-! ### CSI-2 (R659) -/

/-- CSI_NO_CLOCK (R659). -/
def execCsiNoClock (port : Nat) (s : State) : Out :=
  .next (if port < 8 ∧ s.bit (Reg.ethCsiCfg port) 8 then s.flag (Reg.ethCsiStatus port) 0 else s)

/-! ### CAN FD (R662) -/

/-- CAN FD port p. -/
def State.canPort (s : State) (p : Nat) : CanPort := spGet (fun _ => CanPort.idle) s.field.can p

/-- Keep something else of a CAN FD port. -/
def State.putCan (s : State) (p : Nat) (c : CanPort) : State :=
  s.withField fun x => { x with can := spSet (fun _ => CanPort.idle) x.can p c }

/-- Bus-off (ISO 11898-1): the transmit error counter is above 255. -/
def CanPort.busOff (c : CanPort) : Bool := decide (255 < c.tec)

/-- Has a port that was bus-off come back to the bus: when, and whether it does so by itself, is set in a register whose layout
the spec does not give (R662, log entry 10). -/
def State.canBack (s : State) (p : Nat) : State :=
  if (s.canPort p).busOff then
    let (b, s) := s.drawBit
    if b then s.putCan p { s.canPort p with tec := 0, rec_ := 0 } else s
  else s

/-- A good reception lowers the receive error counter (ISO 11898-1). -/
def CanPort.received (c : CanPort) : CanPort := { c with rec_ := if 127 < c.rec_ then 127 else c.rec_ - 1 }

/-- A frame joins a FIFO of 64; which frame a full FIFO loses is open. -/
def fifoPut (q : List (CanFrame × Nat)) (x : CanFrame × Nat) (dropNew : Bool) : List (CanFrame × Nat) :=
  if q.length < 64 then q ++ [x] else if dropNew then q else q.drop 1 ++ [x]

/-- CAN_FRAME_RECEIVE (R662): stamped at its start of frame to 8 ns. -/
def execCanFrameReceive (port : Nat) (frame : CanFrame) (time : Nat) (s : State) : Out :=
  .next <|
    let s := s.canBack port
    let c := s.canPort port
    if 2 ≤ port ∨ c.busOff then s
    else
      let hit := (List.range 64).findSome? fun i =>
        Config.canFilter (s.rget (Reg.ethCanFilter port i)).toNat frame.id frame.extended
      let c := c.received
      let x := (frame, time / 8 * 8)
      match hit with
      | none => s.putCan port c
      | some second =>
        let (b, s) := s.drawBit
        if second then s.putCan port { c with fifo1 := fifoPut c.fifo1 x b }
        else s.putCan port { c with fifo0 := fifoPut c.fifo0 x b }

/-- The priority of an identifier on the bus, the lowest number first: the base identifier, then the 11-bit form. -/
def canRank (f : CanFrame) : Nat :=
  if f.extended then (f.id / 2 ^ 18 % 2 ^ 11) * 2 ^ 19 + 2 ^ 18 + f.id % 2 ^ 18 else f.id % 2 ^ 11 * 2 ^ 19

/-- CAN_FRAME_TRANSMIT (R662): `requests` join the 32 transmit buffers, and the frame of the highest priority is sent; it
leaves its buffer when it was acknowledged. A bus-off port keeps its buffers and sends nothing. An error-passive port counts a missing acknowledgement only where it sees a
dominant bit (ISO 11898-1), which no command reports: a free bit. -/
def execCanFrameTransmit (port : Nat) (requests : List CanFrame) (acked : Bool) (s : State) : Out :=
  .next <|
    let s := s.canBack port
    let c := s.canPort port
    let tx := (c.tx ++ requests).take 32
    if 2 ≤ port then s
    else if c.busOff then s.putCan port { c with tx := tx }
    else
      let top := tx.foldl (fun b f => match b with
        | none => some f
        | some g => if canRank f < canRank g then some f else some g) none
      match top with
      | none => s
      | some f =>
        if acked then s.putCan port { c with tx := tx.erase f, tec := c.tec - 1 }
        else
          let (b, s) := s.drawBit
          s.putCan port { c with tx := tx, tec := if 127 < c.tec ∧ b then c.tec else c.tec + 8 }

/-! ### SPI and I²C (R663 to R666) -/

/-- Is a SPI ingress stream on master m enabled (R664). -/
def State.spiStreaming (s : State) (m : Nat) : Bool :=
  (List.range 40).any fun n =>
    s.strState n ≠ 0 && decide (s.strType n = 3 ∧ s.fget (Reg.ingStrSrc n) 2 0 = m)

/-- A write of ETH_SPIm_GO (R664): ignored while a stream of the master is enabled, which sets CFG_REFUSED; and while a
transfer runs. -/
def State.spiGo (s : State) (m : Nat) (v : Word) : State :=
  if s.spiStreaming m then s.flag Reg.ethStatus 0
  else if s.field.spi.any (fun x => x.1 = m) then s
  else (s.flag (Reg.ethSpiStatus m) 0).withField fun x => { x with spi := (m, v) :: x.spi }

/-- SPI_GO (R664). -/
def execSpiGo (who : Initiator) (master : Nat) (value : Word) (s : State) : Out :=
  s.named (decide (master < 6)) (s.softWrite who (Reg.ethSpiGo master) value fun s v => s.spiGo master v)

/-- SPI_TRANSFER_DONE (R663): the transfer is over and its chip select released; DATA holds what was read. -/
def execSpiTransferDone (master : Nat) (received : Word) (s : State) : Out :=
  .next <|
    if s.field.spi.any (fun x => x.1 = master) then
      (((s.rset (Reg.ethSpiData master) received).bput (Reg.ethSpiStatus master) 0 false).flag
        (Reg.ethSpiStatus master) 2).withField fun x => { x with spi := x.spi.filter fun y => y.1 ≠ master }
    else s

/-- I²C controller c. -/
def State.i2c (s : State) (c : Nat) : I2cRun := spGet (fun _ => I2cRun.idle) s.field.i2c c

/-- Keep something else of an I²C controller. -/
def State.putI2c (s : State) (c : Nat) (r : I2cRun) : State :=
  s.withField fun x => { x with i2c := spSet (fun _ => I2cRun.idle) x.i2c c r }

/-- The status of a transfer's end (R666). -/
def i2cStatus : I2cEnd → Nat
  | .success => 0
  | .lostArbitration => 3
  | .busTimeout => 4

/-- I2C_TRANSFER (R666). -/
def execI2cTransfer (controller : Nat) (result : I2cEnd) (data : List Byte) (s : State) : Out :=
  .next (if controller < 4 then
    s.putI2c controller { s.i2c controller with status := i2cStatus result, data := if result = .success then data else [] }
    else s)

/-- I2C_RECOVER (R666): 9 clock pulses and a STOP. -/
def execI2cRecover (who : Initiator) (controller : Nat) (s : State) : Out :=
  s.named (decide (controller < 4)) (s.softWrite who (Reg.ethI2c controller 0) 0 fun s _ =>
    s.putI2c controller { s.i2c controller with recoveries := (s.i2c controller).recoveries + 1 })

/-! ### Registers (R669) -/

/-- A write of a register that is refused. -/
def State.ethPortRefuse (s : State) (p : Nat) : State := s.flag (Reg.ethPStatus p) 1

/-- A write of a configuration register with an enable bit `i` (R669): while it is set, only that bit may change. -/
def State.guardedWrite (s : State) (a i : Nat) (v : Word) (ok : Bool) (refuse : State → State) : State :=
  if !ok then refuse s
  else if s.bit a i then
    let other := match regRow a with
      | none => 0
      | some r => r.maskFor .rw &&& ~~~ maskOf i i
    let s := if (s.rget a ^^^ v) &&& other = 0 then s else refuse s
    s.bput a i (bitOf v i)
  else s.putRw a v

/-- A write of a queue's register (R654, R669). -/
def State.queueWrite (s : State) (p : Nat) (cfg o : Nat) (a : Nat) (v : Word) : State :=
  if o = 8 then s.guardedWrite a 5 v (decide (4 ≤ fieldOf v 3 0 ∧ fieldOf v 3 0 ≤ 14)) fun s => s.ethPortRefuse p
  else if o < 8 ∧ s.bit cfg 5 then s.ethPortRefuse p
  else s.putTyped a v 0

/-- A write of a register of Ethernet port p (R652 to R658, R669). -/
def State.ethPortWrite (s : State) (p r a : Nat) (v : Word) : State :=
  if r = 0 then s.guardedWrite a 0 v (decide (fieldOf v 3 1 ≤ 5)) fun s => s.ethPortRefuse p
  else if r = 0x20 then s.gclWrite p v
  else if r = 0x24 then
    if 1000 ≤ fieldOf v 29 0 ∧ fieldOf v 29 0 ≤ 1000000000 then s.putRw a v else s.ethPortRefuse p
  else if 0x40 ≤ r ∧ r < 0x240 then s.queueWrite p ((a - r) + (r - 0x40) / 0x20 * 0x20 + 0x48) ((r - 0x40) % 0x20) a v
  else if 0x400 ≤ r ∧ r < 0xC00 then
    if s.bit (Reg.ethGclStatus p) 0 = decide (0x800 ≤ r) then s.ethPortRefuse p else s.putRw a v
  else if ((8 ≤ r ∧ r ≤ 0x14) ∨ 0xC00 ≤ r) ∧ s.bit (Reg.ethPCfg p) 0 then s.ethPortRefuse p
  else s.putTyped a v 0

/-- The write rule of the ETH_ block. -/
def State.ethWrite (s : State) (o : Nat) (v : Word) : State :=
  let a := 0x10610000 + o
  if 0x1000 ≤ o ∧ o < 0x5000 then s.ethPortWrite ((o - 0x1000) / 0x1000) (o % 0x1000) a v
  else if 0x8000 ≤ o ∧ o < 0x8200 ∧ o % 0x40 = 0 then
    s.guardedWrite a 8 v (decide (fieldOf v 1 0 ≤ 2)) fun s => s.flag Reg.ethStatus 0
  else if 0x9000 ≤ o ∧ o < 0x9180 ∧ o % 0x40 = 4 then s.spiGo ((o - 0x9000) / 0x40) v
  else s.putTyped a v 0

end Sys2Proof.Machine
end

