-- ==== Sys2Proof/Machine/Bus.lean ====
section
/-!
DEFINITION. Machine/Bus.lean: reads and writes of registers and memory by the processors, the commit of transactions, and
the commands that need several blocks (R6 to R12, R45 to R50, R65 to R67, R74, R81, R107, R115 to R123, R390, R624, R699).
-/

namespace Sys2Proof.Machine

/-! ### Registers -/

/-- A write of the register at `a` goes to the rule of its block (R53). -/
def State.blockWrite (s : State) (who : Initiator) (a : Nat) (v : Word) : State :=
  let k := blockIndex a
  let o := a % 0x10000
  if k = 0x00 then (if 0x100 ≤ o then s.stwWrite who o v else s.sysWrite o v)
  else if k ≤ 0x04 then s.bklWrite who (k - 1) o v
  else if k = 0x05 then s.txnWrite who o v
  else if k = 0x10 then s.tmbWrite o v
  else if k = 0x11 then s.ingWrite o v
  else if k = 0x12 then s.qdrWrite o v
  else if 0x13 ≤ k ∧ k ≤ 0x17 then s.stpWrite (k - 0x13) o v
  else if k = 0x18 then s.mioWrite o v
  else if k = 0x19 then s.ssuWrite o v
  else if k = 0x20 then s.cinWrite who o v
  else if k = 0x30 then s.hidWrite o v
  else if k = 0x31 then s.latWrite o v
  else if k = 0x32 then s.calWrite o v
  else if k = 0x33 then s.tngWrite o v
  else if k = 0x34 then s.relWrite o v
  else if k = 0x35 then s.visWrite o v
  else if k = 0x36 then s.iomWrite o v
  else if k = 0x37 then s.canWrite o v
  else if k = 0x50 then s.shzWrite o v
  else if k = 0x60 then s.pciWrite o v
  else if k = 0x61 then s.ethWrite o v
  else if k = 0x70 then s.tlgWrite o v
  else if k = 0x80 then s.cfgWrite o v
  else s.putTyped a v 0

/-- A direct write of a register (R6, R7, R10): outside every block, or not aligned, it faults. -/
def State.regStore (s : State) (who : Initiator) (a : Nat) (v : Word) : State :=
  if !inBlock a || decide (a % 4 ≠ 0) then s.respond .accessFault
  else s.softWrite who a v fun s v => s.blockWrite who a v

/-- The W1C bits of the register at `a` that hardware sets in a cycle (R11). -/
def hwBits (a : Nat) (hw : Word) : Word :=
  match regRow a with
  | none => 0
  | some r => hw &&& r.maskFor .w1c

/-- Bits that hardware sets where they stood at 0. A cause bit of an axis is raised (R473), and SAFE_PEND follows SAFE_SET. -/
def State.hwRaise (s : State) (a : Nat) (new : Word) : State :=
  if 0x10180B00 ≤ a ∧ a < 0x10180C00 then
    [1, 2, 3, 4, 5].foldl (fun s k => if bitOf new k then s.axisFault ((a - 0x10180B00) / 8) k else s) s
  else
    let s := s.rset a (s.rget a ||| new)
    if 0x13 ≤ blockIndex a ∧ blockIndex a ≤ 0x16 ∧ 0x1000 ≤ a % 0x10000 ∧ a % 0x10000 < 0x3000 ∧ a % 0x100 = 0x84 ∧ bitOf new 10 then
      s.flag (Reg.stpSafePend (blockIndex a - 0x13)) ((a % 0x10000 - 0x1000) / 0x100)
    else s

/-- REGISTER_WRITE (R10, R11): `hwSet` are the W1C bits that hardware sets in the same cycle. Those that stand at 1 stay set
whatever the write clears, and the others rise after it. -/
def execRegisterWrite (who : Initiator) (addr : Nat) (value hwSet : Word) (s : State) : Out :=
  .next <|
    if inBlock addr && s.reachable addr then
      let hw := hwBits addr hwSet
      let t := s.regStore who addr (value &&& ~~~ (hw &&& s.rget addr))
      if hw &&& ~~~ s.rget addr = 0 then t else t.hwRaise addr (hw &&& ~~~ s.rget addr)
    else s.regStore who addr value

/-- A counter that is cleared on read starts again at `events`, the events of the cycle of the read (R12). -/
def clearedOnRead (r : RegRow) (w : Word) (events : Nat) : Word :=
  r.flds.foldl (fun w f => if f.acc = .rc then withField w f.hi f.lo (min events (2 ^ (f.hi + 1 - f.lo) - 1)) else w) w

/-- A read of a register: its value, and its RC fields cleared (R6, R7, R12). -/
def State.regLoad (s : State) (a events : Nat) : State :=
  if !inBlock a || decide (a % 4 ≠ 0) || !s.reachable a then s.respond .accessFault
  else
    let t := s.respond (.data (s.regView a).toNat)
    match regRow a with
    | none => t
    | some r =>
      let t := if a = Reg.iomExtStatus then { t with freeCtr := t.freeCtr + 1 } else t
      if r.maskFor .rc = 0 then t else t.rset a (clearedOnRead r (s.rget a) events)

/-- RC_REGISTER_READ (R12). -/
def execRcRegisterRead (_who : Initiator) (addr events : Nat) (s : State) : Out := .next (s.regLoad addr events)

/-! ### Loads and stores of the processors -/

/-- A processor's load (R6, R45, R48, R67, R646, R699). -/
def State.load (s : State) (who : Initiator) (a size : Nat) (found : List ErrFinding) : State :=
  if !isProcessor who || !sizeOk size then s.respond .accessFault
  else if !alignedFor who a size then s.respond .accessFault
  else
    match regionOf a with
    | .registers => if size = 4 then s.regLoad a 0 else s.respond .accessFault
    | .pcieWindow => s.pcieLoad a size
    | .shauzWindow => if s.mainOn then s.windowLoad a size else s.respond .accessFault
    | _ => s.loadMemory who a size found

/-- PROCESSOR_LOAD (R67). -/
def execProcessorLoad (who : Initiator) (addr size : Nat) (found : List ErrFinding) (s : State) : Out :=
  .next (s.load who addr size found)

/-- A processor's store (R6, R45 to R48, R65, R646, R699). -/
def State.store (s : State) (who : Initiator) (a size v : Nat) (found : List ErrFinding) : State :=
  if !isProcessor who || !sizeOk size then s.respond .accessFault
  else if !alignedFor who a size then s.respond .accessFault
  else
    match regionOf a with
    | .registers => if size = 4 then s.regStore who a (toWord v) else s.respond .accessFault
    | .pcieWindow => s.pcieStore a size
    | .shauzWindow => if s.mainOn then s.windowStore a size v else s.respond .accessFault
    | _ => s.storeMemory who a size v found

/-- PROCESSOR_STORE (R65), and the cache-block management instructions of RVA23, which are stores without data (R51). -/
def execProcessorStore (who : Initiator) (op : StoreOp) (addr size value : Nat) (found : List ErrFinding) (s : State) :
    Out :=
  .next <|
    match op with
    | .data => s.store who addr size value found
    | op => if isProcessor who then s.cacheOp who op addr else s.respond .accessFault

/-- LR_SC_AMO (R50). -/
def execLrScAmo (who : Initiator) (op : AtomicOp) (addr size value : Nat) (found : List ErrFinding) (s : State) : Out :=
  .next (s.atomic who op addr size value found)

/-- FENCE_INSTRUCTION (R105, R107). -/
def execFenceInstruction (who : Initiator) (pred succ : Nat) (s : State) : Out := .next (s.fence who pred succ)

/-! ### The program buffer (R624) -/

/-- One access of the program buffer, by the class of its hart. -/
def State.debugAccess (s : State) (hart : Nat) : DebugAccess → State
  | .load a n => s.load (initOf hart) a n []
  | .store a n v => s.store (initOf hart) a n v []

/-- The accesses of a program buffer up to the first that faults: error code 3, an exception (log entry 25). -/
def State.progbuf (s : State) (hart : Nat) : List DebugAccess → State
  | [] => s.withTlg fun t => { t with cmderr := 0 }
  | x :: xs =>
    let t := s.debugAccess hart x
    if t.resp = .accessFault then t.withTlg fun t => { t with cmderr := 3 } else t.progbuf hart xs

/-- DEBUG_PROGBUF_EXEC (R624, R625). -/
def execDebugProgbufExec (scans : List TapScan) (hart : Nat) (accesses : List DebugAccess) (s : State) : Out :=
  .next <| s.debugCommand scans fun s =>
    if !s.debugOpen then s
    else if !s.tlg.halted.contains hart then s.withTlg fun t => { t with cmderr := 4 }
    else s.progbuf hart accesses

/-! ### The tensor IOMMU's walks (R81 to R84) -/

/-- Does the tensor of slot k hold the byte at an IOVA of a process. -/
def OpEntry.slotHolds (e : OpEntry) (pid iova k : Nat) : Bool :=
  e.has k && decide ((e.tensor k).pid = pid) && (e.tensor k).ranges.any fun x => decide (x.1 ≤ iova ∧ iova < x.1 + x.2)

/-- The unit and the unit code under which a translation fault ends an op (R237, R315, R337, R365): those of the unit whose
read or write it is. Reel reads and writes everything of its own ops, and the output, slot 6 and slot 7 of a fused one; a
CROP_RESIZE reads its images through Latigo. -/
def OpEntry.faultUnit (e : OpEntry) (pid iova : Nat) : Nat × Nat :=
  if e.units.contains 3 then (3, 2)
  else if e.opcode = 0x30 ∨ e.opcode = 0x31 then (4, 2)
  else if e.reelEn ∧ [0, 6, 7].any (e.slotHolds pid iova) then (4, 2)
  else if e.opcode = 0x40 ∧ ¬ e.slotHolds pid iova 1 then (5, 2)
  else (2, 6)

/-- A translation fault ends the op in progress of its device's ring (R82). -/
def State.walkFault (s : State) (cause dev pid iova : Nat) (isWrite : Bool) : State :=
  let s := s.faultRecord cause dev pid iova isWrite
  match s.ten.run with
  | none => s
  | some r =>
    if r.ring ≠ dev || r.code ≠ 0 then s
    else s.runFail (r.op.faultUnit pid iova).1 (r.op.faultUnit pid iova).2

/-- A walk that was in flight at a swap is over (R84). -/
def State.oldWalkDone (s : State) (slot : Nat) : State :=
  let step (r : SwapRun) : SwapRun := if r.slot = slot then { r with walksLeft := r.walksLeft - 1 } else r
  { s with swapRuns := s.swapRuns.map step }.syncIom

/-- A walk of a root that swap slot `slot` replaced completes against that root and fills nothing (R84). -/
def State.oldWalk (s : State) (slot dev pid iova : Nat) (isWrite : Bool) : State :=
  match s.swapRuns.find? fun r => r.slot = slot ∧ 0 < r.walksLeft with
  | none => s
  | some r =>
    match r.roots.find? fun x => x.1 = dev with
    | none => s
    | some x =>
      match State.walk iova isWrite ((s.tally 0x041 dev 1).oldWalkDone slot) 4 x.2 [] with
      | (t, .ok _) => t
      | (t, .error c) => t.walkFault c dev pid iova isWrite

/-- IOTLB_WALK_COMPLETE (R81, R82, R84). -/
def execIotlbWalkComplete (dev pid iova : Nat) (isWrite : Bool) (old : Option Nat) (s : State) : Out :=
  .next <|
    if !s.mainOn || decide (2 ≤ dev) then s
    else
      match old with
      | some slot => s.oldWalk slot dev pid iova isWrite
      | none =>
        match s.translate dev pid iova isWrite with
        | (t, .ok _) => t
        | (t, .fault c) => t.walkFault c dev pid iova isWrite

/-! ### Commit (R115 to R123, R702) -/

/-- Does a write ask a loop to return to RUN: ENABLE = 1 in CFG, or RESTART. Only such a write is refused by
RESTART_REFUSED; the flag that a cancelled return sets (R465) refuses nothing. -/
def asksReturn (o : Nat) (v : Word) : Bool := (o % 0x100 = 0 || o % 0x100 = 0x80) && bitOf v 0

/-- The bits that say that a write of v to the register at `a` was refused: register and bit. -/
def refusalFlags (a : Nat) (v : Word) : List (Nat × Nat) :=
  let k := blockIndex a
  let o := a % 0x10000
  if k = 0x10 then [(Reg.tmbStatus, 3)]
  else if k = 0x11 ∧ 0x1000 ≤ o ∧ o < 0x1A00 then [(Reg.ingStrStatus ((o - 0x1000) / 0x40), 7)]
  else if k = 0x12 then [(Reg.qdrStatus, 9)]
  else if 0x13 ≤ k ∧ k ≤ 0x16 ∧ 0x1000 ≤ o ∧ o < 0x3000 then
    let st := a / 0x100 * 0x100 + 0x84
    (st, 11) :: if asksReturn o v then [(st, 12)] else []
  else if k = 0x18 then [(Reg.mioStatus, 4)]
  else if k = 0x20 ∧ o < 0x1000 then [(Reg.cinStatus, 9)]
  else if k = 0x31 then [(Reg.latStatus, 1)]
  else if k = 0x32 then [(Reg.calRingStatus 0, 6), (Reg.calRingStatus 1, 6)]
  else if k = 0x34 then [(Reg.relStatus, 6)]
  else if k = 0x37 then [(Reg.canStatus, 1)]
  else if k = 0x60 then [(Reg.pciStatus, 0)]
  else if k = 0x61 then [(Reg.ethStatus, 0), (Reg.ethPStatus 0, 1), (Reg.ethPStatus 1, 1), (Reg.ethPStatus 2, 1), (Reg.ethPStatus 3, 1)]
  else if k = 0x70 then [(Reg.tlgStatus, 6)]
  else []

/-- Does homing own the setpoint at `a` (R492). -/
def State.homingHolds (s : State) (a : Nat) : Bool :=
  (List.range 128).any fun l => s.homeOwns l && decide (a = Reg.loopReg l 0x18)

/-- What a target that refuses a staged write shows of it: register, field and value. -/
abbrev RefusalMark := List (Nat × Nat × Nat × Nat)

/-- R382: a staged step; a refused one sets STEP_REFUSED. -/
def State.stagedStep (s : State) (v : Word) : Except RefusalMark State :=
  if s.stepRefused v then .error [(Reg.tmbStatus, 3, 3, 1)] else .ok ((s.putRw Reg.tmbStepGo v).stepCommit v)

/-- R468, R469: a staged hand-over. -/
def State.stagedHandover (s : State) (v : Word) : Except RefusalMark State :=
  let t := s.putRw Reg.stpHandover v
  if !bitOf v 31 then .ok t
  else if t.handoverErr v ≠ 0 then .error []
  else .ok (t.handoverDo v)

/-- Is this register IOM_SWAPn_ROOT_HI. -/
def isSwapRoot (a : Nat) : Bool := decide (0x10361108 ≤ a ∧ a < 0x10361188 ∧ a % 0x10 = 8)

/-- R83, R85: a staged swap is refused with code 1 by a slot that is PENDING. A swap that ends with another code sets ERROR on
its slot, and its transaction commits. -/
def State.stagedSwap (s : State) (a : Nat) (v : Word) : Except RefusalMark State :=
  let n := (a - 0x10361108) / 0x10
  if s.bit (Reg.iomSwapStatus n) 0 then .error [(Reg.iomSwapStatus n, 11, 8, 1), (Reg.iomSwapStatus n, 2, 2, 1)]
  else .ok (s.swapNow n v)

/-- A register entry at its commit beat, or what its target shows of its refusal (R121, R388): an event of order 1 to 6
changed the register in this beat, or the target's own rules refuse the value. -/
def State.stagedWrite (s : State) (who : Initiator) (a : Nat) (v : Word) : Except RefusalMark State :=
  if spGet (fun _ => (0 : Word)) s.touched a ≠ 0 then .error []
  else if !s.reachable a || !s.regPermits who a v || s.homingHolds a then .error []
  else if a = Reg.stwCmd ∧ s.bit Reg.stwCmdStatus 0 then .error []
  else if a = Reg.tmbStepGo then s.stagedStep v
  else if a = Reg.stpHandover then s.stagedHandover v
  else if isSwapRoot a then s.stagedSwap a v
  else
    let flags := (refusalFlags a v).filter fun f => f.1 ≠ a
    let clear := flags.foldl (fun t f => t.bput f.1 f.2 false) (s.respond .done)
    let t := clear.blockWrite who a v
    if t.resp = .accessFault || flags.any (fun f => t.bit f.1 f.2) then .error []
    else .ok ((flags.foldl (fun t f => t.bput f.1 f.2 (s.bit f.1 f.2)) t).respond s.resp)

/-- Of several entries to one register, the last in staging order (R117). -/
def lastEntries : List TxnEntry → List TxnEntry
  | [] => []
  | e :: es => if es.any fun f => f.addr = e.addr then lastEntries es else e :: lastEntries es

/-- Does an entry apply what other entries of its transaction set: a root swap uses the ID and ROOT_LO of its beat (R83). A
pocket commit likewise applies the shadow set with the transaction's own entries to it (R62 leaves their order open:
DESIGN CHOICE, log entry 38). -/
def TxnEntry.applies (e : TxnEntry) : Bool := isSwapRoot e.addr || decide (e.addr = Reg.canPocketCommit)

/-- The register entries of a transaction in the order in which they take effect: in staging order, each register's last
entry, and after them those that apply the others. -/
def registerEntries (es : List TxnEntry) : List TxnEntry :=
  let rs := lastEntries (es.filter fun e => decide (e.kind = 0) && inRegSpace e.addr)
  (rs.filter fun e => !e.applies) ++ rs.filter TxnEntry.applies

/-- The register entries take effect, or one of them is refused. -/
def State.stagedWrites (s : State) (who : Initiator) : List TxnEntry → Except RefusalMark State
  | [] => .ok s
  | e :: es =>
    match s.stagedWrite who e.addr e.lo with
    | .error m => .error m
    | .ok t => t.stagedWrites who es

/-- Is the entry a write to memory. -/
def TxnEntry.isMemory (e : TxnEntry) : Bool := decide (e.kind ≤ 1) && !inRegSpace e.addr

/-- The targets that an entry names: buckles (0), registers and memory words (1) (R121). -/
def TxnEntry.targets (e : TxnEntry) : List (Nat × Nat) :=
  if 2 ≤ e.kind then [(0, e.addr % 16384)]
  else
    match buckleAt e.addr with
    | some b => [(0, b)]
    | none => e.words.map fun w => (1, w.1)

/-- The signals of the time base that reached buckle b in this beat since the last other signal (R388). -/
def State.beatSignals (s : State) (b : Nat) : List Landed :=
  (s.landed.filter fun e => e.b = b).takeWhile fun e => e.sigs.all fun g => g.who == .timebase

/-- R98, R119, R388: the buckle entries of a commit reach buckle b in one cycle, the last set in staging order and every add,
and combine with the signals of the time base in this beat. -/
def State.commitBuckle (s : State) (who : Initiator) (es : List TxnEntry) (b : Nat) : State :=
  let mine := es.filter fun e => decide (2 ≤ e.kind ∧ e.addr % 16384 = b)
  let sigs := (((mine.filter fun e => e.kind = 2).getLast?.toList ++ mine.filter fun e => e.kind = 3).map
    fun e => (Signal.mk who (decide (e.kind = 2)) e.lo true))
  let beat := s.beatSignals b
  (s.takeBackAll b beat.length).signalAll b (sigs ++ (beat.map (·.sigs)).flatten)

/-- Every buckle that the entries name. -/
def State.commitBuckles (s : State) (who : Initiator) (es : List TxnEntry) : State :=
  ((es.filter fun e => decide (2 ≤ e.kind)).map fun e => e.addr % 16384).dedup.foldl (fun s b => s.commitBuckle who es b) s

/-- A linked transaction has received its GO (R581). -/
def State.hasGo (s : State) (n : Nat) : Bool :=
  match s.linkOf n with
  | none => true
  | some l => decide (s.fget (Reg.shzLinkStatus l) 2 0 = 3)

/-- Does transaction n name a vouched destination: one that was vouched at its pushes or at its arm, or is vouched now (R19,
R125). -/
def State.vouchNeeded (s : State) (n : Nat) : Bool := s.bit (Reg.txnStatus n) 25 || s.needsVouch n

/-- The first abort reason that concerns transaction n alone at its commit beat (R702); 0 is none. A safe-state command that
waits for this beat comes first (R123). The guard sees what an earlier commit of the beat wrote to its buckle (DESIGN
CHOICE, log entry 37: R120 and R121 do not say). -/
def State.commitReason (s : State) (n : Nat) : Nat :=
  if s.cin.command && s.vouchNeeded n then 0xA
  else if s.txnExpired n then 3
  else if s.vouchNeeded n && !((s.txn n).vouchBeat.any fun b => decide (b < s.beat)) then 6
  else if !s.hasGo n then 0xB
  else if s.bit (Reg.txnGuard n) 31 && s.buckle (s.fget (Reg.txnGuard n) 13 0) ≠ s.rget (Reg.txnGuardVal n) then 5
  else 0

/-- A frame's result where a vouched destination of the entries has FRAME set (R550). -/
def State.frameHit (s : State) (es : List TxnEntry) : State :=
  if (s.hitsOf es).any fun h => s.bit (Reg.cinVdShape h.2.2.2) 28 then s.frameResult else s

/-- Transaction n is COMMITTED, and signals DONE (R109, R127). -/
def State.committedTxn (s : State) (n : Nat) : State :=
  let s := (s.fset (Reg.txnStatus n) 2 0 3).fset (Reg.txnStatus n) 7 4 0
  let s := (s.set64 (Reg.txnEndBeatLo n) s.beat).count Reg.txnCommitCount 1
  ((s.putTxn n Txn.idle).txnDone n true).syncTxn

/-- Every effect of transaction n at its commit beat, or what a target that refuses an entry shows of it (R117 to R121). -/
def State.applyTxn (s : State) (n : Nat) : Except RefusalMark State :=
  let es := (s.txn n).entries
  let who := s.txnOwner n
  if es.any fun e => e.isMemory && !s.targetAccepts who e then .error []
  else
    match s.stagedWrites who (registerEntries es) with
    | .error m => .error m
    | .ok t =>
      let t := { t with
        memPending := t.memPending ++ es.filter TxnEntry.isMemory
        committed := (registerEntries es).map (fun (e : TxnEntry) => e.addr) ++ t.committed }
      .ok (((t.commitBuckles who es).frameHit es).committedTxn n)

/-- Transaction n at its commit beat: the state and the targets claimed in this beat (R121, R702). -/
def State.commitTxn (s : State) (claims : List (Nat × Nat)) (n : Nat) : State × List (Nat × Nat) :=
  let reason := s.commitReason n
  let mine := ((s.txn n).entries.map TxnEntry.targets).flatten
  if reason ≠ 0 then (s.abortTxn n reason, claims)
  else if mine.any claims.contains then (s.abortTxn n 2, claims)
  else
    match s.applyTxn n with
    | .error m => ((m.foldl (fun t f => t.fset f.1 f.2.1 f.2.2.1 f.2.2.2) s).abortTxn n 2, claims)
    | .ok t => (t, mine ++ claims)

/-- Is this the commit beat of transaction n (R115). -/
def State.txnDue (s : State) (n : Nat) : Bool :=
  decide (s.txnState n = 2) &&
    (if (s.txn n).timestamp then
      decide ((s.txnStamp n).1 * 1000000000 + (s.txnStamp n).2 ≤ s.timeNs)
     else decide (s.get64 (Reg.txnAtLo n) = s.beat))

/-- Insert a transaction by the order of its arm. -/
def State.insertArm (s : State) (n : Nat) : List Nat → List Nat
  | [] => [n]
  | m :: ms => if (s.txn n).armOrder < (s.txn m).armOrder then n :: m :: ms else m :: s.insertArm n ms

/-- The transactions of this commit beat in the order in which they were armed; of arms in one cycle the lower number comes
first (R121). -/
def State.dueTxns (s : State) : List Nat := ((List.range 64).filter s.txnDue).foldl (fun l n => s.insertArm n l) []

/-- The commits of a beat. -/
def State.commitAll (s : State) (claims : List (Nat × Nat)) : List Nat → State
  | [] => s
  | n :: ns =>
    let (t, claims) := s.commitTxn claims n
    t.commitAll claims ns

/-- TXN_COMMIT_BEAT (R117, R121): in a beat, at its place (R387); none while the beat is stopped or the main domain is in
reset. -/
def execTxnCommitBeat (s : State) : Out :=
  .next (if s.beating && s.mainOn && s.placeOpen 8 then (s.atPlace 8).commitAll [] s.dueTxns else s)

/-- TXN_MEMORY_ENTRY_WRITE (R118): the next committed memory entry is written. -/
def execTxnMemoryEntryWrite (s : State) : Out :=
  .next <|
    match s.memPending with
    | [] => s
    | e :: es => { s with memPending := es }.writeEntry e

/-! ### Triggers (R390, R398) -/

/-- TRIGGER_MATCH (R390, R393, R398): the match of trigger n starts the SPI streams that name it, with TARGET as their start
time. -/
def execTriggerMatch (n : Nat) (s : State) : Out :=
  .next (if s.trigMatches n then (s.trigMatch n).spiStart 0 n (s.trig n).target else s)

end Sys2Proof.Machine
end

