-- ==== Sys2Proof/Machine/Boot.lean ====
section
/-!
DEFINITION. Machine/Boot.lean: the Steward's boot and the training of Tier B (R74, R594 to R607).
-/

namespace Sys2Proof.Machine

/-! ### Service mode and training (R74, R596, R603) -/

/-- The units of the Tensor Plane are written ENABLE = 0 (R596). -/
def State.drainPlane (s : State) : State :=
  [Reg.hidCtrl, Reg.latCtrl, Reg.tngCtrl, Reg.relCtrl, Reg.visCtrl].foldl
    (fun s a => s.blockWrite .steward a (s.rget a &&& ~~~ 1)) s

/-- Service mode (R596, R603). -/
def State.enterService (s : State) : State := ((s.flag Reg.cfgStatus 4).fset Reg.stwStatus 1 0 3).drainPlane

/-- TRB_TRAINING_DONE (R74, R596): `passed` are the stacks that trained; the others failed three times. -/
def execTrbTrainingDone (passed : List Nat) (s : State) : Out :=
  .next <|
    if !s.stw.training then s
    else
      let s := s.withStw fun w => { w with training := false }
      let s := (List.range 4).foldl (fun s k => if passed.contains k then s.flag Reg.trbStatus (1 + k) else s) s
      if (List.range 4).all passed.contains then s.flag Reg.trbStatus 0
      else (s.flag Reg.cfgStatus 5).enterService

/-! ### Configuration records (R605, R606) -/

/-- One record: a Steward write under the target's own rules; a field that only the load path sets is set (R605). -/
def State.applyRecord (s : State) (a : Nat) (v : Word) : State :=
  match regRow a with
  | none => s
  | some r =>
    if r.maskFor .load = 0 then (s.regStore .steward a v).respond s.resp
    else
      let t := s.putTyped a v 0
      t.rset a ((t.rget a &&& ~~~ r.maskFor .load) ||| (v &&& r.maskFor .load))

/-- The records of a section as they stream: false at one that names no register block (R599). A boot after a main reset
skips those of the always-on domain (R606). -/
def State.applyRecords (s : State) : List (Nat × Nat) → State × Bool
  | [] => (s, true)
  | (a, v) :: rs =>
    if !inBlock a then (s, false)
    else if !s.stw.vaonLost && !mainAddress a then s.applyRecords rs
    else (s.applyRecord a (toWord v)).applyRecords rs

/-! ### Sections (R594, R601, R604) -/

/-- The section of a type and a slot, where it passes (R601). -/
def passing (img : List Byte) (secs : List Section) (typ slot : Nat) : Option Section :=
  secs.find? fun x => decide (x.typ = typ ∧ x.slot = slot) && sectionOk img x

/-- The section type of a class's firmware. -/
def classType (cls : Nat) : Nat := if cls = 4 then 6 else cls + 1

/-- Can slot k of a class be loaded: Cinch needs its safety parameters beside its firmware (R599, R604). -/
def slotLoads (img : List Byte) (secs : List Section) (cls k : Nat) : Bool :=
  (passing img secs (classType cls) k).isSome && (cls ≠ 3 || (passing img secs 5 k).isSome)

/-- The slot of a class that is loaded (R604). -/
def chosenSlot (img : List Byte) (secs : List Section) (cls sel : Nat) : Option Nat :=
  if slotLoads img secs cls sel then some sel
  else if slotLoads img secs cls (1 - sel) then some (1 - sel)
  else none

/-- One section as the Steward reads it: the failure code of the image, 0 where it goes on. A failure of the records or of
CLUSTER_BOOT fails the image, and so does the last STEWARD_FW where none passes (R601, R604). -/
def State.streamSection (s : State) (img : List Byte) (secs : List Section) (x : Section) (last : Bool) : State × Nat :=
  if x.typ = 7 then
    match s.applyRecords (recordsOf (sectionBytes img x)) with
    | (t, ok) => (t, if ok && sectionOk img x then 0 else 2)
  else if x.typ = 8 then
    let t := (s.engineStore .steward (tierABase + x.entry / 4096 * 4096) (sectionBytes img x)).1
    (t, if sectionOk img x then 0 else 2)
  else if x.typ = 1 && last && !slotLoads img secs 0 0 && !slotLoads img secs 0 1 then (s, 2)
  else (s, 0)

/-- The sections in table order (R594). -/
def State.streamSections (s : State) (img : List Byte) (secs : List Section) : List Section → State × Nat
  | [] => (s, 0)
  | x :: xs =>
    match s.streamSection img secs x (!xs.any fun y => y.typ = 1) with
    | (t, 0) => t.streamSections img secs xs
    | r => r

/-- The instances of a class. -/
def classInstances (cls : Nat) : List Nat :=
  match cls with
  | 0 => [0]
  | 1 => [1, 2]
  | 2 => [3, 4, 5, 6]
  | 3 => [7]
  | _ => [8, 9, 10, 11, 12]

/-- Did the processors of a class keep running (R595). Cinch takes a section only in BOOT. -/
def State.keptRunning (s : State) (cls : Nat) : Bool :=
  (classInstances cls).any (fun i => (s.firmware i).isSome) || (decide (cls = 3) && decide (s.cinState ≠ 0))

/-- Load one class (R594, R604, R612, R619). -/
def State.loadClass (s : State) (img : List Byte) (secs : List Section) (cls : Nat) : State :=
  let sel := b2n (s.bit Reg.cfgBootSel cls)
  if s.keptRunning cls then s
  else
    match chosenSlot img secs cls sel with
    | none => s
    | some k =>
      match passing img secs (classType cls) k with
      | none => s
      | some x =>
        let s := if k = sel then s else s.flag Reg.cfgStatus (8 + cls)
        let f := firmwareOf img x k
        let s := if cls = 3 then s.loadCinch k f.image ((passing img secs 5 k).elim [] (sectionBytes img)) else s
        s.withStw fun w => { w with
          active := (classInstances cls).map (fun i => (i, f)) ++ w.active }

/-- Step 3 (R71, R594): the seed of the header, or a random one, and training starts. After a loss of VAON the header gives
CFG_BOOT_SEL (R604). -/
def State.startTraining (s : State) (img : List Byte) : State :=
  let (k, t) := s.drawNat
  let rolling := descField img 4 9 9 = 1
  let s := if rolling then t.set64 Reg.trbSeedLo k else s.set64 Reg.trbSeedLo (descLong img 0x20)
  let s := s.bput Reg.trbStatus 5 rolling
  let s := if s.stw.vaonLost then s.rset Reg.cfgBootSel (toWord (descField img 0x1C 4 0)) else s
  s.withStw fun w => { w with training := true }

/-- Steps 5 and 6 (R594): the clocks, the slots, the boot hart and BOOT_DONE. The clocks that the Steward chooses are
free. -/
def State.finishBoot (s : State) (img : List Byte) (region : Nat) (secs : List Section) : State :=
  let s := (List.range 5).foldl (fun s c => s.loadClass img secs c) s
  let s := (List.range 13).foldl State.syncSlot s
  let s := (s.rset Reg.cfgImageVer (toWord (descWord img 0x14))).rset Reg.cfgSecVer (toWord (descWord img 0x10))
  let s := ((s.flag Reg.cfgStatus 0).fset Reg.cfgStatus 2 1 region).fset Reg.stwStatus 1 0 2
  let s := s.bput Reg.stwStatus 2 ((s.firmware 0).any fun f => f.slot = 1)
  let entry := (secs.find? fun x => x.typ = 8).map fun x => tierABase + x.entry
  s.withStw fun w => { w with
    toBoot := false, vaonLost := false, bootHart := entry, signedBy := keySlotOf img }

/-- One image (R594, R599 to R602): its failure code, and the state that the attempt leaves. -/
def State.bootImage (s : State) (region : Nat) (deviceError : Bool) : State × Nat :=
  let img := s.flash.image (0x2000000 * region)
  let code := if deviceError then 8 else
    let c := tableCode img false
    if c ≠ 0 then c else s.signatureCode img
  if code ≠ 0 then (s, code)
  else
    let secs := sectionsOf img
    match (s.startTraining img).streamSections img secs secs with
    | (t, 0) => (t.finishBoot img region secs, 0)
    | r => r

/-- The tensor clock as the Steward sets it at boot: free, between 0.6 GHz and 1.5 GHz (R39, R40); the cluster clock is
free up to 2.6 GHz. -/
def State.bootClocks (s : State) : State :=
  let (k, s) := s.drawNat
  let (j, s) := s.drawNat
  (s.fset Reg.stwPower 26 16 (600 + k % 901)).withPwr fun p => { p with capTen := 600 + k % 901, capApp := j % 2601 }

/-- Factory defaults (R603). -/
def State.bootDefaults (s : State) : State :=
  ((s.flag Reg.cfgStatus 3).fset Reg.cfgStatus 2 1 2).enterService.withStw fun w => { w with
    toBoot := false, bootHart := none, signedBy := none }

/-- STEWARD_BOOT (R594, R603): the primary image, else the backup image, else factory defaults. `primaryError` and
`backupError` say that the flash device failed while the image was read. -/
def execStewardBoot (primaryError backupError : Bool) (s : State) : Out :=
  .next <|
    if !s.stewardOut || !s.stw.toBoot then s
    else
      let s := (s.fset Reg.stwStatus 1 0 1).bootClocks
      match s.bootImage 0 primaryError with
      | (t, 0) => t
      | (t, c) =>
        let t := t.fset Reg.cfgStatus 19 16 c
        match t.bootImage 1 backupError with
        | (u, 0) => u
        | (u, d) => (u.fset Reg.cfgStatus 23 20 d).bootDefaults

end Sys2Proof.Machine
end

