-- ==== Sys2Proof/Machine/Flags.lean ====
section
/-!
DEFINITION. Machine/Flags.lean: the interrupt requests that the status flags of the blocks raise.
-/

namespace Sys2Proof.Machine

/-- Blocks whose interrupt is requested while bit i of STATUS and bit i of INT_EN are both set: STATUS, INT_EN. -/
def plainSources : List (Nat × Nat) := [
  (Reg.sysStatus, Reg.sysIntEn), (Reg.tmbStatus, Reg.tmbIntEn), (Reg.ingStatus, Reg.ingIntEn),
  (Reg.qdrStatus, Reg.qdrIntEn), (Reg.mioStatus, Reg.mioIntEn), (Reg.ssuStatus, Reg.ssuIntEn),
  (Reg.cinStatus, Reg.cinIntEn), (Reg.hidStatus, Reg.hidIntEn), (Reg.latStatus, Reg.latIntEn),
  (Reg.calRingStatus 0, Reg.calRingIntEn 0), (Reg.calRingStatus 1, Reg.calRingIntEn 1),
  (Reg.tngStatus, Reg.tngIntEn), (Reg.relStatus, Reg.relIntEn), (Reg.visStatus, Reg.visIntEn),
  (Reg.canStatus, Reg.canIntEn), (Reg.shzStatus, Reg.shzIntEn), (Reg.pciStatus, Reg.pciIntEn),
  (Reg.ethStatus, Reg.ethIntEn), (Reg.tlgStatus, Reg.tlgIntEn)]

/-- Is the interrupt of a STATUS and INT_EN pair requested. -/
def State.pairRaised (s : State) (p : Nat × Nat) : Bool := s.rget p.1 &&& s.rget p.2 ≠ 0

/-- STW_INT_EN: interrupt on DONE. -/
def State.stwIrq (s : State) : Bool := s.bit Reg.stwCmdStatus 1 && s.bit Reg.stwIntEn 0

/-- TRB_INT_EN: CE, UE, the imbalance flag, and a rise of THROTTLE. -/
def State.trbIrq (s : State) : Bool :=
  (s.bit Reg.trbStatus 8 && s.bit Reg.trbIntEn 0) || (s.bit Reg.trbStatus 9 && s.bit Reg.trbIntEn 1) ||
    (s.bit Reg.trbImbalance 0 && s.bit Reg.trbIntEn 2) || s.throttleIrq

/-- STP_INT_EN: any SAFE_SET, any engine's FAULT, a hand-over done or refused. -/
def State.stpIrq (s : State) : Bool :=
  (s.bit Reg.stpIntEn 0 && (List.range 4).any fun k => s.rget (Reg.stpSafePend k) ≠ 0) ||
    (s.bit Reg.stpIntEn 1 && (List.range 5).any fun e => s.bit (Reg.stpEngStatus e) 8) ||
    (s.bit Reg.stpIntEn 2 && (s.bit Reg.stpHandoverStatus 0 || s.bit Reg.stpHandoverStatus 1))

/-- The APLIC source of wait slot w of buckle block k (R102). -/
def waitSource (k w : Nat) : Nat := 256 + 64 * k + w

/-- The slot asserts its source while HIT is 1 (R103). -/
def State.waitIrq (s : State) (k w : Nat) : Bool := s.bit (Reg.bklWaitStatus k w) 1

/-- The APLIC sources that the wait slots assert now (R102, R103). The APLIC delivers them as configured; its registers are
no part of the spec. -/
def State.aplicSources (s : State) : List Nat :=
  ((List.range 4).map fun k => ((List.range 64).filter (s.waitIrq k)).map (waitSource k)).flatten

/-- The blocks that request an interrupt, by block index; the wait slots have sources of their own (`aplicSources`). -/
def State.interrupts (s : State) : List Nat :=
  ((plainSources.filter s.pairRaised).map fun p => blockIndex p.1) ++ (if s.stwIrq then [0x00] else []) ++
    (if s.trbIrq then [0x40] else []) ++ (if s.stpIrq then [0x13] else [])

end Sys2Proof.Machine
end

