-- ==== Sys2Proof/Machine/Dispatch.lean ====
section
/-!
DEFINITION. Machine/Dispatch.lean: one arm per command, each one call of its meaning.
-/

namespace Sys2Proof.Machine

def exec (i : Instr) (s : State) : Host.Outcome State Fault Refusal :=
  match i with
  | .registerWrite who addr value hwSet => Sys2Proof.Machine.execRegisterWrite who addr value hwSet s
  | .rcRegisterRead who addr events => Sys2Proof.Machine.execRcRegisterRead who addr events s
  | .processorLoad who addr size found => Sys2Proof.Machine.execProcessorLoad who addr size found s
  | .processorStore who op addr size value found => Sys2Proof.Machine.execProcessorStore who op addr size value found s
  | .lrScAmo who op addr size value found => Sys2Proof.Machine.execLrScAmo who op addr size value found s
  | .fenceInstruction who pred succ => Sys2Proof.Machine.execFenceInstruction who pred succ s
  | .cantleScrubPass previousDone found => Sys2Proof.Machine.execCantleScrubPass previousDone found s
  | .trbScrubPass found => Sys2Proof.Machine.execTrbScrubPass found s
  | .trbImbalanceWindowEnd accesses => Sys2Proof.Machine.execTrbImbalanceWindowEnd accesses s
  | .stackThrottle stack cause on => Sys2Proof.Machine.execStackThrottle stack cause on s
  | .trbTrainingDone passed => Sys2Proof.Machine.execTrbTrainingDone passed s
  | .pocketCommitGo who => Sys2Proof.Machine.execPocketCommitGo who s
  | .iomSwapRootHiWrite who n value oldWalks writeError => Sys2Proof.Machine.execIomSwapRootHiWrite who n value oldWalks writeError s
  | .iomSwapDone n => Sys2Proof.Machine.execIomSwapDone n s
  | .iotlbWalkComplete dev pid iova isWrite old => Sys2Proof.Machine.execIotlbWalkComplete dev pid iova isWrite old s
  | .iotinvalVma addr pscid => Sys2Proof.Machine.execIotinvalVma addr pscid s
  | .iotinvalGvma addr gscid => Sys2Proof.Machine.execIotinvalGvma addr gscid s
  | .iodirInvalDdt dev => Sys2Proof.Machine.execIodirInvalDdt dev s
  | .iodirInvalPdt dev pid => Sys2Proof.Machine.execIodirInvalPdt dev pid s
  | .iofenceC store => Sys2Proof.Machine.execIofenceC store s
  | .stallCounterClear who bank => Sys2Proof.Machine.execStallCounterClear who bank s
  | .buckleSet who b value others => Sys2Proof.Machine.execBuckleSet who b value others s
  | .buckleAdd who b amount others => Sys2Proof.Machine.execBuckleAdd who b amount others s
  | .waitArm who block slot buckle equal => Sys2Proof.Machine.execWaitArm who block slot buckle equal s
  | .waitDisarm who block slot buckle equal => Sys2Proof.Machine.execWaitDisarm who block slot buckle equal s
  | .waitTargetWrite who block slot value => Sys2Proof.Machine.execWaitTargetWrite who block slot value s
  | .txnOpen who n => Sys2Proof.Machine.execTxnOpen who n s
  | .txnArm who n timestamp sameCycle => Sys2Proof.Machine.execTxnArm who n timestamp sameCycle s
  | .txnAbort who n => Sys2Proof.Machine.execTxnAbort who n s
  | .txnRelease who n => Sys2Proof.Machine.execTxnRelease who n s
  | .txnStagePush who n => Sys2Proof.Machine.execTxnStagePush who n s
  | .txnCommitBeat => Sys2Proof.Machine.execTxnCommitBeat s
  | .txnMemoryEntryWrite => Sys2Proof.Machine.execTxnMemoryEntryWrite s
  | .txnTimeout n => Sys2Proof.Machine.execTxnTimeout n s
  | .txnSnapGo who slots => Sys2Proof.Machine.execTxnSnapGo who slots s
  | .snapshotLatch => Sys2Proof.Machine.execSnapshotLatch s
  | .snapshotComplete slot => Sys2Proof.Machine.execSnapshotComplete slot s
  | .operandUncorrectable parity => Sys2Proof.Machine.execOperandUncorrectable parity s
  | .tileKPassEnd operandWait drainWait => Sys2Proof.Machine.execTileKPassEnd operandWait drainWait s
  | .tileDrainEnd corrupt => Sys2Proof.Machine.execTileDrainEnd corrupt s
  | .hideDisable who => Sys2Proof.Machine.execHideDisable who s
  | .hideEnable who => Sys2Proof.Machine.execHideEnable who s
  | .hidCycClear who => Sys2Proof.Machine.execHidCycClear who s
  | .windowFill n => Sys2Proof.Machine.execWindowFill n s
  | .windowSlotFree n => Sys2Proof.Machine.execWindowSlotFree n s
  | .latWinCfgWrite who n base value => Sys2Proof.Machine.execLatWinCfgWrite who n base value s
  | .latWinRateWrite who n value => Sys2Proof.Machine.execLatWinRateWrite who n value s
  | .latigoDisable who => Sys2Proof.Machine.execLatigoDisable who s
  | .latigoEnable who => Sys2Proof.Machine.execLatigoEnable who s
  | .ringTailWrite who ring value => Sys2Proof.Machine.execRingTailWrite who ring value s
  | .ringHeadWrite who ring value => Sys2Proof.Machine.execRingHeadWrite who ring value s
  | .ringCfgWrite who ring value => Sys2Proof.Machine.execRingCfgWrite who ring value s
  | .ringEnable who ring => Sys2Proof.Machine.execRingEnable who ring s
  | .ringDisable who ring => Sys2Proof.Machine.execRingDisable who ring s
  | .ringResume who ring => Sys2Proof.Machine.execRingResume who ring s
  | .ringStop who ring => Sys2Proof.Machine.execRingStop who ring s
  | .ringStopped ring => Sys2Proof.Machine.execRingStopped ring s
  | .descriptorRead ring => Sys2Proof.Machine.execDescriptorRead ring s
  | .rejectedOpEnd ring => Sys2Proof.Machine.execRejectedOpEnd ring s
  | .tensorClockChange => Sys2Proof.Machine.execTensorClockChange s
  | .powerThrottleStart => Sys2Proof.Machine.execPowerThrottleStart s
  | .matmul ring => Sys2Proof.Machine.execMatmul ring s
  | .conv ring => Sys2Proof.Machine.execConv ring s
  | .golden => Sys2Proof.Machine.execGolden s
  | .attnScore ring => Sys2Proof.Machine.execAttnScore ring s
  | .attnValue ring => Sys2Proof.Machine.execAttnValue ring s
  | .attnMerge ring => Sys2Proof.Machine.execAttnMerge ring s
  | .attnBwd ring => Sys2Proof.Machine.execAttnBwd ring s
  | .reelScan ring => Sys2Proof.Machine.execReelScan ring s
  | .eltwise ring => Sys2Proof.Machine.execEltwise ring s
  | .cropResize ring => Sys2Proof.Machine.execCropResize ring s
  | .fetch ring => Sys2Proof.Machine.execFetch ring s
  | .nop ring => Sys2Proof.Machine.execNop ring s
  | .fence ring => Sys2Proof.Machine.execFence ring s
  | .opEnd outputWait cycles lat tng => Sys2Proof.Machine.execOpEnd outputWait cycles lat tng s
  | .opOverrun cycles => Sys2Proof.Machine.execOpOverrun cycles s
  | .goldenLatestExpiry => Sys2Proof.Machine.execGoldenLatestExpiry s
  | .goldenRunInsert => Sys2Proof.Machine.execGoldenRunInsert s
  | .tangoDisable who => Sys2Proof.Machine.execTangoDisable who s
  | .tangoEnable who => Sys2Proof.Machine.execTangoEnable who s
  | .visionDisable who => Sys2Proof.Machine.execVisionDisable who s
  | .visionEnable who => Sys2Proof.Machine.execVisionEnable who s
  | .streamCfgWrite who idx addr value => Sys2Proof.Machine.execStreamCfgWrite who idx addr value s
  | .streamReset who idx => Sys2Proof.Machine.execStreamReset who idx s
  | .reelDisable who => Sys2Proof.Machine.execReelDisable who s
  | .reelEnable who => Sys2Proof.Machine.execReelEnable who s
  | .timeRateWrite who value => Sys2Proof.Machine.execTimeRateWrite who value s
  | .timeStepSet who => Sys2Proof.Machine.execTimeStepSet who s
  | .timeStepAdd who => Sys2Proof.Machine.execTimeStepAdd who s
  | .timeStepSubtract who => Sys2Proof.Machine.execTimeStepSubtract who s
  | .timeStepApply => Sys2Proof.Machine.execTimeStepApply s
  | .evtLockLoss reference => Sys2Proof.Machine.execEvtLockLoss reference s
  | .evtLockRegain => Sys2Proof.Machine.execEvtLockRegain s
  | .ppsOutPulse => Sys2Proof.Machine.execPpsOutPulse s
  | .ppsOutPulseEnd => Sys2Proof.Machine.execPpsOutPulseEnd s
  | .ppsInEdge falling after => Sys2Proof.Machine.execPpsInEdge falling after s
  | .triggerArmSingle who n cfg => Sys2Proof.Machine.execTriggerArmSingle who n cfg s
  | .triggerArmPeriodic who n cfg => Sys2Proof.Machine.execTriggerArmPeriodic who n cfg s
  | .triggerArmSet who n cfg => Sys2Proof.Machine.execTriggerArmSet who n cfg s
  | .triggerArmClear who n cfg => Sys2Proof.Machine.execTriggerArmClear who n cfg s
  | .triggerDisarm who n cfg => Sys2Proof.Machine.execTriggerDisarm who n cfg s
  | .triggerTargetWrite who n value => Sys2Proof.Machine.execTriggerTargetWrite who n value s
  | .triggerMatch n => Sys2Proof.Machine.execTriggerMatch n s
  | .triggerPulseEnd n => Sys2Proof.Machine.execTriggerPulseEnd n s
  | .captureEdge n falling after => Sys2Proof.Machine.execCaptureEdge n falling after s
  | .captureEnqueue n => Sys2Proof.Machine.execCaptureEnqueue n s
  | .capturePop who n => Sys2Proof.Machine.execCapturePop who n s
  | .csi2FrameStart port vc => Sys2Proof.Machine.execCsi2FrameStart port vc s
  | .csi2Line port vc dt payload crcOk headerOk => Sys2Proof.Machine.execCsi2Line port vc dt payload crcOk headerOk s
  | .csi2FrameEnd port vc => Sys2Proof.Machine.execCsi2FrameEnd port vc s
  | .cameraTimeoutExpiry n => Sys2Proof.Machine.execCameraTimeoutExpiry n s
  | .ethStreamPacket port kind value sec ns payload => Sys2Proof.Machine.execEthStreamPacket port kind value sec ns payload s
  | .ethGapExpiry n => Sys2Proof.Machine.execEthGapExpiry n s
  | .audioSample source bits time rate48 slots => Sys2Proof.Machine.execAudioSample source bits time rate48 slots s
  | .tdmFsyncLoss port => Sys2Proof.Machine.execTdmFsyncLoss port s
  | .spiStreamReadDone n csTime data => Sys2Proof.Machine.execSpiStreamReadDone n csTime data s
  | .frameConditionStart => Sys2Proof.Machine.execFrameConditionStart s
  | .frameDeliver n => Sys2Proof.Machine.execFrameDeliver n s
  | .ingReleaseWrite who n value => Sys2Proof.Machine.execIngReleaseWrite who n value s
  | .streamEnable who n cfg => Sys2Proof.Machine.execStreamEnable who n cfg s
  | .streamDisable who n cfg => Sys2Proof.Machine.execStreamDisable who n cfg s
  | .ingressDisable who => Sys2Proof.Machine.execIngressDisable who s
  | .qdrRingTailWrite who value => Sys2Proof.Machine.execQdrRingTailWrite who value s
  | .qdrJobNop => Sys2Proof.Machine.execQdrJobNop s
  | .project => Sys2Proof.Machine.execProject s
  | .gridClear => Sys2Proof.Machine.execGridClear s
  | .rangeVote => Sys2Proof.Machine.execRangeVote s
  | .associate => Sys2Proof.Machine.execAssociate s
  | .predict => Sys2Proof.Machine.execPredict s
  | .publish => Sys2Proof.Machine.execPublish s
  | .qdrJobEnd => Sys2Proof.Machine.execQdrJobEnd s
  | .qdrResume who value => Sys2Proof.Machine.execQdrResume who value s
  | .qdrTrackClear who value => Sys2Proof.Machine.execQdrTrackClear who value s
  | .qdrDisable who value => Sys2Proof.Machine.execQdrDisable who value s
  | .qdrEnable who value => Sys2Proof.Machine.execQdrEnable who value s
  | .qdrPubReleaseWrite who value => Sys2Proof.Machine.execQdrPubReleaseWrite who value s
  | .qdrConfigWrite who offset value => Sys2Proof.Machine.execQdrConfigWrite who offset value s
  | .loopSample group findings => Sys2Proof.Machine.execLoopSample group findings s
  | .loopOutputApply loop => Sys2Proof.Machine.execLoopOutputApply loop s
  | .loopEnable who loop cfg => Sys2Proof.Machine.execLoopEnable who loop cfg s
  | .loopDisable who loop cfg => Sys2Proof.Machine.execLoopDisable who loop cfg s
  | .loopRestart who loop => Sys2Proof.Machine.execLoopRestart who loop s
  | .loopSafe who loop => Sys2Proof.Machine.execLoopSafe who loop s
  | .loopOffEnter loop => Sys2Proof.Machine.execLoopOffEnter loop s
  | .loopCfgWrite who loop offset value => Sys2Proof.Machine.execLoopCfgWrite who loop offset value s
  | .trajStartHiWrite who loop value => Sys2Proof.Machine.execTrajStartHiWrite who loop value s
  | .waltzIdxWrite who loop value => Sys2Proof.Machine.execWaltzIdxWrite who loop value s
  | .waltzBaseWrite who loop value => Sys2Proof.Machine.execWaltzBaseWrite who loop value s
  | .shadowStart who engine value => Sys2Proof.Machine.execShadowStart who engine value s
  | .shadowStop who engine value => Sys2Proof.Machine.execShadowStop who engine value s
  | .engineDisable who engine value => Sys2Proof.Machine.execEngineDisable who engine value s
  | .engineEnable who engine value => Sys2Proof.Machine.execEngineEnable who engine value s
  | .handoverGo who value => Sys2Proof.Machine.execHandoverGo who value s
  | .handoverApply => Sys2Proof.Machine.execHandoverApply s
  | .encoderStateChange encoder a b z => Sys2Proof.Machine.execEncoderStateChange encoder a b z s
  | .encoderIndex encoder => Sys2Proof.Machine.execEncoderIndex encoder s
  | .absFrameStart input lineHigh => Sys2Proof.Machine.execAbsFrameStart input lineHigh s
  | .absFrameEnd input code errorBit parityOk => Sys2Proof.Machine.execAbsFrameEnd input code errorBit parityOk s
  | .pwmPeriodStart pair => Sys2Proof.Machine.execPwmPeriodStart pair s
  | .limitRawChange input level => Sys2Proof.Machine.execLimitRawChange input level s
  | .limitDebounceExpiry => Sys2Proof.Machine.execLimitDebounceExpiry s
  | .chatterWindowStart => Sys2Proof.Machine.execChatterWindowStart s
  | .axisCauseClear who axis value => Sys2Proof.Machine.execAxisCauseClear who axis value s
  | .homeGo who value => Sys2Proof.Machine.execHomeGo who value s
  | .homeAbort who value => Sys2Proof.Machine.execHomeAbort who value s
  | .motionIoDisable who value => Sys2Proof.Machine.execMotionIoDisable who value s
  | .motionIoEnable who value => Sys2Proof.Machine.execMotionIoEnable who value s
  | .uartRxFrame uart byte framing parityBad falseStarts => Sys2Proof.Machine.execUartRxFrame uart byte framing parityBad falseStarts s
  | .uartRxPop who uart => Sys2Proof.Machine.execUartRxPop who uart s
  | .uartTxWrite who uart byte => Sys2Proof.Machine.execUartTxWrite who uart byte s
  | .uartTxFrameDone uart => Sys2Proof.Machine.execUartTxFrameDone uart s
  | .ssuGo who problem value => Sys2Proof.Machine.execSsuGo who problem value s
  | .ssuCold who problem value => Sys2Proof.Machine.execSsuCold who problem value s
  | .ssuSolveStart => Sys2Proof.Machine.execSsuSolveStart s
  | .ssuDeadlineExpiry iterations cycles => Sys2Proof.Machine.execSsuDeadlineExpiry iterations cycles s
  | .ssuSolveEnd cycles errorAt => Sys2Proof.Machine.execSsuSolveEnd cycles errorAt s
  | .ssuDisable who value => Sys2Proof.Machine.execSsuDisable who value s
  | .ssuEnable who value => Sys2Proof.Machine.execSsuEnable who value s
  | .cinRun who value => Sys2Proof.Machine.execCinRun who value s
  | .cinStop who value => Sys2Proof.Machine.execCinStop who value s
  | .cinRearm who value => Sys2Proof.Machine.execCinRearm who value s
  | .cinFwFault who value => Sys2Proof.Machine.execCinFwFault who value s
  | .cinStopReq who value => Sys2Proof.Machine.execCinStopReq who value s
  | .cinRunReq who value => Sys2Proof.Machine.execCinRunReq who value s
  | .coreHoldWrite who value => Sys2Proof.Machine.execCoreHoldWrite who value s
  | .restartEdge => Sys2Proof.Machine.execRestartEdge s
  | .cinchRunEntry => Sys2Proof.Machine.execCinchRunEntry s
  | .rearmExpiry => Sys2Proof.Machine.execRearmExpiry s
  | .lockstepMismatch => Sys2Proof.Machine.execLockstepMismatch s
  | .cinEccError => Sys2Proof.Machine.execCinEccError s
  | .wdogKick who key => Sys2Proof.Machine.execWdogKick who key s
  | .wdogExpiry => Sys2Proof.Machine.execWdogExpiry s
  | .beatMonitorCheck advance => Sys2Proof.Machine.execBeatMonitorCheck advance s
  | .vinMainLoss => Sys2Proof.Machine.execVinMainLoss s
  | .outputReadbackMismatch => Sys2Proof.Machine.execOutputReadbackMismatch s
  | .cinClockDeviation => Sys2Proof.Machine.execCinClockDeviation s
  | .cinDemand => Sys2Proof.Machine.execCinDemand s
  | .safeStateCommand => Sys2Proof.Machine.execSafeStateCommand s
  | .pwmKillExpiry => Sys2Proof.Machine.execPwmKillExpiry s
  | .cinVerdictWrite who value => Sys2Proof.Machine.execCinVerdictWrite who value s
  | .sealUnseal who r value => Sys2Proof.Machine.execSealUnseal who r value s
  | .cinFrameStart => Sys2Proof.Machine.execCinFrameStart s
  | .frameDeadlineCheck => Sys2Proof.Machine.execFrameDeadlineCheck s
  | .gridClose => Sys2Proof.Machine.execGridClose s
  | .shzIdle port f => Sys2Proof.Machine.execShzIdle port f s
  | .shzWrite port f => Sys2Proof.Machine.execShzWrite port f s
  | .shzRead port f => Sys2Proof.Machine.execShzRead port f s
  | .shzRdata port f => Sys2Proof.Machine.execShzRdata port f s
  | .shzBkl port f => Sys2Proof.Machine.execShzBkl port f s
  | .shzE2eAck port f => Sys2Proof.Machine.execShzE2eAck port f s
  | .shzLinkReady port f => Sys2Proof.Machine.execShzLinkReady port f s
  | .shzLinkGo port f => Sys2Proof.Machine.execShzLinkGo port f s
  | .shzLinkAbort port f => Sys2Proof.Machine.execShzLinkAbort port f s
  | .shzLinkAborted port f => Sys2Proof.Machine.execShzLinkAborted port f s
  | .shzTime port f arrived reply => Sys2Proof.Machine.execShzTime port f arrived reply s
  | .shzEnumWalk port f walk back => Sys2Proof.Machine.execShzEnumWalk port f walk back s
  | .shzEnumAssign port f a => Sys2Proof.Machine.execShzEnumAssign port f a s
  | .shzBeacon port f down => Sys2Proof.Machine.execShzBeacon port f down s
  | .shzLeave port f => Sys2Proof.Machine.execShzLeave port f s
  | .shzErr port f => Sys2Proof.Machine.execShzErr port f s
  | .shzReplayTimeout port => Sys2Proof.Machine.execShzReplayTimeout port s
  | .shzPortUp port width samePort => Sys2Proof.Machine.execShzPortUp port width samePort s
  | .shzPortDown port lostLock => Sys2Proof.Machine.execShzPortDown port lostLock s
  | .shzPortRetrain port => Sys2Proof.Machine.execShzPortRetrain port s
  | .shzE2eAckTimer node => Sys2Proof.Machine.execShzE2eAckTimer node s
  | .shzBeaconSend => Sys2Proof.Machine.execShzBeaconSend s
  | .shzIsolateExpiry => Sys2Proof.Machine.execShzIsolateExpiry s
  | .shzTimeExchange port sent => Sys2Proof.Machine.execShzTimeExchange port sent s
  | .shzLinkLeadExpiry slot => Sys2Proof.Machine.execShzLinkLeadExpiry slot s
  | .shzReadTimeout tag => Sys2Proof.Machine.execShzReadTimeout tag s
  | .shzEnum who value => Sys2Proof.Machine.execShzEnum who value s
  | .shzCtrlLeave who value => Sys2Proof.Machine.execShzCtrlLeave who value s
  | .shzDisable who value => Sys2Proof.Machine.execShzDisable who value s
  | .shzLeavePortsDown => Sys2Proof.Machine.execShzLeavePortsDown s
  | .powerOnReset => Sys2Proof.Machine.execPowerOnReset s
  | .resetNAssert => Sys2Proof.Machine.execResetNAssert s
  | .powerFault rail resetNLow => Sys2Proof.Machine.execPowerFault rail resetNLow s
  | .refLoss => Sys2Proof.Machine.execRefLoss s
  | .sysResetMain who key => Sys2Proof.Machine.execSysResetMain who key s
  | .mainResetEnd fuseError => Sys2Proof.Machine.execMainResetEnd fuseError s
  | .stewardBoot primaryError backupError => Sys2Proof.Machine.execStewardBoot primaryError backupError s
  | .stwLoad who cls index => Sys2Proof.Machine.execStwLoad who cls index s
  | .stwActivate who cls index => Sys2Proof.Machine.execStwActivate who cls index s
  | .stwSetBoot who cls => Sys2Proof.Machine.execStwSetBoot who cls s
  | .stwFlashErase who deviceError => Sys2Proof.Machine.execStwFlashErase who deviceError s
  | .stwFlashWrite who deviceError => Sys2Proof.Machine.execStwFlashWrite who deviceError s
  | .stwFlashVerify who deviceError => Sys2Proof.Machine.execStwFlashVerify who deviceError s
  | .stwSelftest who cls index => Sys2Proof.Machine.execStwSelftest who cls index s
  | .stwFuse who => Sys2Proof.Machine.execStwFuse who s
  | .stwCommandDone deviceError => Sys2Proof.Machine.execStwCommandDone deviceError s
  | .rfxYieldWrite who value => Sys2Proof.Machine.execRfxYieldWrite who value s
  | .activateTimeout => Sys2Proof.Machine.execActivateTimeout s
  | .fuseUnlockWrite who key => Sys2Proof.Machine.execFuseUnlockWrite who key s
  | .powerCapSelect who cap => Sys2Proof.Machine.execPowerCapSelect who cap s
  | .powerExcursion => Sys2Proof.Machine.execPowerExcursion s
  | .tempSensorUpdate readings => Sys2Proof.Machine.execTempSensorUpdate readings s
  | .thermalThrottleStep => Sys2Proof.Machine.execThermalThrottleStep s
  | .thermalTrip => Sys2Proof.Machine.execThermalTrip s
  | .debugHaltRequest scans hart atReset => Sys2Proof.Machine.execDebugHaltRequest scans hart atReset s
  | .debugResumeRequest scans hart => Sys2Proof.Machine.execDebugResumeRequest scans hart s
  | .debugAccessRegister scans hart reg write => Sys2Proof.Machine.execDebugAccessRegister scans hart reg write s
  | .debugProgbufExec scans hart accesses => Sys2Proof.Machine.execDebugProgbufExec scans hart accesses s
  | .debugNdmreset scans => Sys2Proof.Machine.execDebugNdmreset scans s
  | .tlgAuthWrite who value => Sys2Proof.Machine.execTlgAuthWrite who value s
  | .engineHaltWrite who value => Sys2Proof.Machine.execEngineHaltWrite who value s
  | .obpFiredClear who k => Sys2Proof.Machine.execObpFiredClear who k s
  | .tlgCntSelWrite who c value => Sys2Proof.Machine.execTlgCntSelWrite who c value s
  | .tlgCntClr who => Sys2Proof.Machine.execTlgCntClr who s
  | .tlgSample => Sys2Proof.Machine.execTlgSample s
  | .pcieInboundWrite port addr data found => Sys2Proof.Machine.execPcieInboundWrite port addr data found s
  | .pcieInboundRead port addr size found => Sys2Proof.Machine.execPcieInboundRead port addr size found s
  | .pcieMsiWrite port value => Sys2Proof.Machine.execPcieMsiWrite port value s
  | .pcieLinkDown port posted => Sys2Proof.Machine.execPcieLinkDown port posted s
  | .pcieLinkUp port speed width => Sys2Proof.Machine.execPcieLinkUp port speed width s
  | .pcieCompletion port tag status data => Sys2Proof.Machine.execPcieCompletion port tag status data s
  | .pcieCompletionTimeout port tag => Sys2Proof.Machine.execPcieCompletionTimeout port tag s
  | .pcieErrorMessage port severity => Sys2Proof.Machine.execPcieErrorMessage port severity s
  | .pcieRetrain who port value => Sys2Proof.Machine.execPcieRetrain who port value s
  | .pciePerstWrite who port value => Sys2Proof.Machine.execPciePerstWrite who port value s
  | .ethFrameReceive port frame fcsOk sec ns => Sys2Proof.Machine.execEthFrameReceive port frame fcsOk sec ns s
  | .ethQueueTailWrite who port transmit queue value => Sys2Proof.Machine.execEthQueueTailWrite who port transmit queue value s
  | .ethTxFrameDone port queue sec ns discarded => Sys2Proof.Machine.execEthTxFrameDone port queue sec ns discarded s
  | .gclGo who port value => Sys2Proof.Machine.execGclGo who port value s
  | .gclSwap port => Sys2Proof.Machine.execGclSwap port s
  | .gateTransition port => Sys2Proof.Machine.execGateTransition port s
  | .csiNoClock port => Sys2Proof.Machine.execCsiNoClock port s
  | .canFrameReceive port frame time => Sys2Proof.Machine.execCanFrameReceive port frame time s
  | .canFrameTransmit port requests acked => Sys2Proof.Machine.execCanFrameTransmit port requests acked s
  | .spiGo who master value => Sys2Proof.Machine.execSpiGo who master value s
  | .spiTransferDone master received => Sys2Proof.Machine.execSpiTransferDone master received s
  | .i2cTransfer controller result data => Sys2Proof.Machine.execI2cTransfer controller result data s
  | .i2cRecover who controller => Sys2Proof.Machine.execI2cRecover who controller s
  | .beat upsets lat tng => Sys2Proof.Machine.execBeat upsets lat tng s
  | .railBackInTolerance rail => Sys2Proof.Machine.execRailBackInTolerance rail s
  | .cinDemandRelease => Sys2Proof.Machine.execCinDemandRelease s
  | .cinRunWindowExpiry => Sys2Proof.Machine.execCinRunWindowExpiry s
  | .ethLinkChange port up => Sys2Proof.Machine.execEthLinkChange port up s
  | .shzBadCrcFlit port bytes => Sys2Proof.Machine.execShzBadCrcFlit port bytes s

end Sys2Proof.Machine
end

