-- ==== Sys2Proof/Safety.lean ====
section
/-!
DEFINITION. Safety.lean: what a well-kept state is, what a step must never do, and the terms in which the statements say
what a command changes and what it leaves alone.
-/

namespace Sys2Proof.Machine

/-- The register file is in canonical form: addresses rise, and none is listed with its reset value. -/
def State.RegsOk (s : State) : Prop := SpWf resetOf s.regs

/-- The memory is in canonical form. -/
def State.MemOk (s : State) : Prop := Memory.wf s.lost s.mem

/-- No transaction holds more than 256 entries, and it sealed ranges 0 to 15 only (R113, R537). -/
def State.TxnsFit (s : State) : Prop := ∀ n, (s.txn n).entries.length ≤ 256 ∧ ∀ r ∈ (s.txn n).seals, r < 16

/-- A step neither faults nor refuses: the block goes on after every command. -/
def State.Runs (s : State) : Prop := ∃ t, step s = .next t

/-- The counters TLG_CNTc, which count any event that software selects (R633). -/
def isEventCounter (a : Nat) : Prop := 0x10702000 ≤ a ∧ a < 0x10703000

/-- Every byte of memory reads as before. -/
def State.SameMemory (s t : State) : Prop := ∀ a, t.readByte a = s.readByte a

/-- Every register but those that `p` names, and but the event counters, reads as before. -/
def State.SameRegsBut (s t : State) (p : Nat → Prop) : Prop := ∀ a, ¬ p a → ¬ isEventCounter a → t.rget a = s.rget a

/-- A direct write of `v` to the register at `a` by `who` reaches it whole: the address can be reached (R681) and has a
register (R7), the rules of its block admit the writer, it is no vouched destination of an untrusted writer (R20, R536), and in this beat no
transaction wrote it (R122) and no event changed it (R388). -/
structure State.Takes (s : State) (who : Initiator) (a : Nat) (v : Word) : Prop where
  reach : s.reachable a = true
  named : (regRow a).isNone = false
  permit : s.regPermits who a v = true
  free : isTrusted who = true ∨ s.vouched a = false
  fresh : s.committed.contains a = false
  still : spGet (fun _ => (0 : Word)) s.touched a = 0

/-- Only registers and the response differ between `s` and `t`. -/
def State.OnlyRegs (s t : State) : Prop := t = { s with regs := t.regs, resp := t.resp }

/-- The fields of a register lie apart, inside its 32 bits. -/
def RegRow.FieldsApart (r : RegRow) : Prop :=
  (∀ f ∈ r.flds, f.lo ≤ f.hi ∧ f.hi < 32) ∧ r.flds.Pairwise fun f g => f.hi < g.lo ∨ g.hi < f.lo

/-- The register at `a` has no rule beside the types of its fields. -/
def PlainRegister (who : Initiator) (a : Nat) : Prop :=
  ∀ (s : State) (v : Word), s.blockWrite who a v = s.putTyped a v 0

/-- No error code fails on the `n` bytes at `a`, and no committed entry still waits to be written: what is stored there
is what is read (R65, R67, R118). -/
def State.Clean (s : State) (a n : Nat) : Prop :=
  s.memPending = [] ∧ ∀ w ∈ dwordsOf a n, s.suspect w = false

/-- Does the access stay outside register space and the two windows. -/
def inMemory (a : Nat) : Prop :=
  regionOf a ≠ .registers ∧ regionOf a ≠ .pcieWindow ∧ regionOf a ≠ .shauzWindow

/-- The register write that a row of the table stands for: who writes, where, and what. STREAM_RESET writes back the
other fields of its register. The rows of the first family, which name their access themselves, are not among them. -/
def State.writeOf (s : State) : Instr → Option (Initiator × Nat × Word)
  | .pocketCommitGo who => some (who, Reg.canPocketCommit, 1)
  | .iomSwapRootHiWrite who n value _ _ => if n < 8 then some (who, Reg.iomSwapRootHi n, value) else none
  | .stallCounterClear who bank => some (who, stallBase bank + 0x60, 1)
  | .buckleSet who b value _ => if b < 16384 then some (who, Reg.bkl b, value) else none
  | .buckleAdd who b amount _ => if b < 16384 then some (who, Reg.bklAdd (b / 4096) (b % 4096), amount) else none
  | .waitArm who block slot buckle equal =>
    if block < 4 ∧ slot < 64 then some (who, Reg.bklWaitCfg block slot, waitCfgWord buckle true equal) else none
  | .waitDisarm who block slot buckle equal =>
    if block < 4 ∧ slot < 64 then some (who, Reg.bklWaitCfg block slot, waitCfgWord buckle false equal) else none
  | .waitTargetWrite who block slot value =>
    if block < 4 ∧ slot < 64 then some (who, Reg.bklWaitTarget block slot, value) else none
  | .txnOpen who n => if n < 64 then some (who, Reg.txnCtrl n, 1) else none
  | .txnArm who n timestamp _ => if n < 64 then some (who, Reg.txnCtrl n, toWord (2 + 16 * b2n timestamp)) else none
  | .txnAbort who n => if n < 64 then some (who, Reg.txnCtrl n, 3) else none
  | .txnRelease who n => if n < 64 then some (who, Reg.txnCtrl n, 4) else none
  | .txnStagePush who n => if n < 64 then some (who, Reg.txnStagePush n, 1) else none
  | .txnSnapGo who slots => some (who, Reg.txnSnapGo, toWord (slots % 256))
  | .hideDisable who => some (who, Reg.hidCtrl, 0)
  | .hideEnable who => some (who, Reg.hidCtrl, 1)
  | .hidCycClear who => some (who, Reg.hidCycClr, 1)
  | .latWinCfgWrite who n base value =>
    if n < 2 then some (who, if base then Reg.latWinBase n else Reg.latWinCfg n, value) else none
  | .latWinRateWrite who n value => if n < 2 then some (who, Reg.latWinRate n, value) else none
  | .latigoDisable who => some (who, Reg.latCtrl, 0)
  | .latigoEnable who => some (who, Reg.latCtrl, 1)
  | .ringTailWrite who ring value => if ring < 2 then some (who, Reg.calRingTail ring, value) else none
  | .ringHeadWrite who ring value => if ring < 2 then some (who, Reg.calRingHead ring, value) else none
  | .ringCfgWrite who ring value => if ring < 2 then some (who, Reg.calRingCfg ring, value) else none
  | .ringEnable who ring => if ring < 2 then some (who, Reg.calRingCtrl ring, 1) else none
  | .ringDisable who ring => if ring < 2 then some (who, Reg.calRingCtrl ring, 0) else none
  | .ringResume who ring => if ring < 2 then some (who, Reg.calRingCtrl ring, 3) else none
  | .ringStop who ring => if ring < 2 then some (who, Reg.calRingCtrl ring, 5) else none
  | .tangoDisable who => some (who, Reg.tngCtrl, 0)
  | .tangoEnable who => some (who, Reg.tngCtrl, 1)
  | .visionDisable who => some (who, Reg.visCtrl, 0)
  | .visionEnable who => some (who, Reg.visCtrl, 1)
  | .streamCfgWrite who i addr value =>
    if i < 256 then some (who, if addr then Reg.relStrAddr i else Reg.relStrCfg i, value) else none
  | .streamReset who i =>
    if i < 256 then some (who, Reg.relStrCfg i, toWord (s.fget (Reg.relStrCfg i) 17 0 + 2 ^ 18)) else none
  | .reelDisable who => some (who, Reg.relCtrl, 0)
  | .reelEnable who => some (who, Reg.relCtrl, 1)
  | .timeRateWrite who value => some (who, Reg.tmbRateHi, value)
  | .timeStepSet who => some (who, Reg.tmbStepGo, 0)
  | .timeStepAdd who => some (who, Reg.tmbStepGo, 1)
  | .timeStepSubtract who => some (who, Reg.tmbStepGo, 2)
  | .triggerArmSingle who n cfg => if n < 16 then some (who, Reg.tmbTrgCfg n, trgWord cfg 1) else none
  | .triggerArmPeriodic who n cfg => if n < 16 then some (who, Reg.tmbTrgCfg n, trgWord cfg 2) else none
  | .triggerArmSet who n cfg => if n < 16 then some (who, Reg.tmbTrgCfg n, trgWord cfg 3) else none
  | .triggerArmClear who n cfg => if n < 16 then some (who, Reg.tmbTrgCfg n, trgWord cfg 4) else none
  | .triggerDisarm who n cfg => if n < 16 then some (who, Reg.tmbTrgCfg n, trgWord cfg 0) else none
  | .triggerTargetWrite who n value => if n < 16 then some (who, Reg.tmbTrgTgtSecHi n, value) else none
  | .capturePop who n => if n < 16 then some (who, Reg.tmbCapPop n, 1) else none
  | .ingReleaseWrite who n value => if n < 40 then some (who, Reg.ingStrRelease n, value) else none
  | .streamEnable who n cfg => if n < 40 then some (who, Reg.ingStrCfg n, Machine.withField cfg 0 0 1) else none
  | .streamDisable who n cfg => if n < 40 then some (who, Reg.ingStrCfg n, Machine.withField cfg 0 0 0) else none
  | .ingressDisable who => some (who, Reg.ingCtrl, 0)
  | .qdrRingTailWrite who value => some (who, Reg.qdrRingTail, value)
  | .qdrResume who value => some (who, Reg.qdrCtrl, value ||| 2)
  | .qdrTrackClear who value => some (who, Reg.qdrCtrl, value ||| 4)
  | .qdrDisable who value => some (who, Reg.qdrCtrl, value &&& ~~~ 1)
  | .qdrEnable who value => some (who, Reg.qdrCtrl, value ||| 1)
  | .qdrPubReleaseWrite who value => some (who, Reg.qdrPubRelease, value)
  | .qdrConfigWrite who offset value =>
    if offset = 0x48 ∨ offset = 0x54 ∨ offset = 0x58 then some (who, 0x10120000 + offset, value) else none
  | .loopEnable who loop cfg => if loop < 128 then some (who, Reg.loopReg loop 0, cfg ||| 1) else none
  | .loopDisable who loop cfg => if loop < 128 then some (who, Reg.loopReg loop 0, cfg &&& ~~~ 1) else none
  | .loopRestart who loop => if loop < 128 then some (who, Reg.loopReg loop 0x80, 1) else none
  | .loopSafe who loop => if loop < 128 then some (who, Reg.loopReg loop 0x80, 2) else none
  | .loopCfgWrite who loop offset value =>
    if loop < 128 ∧ structuralRegs.contains offset = true then some (who, Reg.loopReg loop offset, value) else none
  | .trajStartHiWrite who loop value => if loop < 128 then some (who, Reg.loopReg loop 0x7C, value) else none
  | .waltzIdxWrite who loop value => if loop < 128 then some (who, Reg.loopReg loop 0x6C, value) else none
  | .waltzBaseWrite who loop value => if loop < 128 then some (who, Reg.loopReg loop 0x68, value) else none
  | .shadowStart who engine value => if engine < 5 then some (who, Reg.stpEngCtrl engine, value ||| 2) else none
  | .shadowStop who engine value => if engine < 5 then some (who, Reg.stpEngCtrl engine, value ||| 4) else none
  | .engineDisable who engine value => if engine < 5 then some (who, Reg.stpEngCtrl engine, value &&& ~~~ 1) else none
  | .engineEnable who engine value => if engine < 5 then some (who, Reg.stpEngCtrl engine, value ||| 1) else none
  | .handoverGo who value => some (who, Reg.stpHandover, value ||| 0x80000000)
  | .axisCauseClear who axis value => if axis < 32 then some (who, Reg.mioAxStatus axis, value) else none
  | .homeGo who value => some (who, Reg.mioHomeCtrl, value ||| 1)
  | .homeAbort who value => some (who, Reg.mioHomeCtrl, value ||| 2)
  | .motionIoDisable who value => some (who, Reg.mioCtrl, value &&& ~~~ 1)
  | .motionIoEnable who value => some (who, Reg.mioCtrl, value ||| 1)
  | .uartRxPop who uart => if uart < 4 then some (who, Reg.mioUartPop uart, 1) else none
  | .uartTxWrite who uart byte => if uart < 4 then some (who, Reg.mioUartTx uart, toWord byte.toNat) else none
  | .ssuGo who problem value => if problem < 8 then some (who, Reg.ssuPCtrl problem, value ||| 1) else none
  | .ssuCold who problem value => if problem < 8 then some (who, Reg.ssuPCtrl problem, value ||| 2) else none
  | .ssuDisable who value => some (who, Reg.ssuCtrl, value &&& ~~~ 1)
  | .ssuEnable who value => some (who, Reg.ssuCtrl, value ||| 1)
  | .cinRun who value => some (who, Reg.cinCtrl, value ||| maskOf 0 0)
  | .cinStop who value => some (who, Reg.cinCtrl, value ||| maskOf 1 1)
  | .cinRearm who value => some (who, Reg.cinCtrl, value ||| maskOf 2 2)
  | .cinFwFault who value => some (who, Reg.cinCtrl, value ||| maskOf 3 3)
  | .cinStopReq who value => some (who, Reg.cinReq, value ||| 1)
  | .cinRunReq who value => some (who, Reg.cinReq, value ||| 2)
  | .coreHoldWrite who value => some (who, Reg.cinReq, value)
  | .wdogKick who key => some (who, Reg.cinWdogKick, key)
  | .cinVerdictWrite who value => some (who, Reg.cinVerdict, value)
  | .sealUnseal who r value => if r < 16 then some (who, Reg.cinSealCtrl r, value ||| 4) else none
  | .shzEnum who value => some (who, Reg.shzCtrl, value ||| 2)
  | .shzCtrlLeave who value => some (who, Reg.shzCtrl, value ||| 4)
  | .shzDisable who value => some (who, Reg.shzCtrl, value &&& ~~~ 1)
  | .sysResetMain who key => some (who, Reg.sysReset, toWord (1 + 65536 * key))
  | .stwLoad who cls index => some (who, Reg.stwCmd, toWord (1 + 256 * (cls % 16) + 4096 * (index % 16)))
  | .stwActivate who cls index => some (who, Reg.stwCmd, toWord (2 + 256 * (cls % 16) + 4096 * (index % 16)))
  | .stwSetBoot who cls => some (who, Reg.stwCmd, toWord (3 + 256 * (cls % 16) + 4096 * (0 % 16)))
  | .stwFlashErase who _ => some (who, Reg.stwCmd, toWord (4 + 256 * (0 % 16) + 4096 * (0 % 16)))
  | .stwFlashWrite who _ => some (who, Reg.stwCmd, toWord (5 + 256 * (0 % 16) + 4096 * (0 % 16)))
  | .stwFlashVerify who _ => some (who, Reg.stwCmd, toWord (6 + 256 * (0 % 16) + 4096 * (0 % 16)))
  | .stwSelftest who cls index => some (who, Reg.stwCmd, toWord (7 + 256 * (cls % 16) + 4096 * (index % 16)))
  | .stwFuse who => some (who, Reg.stwCmd, toWord (8 + 256 * (0 % 16) + 4096 * (0 % 16)))
  | .rfxYieldWrite who value => some (who, Reg.stwRfxYield, value)
  | .fuseUnlockWrite who key => some (who, Reg.cfgFuseUnlock, key)
  | .powerCapSelect who cap => some (who, Reg.stwPower, toWord (cap % 8))
  | .tlgAuthWrite who value => some (who, Reg.tlgAuth, value)
  | .engineHaltWrite who value => some (who, Reg.tlgEngCtrl, value)
  | .obpFiredClear who k => if k < 4 then some (who, Reg.tlgObpStatus k, 1) else none
  | .tlgCntSelWrite who c value => if c < 512 then some (who, Reg.tlgCntSel c, value) else none
  | .tlgCntClr who => some (who, Reg.tlgCntClr, 1)
  | .pcieRetrain who port value => if port < 2 then some (who, Reg.pciPCtrl port, value ||| 2) else none
  | .pciePerstWrite who port value => if port < 2 then some (who, Reg.pciPCtrl port, value) else none
  | .ethQueueTailWrite who port transmit queue value =>
    if port < 4 ∧ queue < 8 then some (who, (queueRegs transmit port queue).tail, value) else none
  | .gclGo who port value => if port < 4 then some (who, Reg.ethGclCtrl port, value ||| 1) else none
  | .spiGo who master value => if master < 6 then some (who, Reg.ethSpiGo master, value) else none
  | .i2cRecover who controller => if controller < 4 then some (who, Reg.ethI2c controller 0, 0) else none
  | _ => none

end Sys2Proof.Machine
end

