-- ==== Sys2Proof/Certificates/Slice0/Obligations.lean ====
section
/-!
DEFINITION. Certificates/Slice0/Obligations.lean: the statements for the provers. `exec c s = .next t` says that command
`c` completes at `s`; what `t` holds and what it leaves alone follows it. `State.Takes` (Safety.lean) says when a register
write reaches its register, `State.OnlyRegs`, `State.SameRegsBut` and `State.SameMemory` are the frames.
-/

open Sys2Proof Sys2Proof.Machine

/-! ### Steps, registers and memory -/

/-- A step carries out the command at the front of the queue on the state with the queue's rest; with no command the
block idles (the queue is the model's, log entry 1). -/
def Obligations.StepRunsTheFrontCommand : Prop :=
  (∀ (c : Instr) (cs : List Instr) (s : State), step { s with pending := c :: cs } = exec c { s with pending := cs }) ∧
    ∀ s : State, s.pending = [] → step s = .next s

/-- Every register write of the table that does not reach its register: an address that cannot be reached (R681), a
writer that the block does not admit, a vouched destination of an untrusted writer, which counts as a bypass attempt
(R20, R536), and a register that a transaction wrote in this beat, REGISTER_WRITE too (R122). In every case only the
response and the bypass count change. A REGISTER_WRITE to an offset of a block that has no register changes nothing but the
response (R7). -/
def Obligations.RefusedRegisterWritesHaveNoEffect : Prop :=
  (∀ (c : Instr) (s : State) (who : Initiator) (a : Nat) (v : Word), s.writeOf c = some (who, a, v) →
    (s.reachable a = false → exec c s = .next (s.respond .accessFault)) ∧
    (s.reachable a = true → (regRow a).isNone = false → s.regPermits who a v = false →
      exec c s = .next (s.respond .accessFault)) ∧
    (s.reachable a = true → (regRow a).isNone = false → s.regPermits who a v = true → isTrusted who = false →
      s.vouched a = true →
      ∃ t, exec c s = .next t ∧ t.resp = .accessFault ∧
        t.rget Reg.cinBypassCount = s.rget Reg.cinBypassCount + 1 ∧ t.bit Reg.cinStatus 6 = true ∧
        State.OnlyRegs s t ∧ State.SameRegsBut s t fun b => b = Reg.cinBypassCount ∨ b = Reg.cinStatus) ∧
    (s.reachable a = true → s.regPermits who a v = true → (isTrusted who = true ∨ s.vouched a = false) →
      s.committed.contains a = true → exec c s = .next (s.respond .done))) ∧
  ∀ (s : State) (who : Initiator) (a : Nat) (v hw : Word), inBlock a = true → a % 4 = 0 → s.reachable a = true →
    (s.regPermits who a v = true → (isTrusted who = true ∨ s.vouched a = false) → s.committed.contains a = true →
      ∃ t, exec (.registerWrite who a v 0) s = .next t ∧ t.resp = .done ∧ State.OnlyRegs s t ∧ ∀ b, t.rget b = s.rget b) ∧
    (regRow a = none → exec (.registerWrite who a v hw) s = .next (s.respond .done))

/-- REGISTER_WRITE of a register without a rule of its own: each field follows its access type (R10), and a W1C bit that
hardware sets in the cycle of the write stands (R11). No byte of memory and no other register changes, but that SAFE_SET
of a loop, set by hardware, shows in STP_SAFE_PEND (R471). -/
def Claims.RegisterWriteFollowsFieldTypes : Prop :=
  ∀ (s : State) (who : Initiator) (a : Nat) (v hw : Word) (r : RegRow),
    inBlock a = true → a % 4 = 0 → s.Takes who a v → regRow a = some r → r.FieldsApart → PlainRegister who a →
    ∃ t, exec (.registerWrite who a v hw) s = .next t ∧ t.resp = .done ∧
      (∀ f ∈ r.flds, ∀ i, f.lo ≤ i → i ≤ f.hi →
        bitOf (t.rget a) i =
          match f.acc with
          | .rw => bitOf v i
          | .w1c => (bitOf (s.rget a) i && !bitOf v i) || bitOf hw i
          | .w1s => bitOf (s.rget a) i || bitOf v i
          | _ => bitOf (s.rget a) i) ∧
      State.OnlyRegs s t ∧
      ∀ b, b ≠ a → (∀ l, l < 128 → a = Reg.loopReg l 0x84 → b ≠ Reg.stpSafePend (l / 32)) → t.rget b = s.rget b

/-- RC_REGISTER_READ: the read answers the value before it; each RC field starts again at the events of its own cycle,
every other field keeps its value (R10, R12). No other register and no byte of memory changes. -/
def Claims.ReadClearsRcFields : Prop :=
  ∀ (s : State) (who : Initiator) (a events : Nat) (r : RegRow),
    inBlock a = true → a % 4 = 0 → s.reachable a = true → regRow a = some r → r.FieldsApart →
    ∃ t, exec (.rcRegisterRead who a events) s = .next t ∧ t.resp = .data (s.regView a).toNat ∧
      (∀ f ∈ r.flds, fieldOf (t.rget a) f.hi f.lo =
        if f.acc = .rc then min events (2 ^ (f.hi + 1 - f.lo) - 1) else fieldOf (s.rget a) f.hi f.lo) ∧
      State.OnlyRegs s t ∧ ∀ b, b ≠ a → t.rget b = s.rget b

/-- PROCESSOR_STORE and PROCESSOR_LOAD of memory that the processor may reach. A store is answered, and from then on the
processor sees its bytes, little-endian, whether they wait in its buffer, stand in the caches or have reached memory (R3,
R45, R49, R65, R107, R699); a load answers what the processor sees (R67). With no store waiting, every other byte is seen as
before; an access that the cluster does not cache changes no byte of memory beside those it stores. -/
def Claims.ProcessorAccessesMemory : Prop :=
  ∀ (s : State) (who : Initiator) (a size v : Nat),
    isProcessor who = true → sizeOk size = true → alignedFor who a size = true → inMemory a → s.Clean a size →
    (s.longDenied who a size = none →
      ∃ t, exec (.processorStore who .data a size v []) s = .next t ∧ t.resp = .done ∧
        t.seenBytes who a size = natToBytes size v ∧
        (s.buffers = [] → t.regs = s.regs ∧
          (∀ b, ¬ (a ≤ b ∧ b < a + size) → t.seenByte who b = s.seenByte who b) ∧
          (cachedFor who a = false → ∀ b, ¬ (a ≤ b ∧ b < a + size) → t.readByte b = s.readByte b) ∧
          (t.buffers = [] → cachedFor who a = false → t.readBytes a size = natToBytes size v))) ∧
    (s.readable a = true → s.readable (a + (size - 1)) = true →
      ∃ t, exec (.processorLoad who a size []) s = .next t ∧ t.resp = .data (t.seenNat who a size) ∧
        (s.buffers = [] → t.regs = s.regs ∧ State.SameMemory s t) ∧
        (s.buffers = [] → cachedFor who a = false → t = s.respond (.data (s.readNat a size))))

/-- The cache-block management instructions on a line of Tier B by an application core (R51): with no store waiting and no
SEALED range in the way, a clean (of the line of 64 bytes: log entry 27) leaves in memory what the cluster wrote to the line; an invalidation drops the cluster's
copies and changes no byte of memory; a flush does both. Another processor holds no such copies. -/
def Claims.CacheBlocksAreManaged : Prop :=
  ∀ (s : State) (who : Initiator) (a size v : Nat), isProcessor who = true → s.buffers = [] →
    (cachedFor who a = false → ∀ op, op ≠ .data → exec (.processorStore who op a size v []) s = .next (s.respond .done)) ∧
    (cachedFor who a = true →
      (∃ t, exec (.processorStore who .inval a size v []) s = .next t ∧ t.resp = .done ∧
        (∀ w ∈ lineWords a, t.cachedWord w = none) ∧ t.regs = s.regs ∧ State.SameMemory s t) ∧
      (s.memPending = [] → (∀ w ∈ lineWords a, ∀ core, s.writeDenied (.app core) w 8 = none) →
        (∀ w ∈ lineWords a, ∀ c, s.cachedWord w = some c → c.bytes.length = 8) →
        (∃ t, exec (.processorStore who .clean a size v []) s = .next t ∧ t.resp = .done ∧ t.regs = s.regs ∧
          (∀ w ∈ lineWords a, ∀ i, i < 8 → t.readByte (w + i) =
            if (s.cachedWord w).any (·.dirty.isSome) then s.clusterByte (w + i) else s.readByte (w + i)) ∧
          ∀ b, lineOf b ≠ lineOf a → t.readByte b = s.readByte b) ∧
        (∃ t, exec (.processorStore who .flush a size v []) s = .next t ∧ t.resp = .done ∧ t.regs = s.regs ∧
          (∀ w ∈ lineWords a, t.cachedWord w = none ∧ ∀ i, i < 8 → t.readByte (w + i) =
            if (s.cachedWord w).any (·.dirty.isSome) then s.clusterByte (w + i) else s.readByte (w + i)) ∧
          ∀ b, lineOf b ≠ lineOf a → t.readByte b = s.readByte b)))

/-- A word of Tier A or Tier B that holds an uncorrectable error and of which no copy is cached: a load that touches it
faults, and a store that does not cover it whole faults and writes nothing (R65, R67). -/
def Claims.UncorrectableWordsAreNotDelivered : Prop :=
  ∀ (s : State) (who : Initiator) (a size v w : Nat),
    isProcessor who = true → sizeOk size = true → alignedFor who a size = true → inMemory a → s.buffers = [] →
    s.memPending = [] → w ∈ dwordsOf a size → s.bad.contains w = true → (regionOf w = .tierA ∨ regionOf w = .tierB) →
    s.cachedWord w = none →
    (s.readable a = true → s.readable (a + (size - 1)) = true →
      ∃ t, exec (.processorLoad who a size []) s = .next t ∧ t.resp = .accessFault ∧ State.SameMemory s t) ∧
    (s.longDenied who a size = none → ¬ (a ≤ w ∧ w + 8 ≤ a + size) →
      ∃ t, exec (.processorStore who .data a size v []) s = .next t ∧ t.resp = .accessFault ∧ State.SameMemory s t)

/-- LR_SC_AMO anywhere but in Tier B faults (R50). -/
def Obligations.AtomicsNeedTierB : Prop :=
  ∀ (s : State) (who : Initiator) (op : AtomicOp) (a size v : Nat) (found : List ErrFinding), regionOf a ≠ .tierB →
    exec (.lrScAmo who op a size v found) s = .next (s.respond .accessFault)

/-- LR_SC_AMO in Tier B. LR answers the value and holds a reservation; SC without one stores nothing; SC with one stores
and gives it up; an AMO answers the old value and stores its result. No register changes (R50; the reservation's
line of 64 bytes and the response values are the model's, log entry 27). FENCE_INSTRUCTION with W in PRED leaves no store of
its processor waiting (R105, R107), and with no store waiting changes nothing but the response. -/
def Obligations.AtomicsAndFencesOnTierB : Prop :=
  (∀ (s : State) (who : Initiator) (pred succ : Nat),
    ∃ t, exec (.fenceInstruction who pred succ) s = .next t ∧ t.resp = .done ∧
      (pred % 2 = 1 → succ % 16 ≠ 0 → ∀ e ∈ t.buffers, e.who ≠ who) ∧
      (pred % 2 = 0 ∨ succ % 16 = 0 ∨ s.buffers = [] → t = s.respond .done)) ∧
  ∀ (s : State) (who : Initiator) (a size v : Nat),
    isProcessor who = true → regionOf a = .tierB → (size = 4 ∨ size = 8) → a % size = 0 → s.Clean a size →
    s.readable a = true → s.readable (a + (size - 1)) = true → s.longDenied who a size = none → s.buffers = [] →
    (∃ t, exec (.lrScAmo who .lr a size v []) s = .next t ∧ t.resp = .data (t.seenNat who a size) ∧
      (s.cache = [] → t.resp = .data (s.readNat a size)) ∧
      t.holds who a = true ∧ t.regs = s.regs ∧ State.SameMemory s t) ∧
    (s.holds who a = false → ∃ t, exec (.lrScAmo who .sc a size v []) s = .next t ∧ t.resp = .data 1 ∧
      t.regs = s.regs ∧ State.SameMemory s t) ∧
    (s.holds who a = true → ∃ t, exec (.lrScAmo who .sc a size v []) s = .next t ∧ t.resp = .data 0 ∧
      t.holds who a = false ∧ t.seenBytes who a size = natToBytes size v ∧ t.regs = s.regs ∧
      (∀ b, ¬ (a ≤ b ∧ b < a + size) → t.seenByte who b = s.seenByte who b) ∧
      ∀ b, b / 8 ≠ a / 8 → t.readByte b = s.readByte b) ∧
    (∀ op, op ≠ .lr → op ≠ .sc → ∃ t old, exec (.lrScAmo who op a size v []) s = .next t ∧ t.resp = .data old ∧
      (s.cache = [] → old = s.readNat a size) ∧
      t.seenBytes who a size = natToBytes size (atomicResult op (8 * size) old v) ∧ t.regs = s.regs ∧
      (s.cache = [] → ∀ b, ¬ (a ≤ b ∧ b < a + size) → t.seenByte who b = s.readByte b) ∧
      ∀ b, b / 8 ≠ a / 8 → t.readByte b = s.readByte b)

/-! ### Buckles and waits -/

/-- The registers that a signal to buckle b may change: the buckle, the status of a wait slot, and the golden run that
the buckle starts (R102, R276). -/
def signalTouches (b a : Nat) : Prop :=
  a = Reg.bkl b ∨ (∃ k w, k < 4 ∧ w < 64 ∧ a = Reg.bklWaitStatus k w) ∨ a = Reg.calGoldenStatus ∨ a = Reg.calGoldenMissedCount

/-- BUCKLE_SET: of the signals of one cycle the set of the highest rank number gives the value, and every add of the
cycle is added, those included that a command of their own has made before (R98). Every other buckle and every byte of
memory stays. -/
def Claims.BuckleSetTakesTheLastSetAndEveryAdd : Prop :=
  ∀ (s : State) (who : Initiator) (b : Nat) (v : Word) (others : List Signal),
    b < 16384 → s.mainOn = true → s.Takes who (Reg.bkl b) v → (isTrusted who = true ∨ isProtected b = false) →
    (∀ g ∈ others, (isTrusted g.who = true ∨ isProtected b = false) ∧
      (g.isSet = true → signalRank g < sourceRank who)) →
    ∃ t, exec (.buckleSet who b v others) s = .next t ∧ t.resp = .done ∧
      t.buckle b = v + ((others.filter fun g => !g.isSet).map (·.amount)).sum ∧
      ((∀ e ∈ s.landed, ∀ h ∈ e.hits, h.1 < 256) → State.SameRegsBut s t (signalTouches b)) ∧ State.SameMemory s t

/-- BUCKLE_ADD with other adds in its cycle: the buckle grows by their sum mod 2^32, and no add is lost (R98); an add of the
cycle that a command of its own has made before counts once. Every other buckle and every byte of memory stays. -/
def Claims.BuckleAddsAreNeverLost : Prop :=
  ∀ (s : State) (who : Initiator) (b : Nat) (v : Word) (others : List Signal),
    b < 16384 → s.mainOn = true → s.Takes who (Reg.bklAdd (b / 4096) (b % 4096)) v →
    (isTrusted who = true ∨ isProtected b = false) →
    (∀ g ∈ others, g.isSet = false ∧ (isTrusted g.who = true ∨ isProtected b = false)) →
    ∃ t, exec (.buckleAdd who b v others) s = .next t ∧ t.resp = .done ∧
      t.buckle b = (s.takeBackAll b (groupsOfCycle b s.landed others)).buckle b + v + (others.map (·.amount)).sum ∧
      ((∀ e ∈ s.landed, e.b ≠ b) → t.buckle b = s.buckle b + v + (others.map (·.amount)).sum) ∧
      ((∀ e ∈ s.landed, ∀ h ∈ e.hits, h.1 < 256) → State.SameRegsBut s t (signalTouches b)) ∧ State.SameMemory s t

/-- A signal to a protected buckle from an untrusted initiator faults, changes no buckle, and counts in BKL_FAULT_COUNT
of block 3 (R99). -/
def Claims.ProtectedBucklesRefuseUntrustedSignals : Prop :=
  ∀ (s : State) (who : Initiator) (b : Nat) (v : Word),
    b < 16384 → s.mainOn = true → isTrusted who = false → isProtected b = true →
    (s.Takes who (Reg.bkl b) v →
      ∃ t, exec (.buckleSet who b v []) s = .next t ∧ t.resp = .accessFault ∧
        t.rget (Reg.bklFaultCount 3) = satAdd (s.rget (Reg.bklFaultCount 3)) 1 ∧
        State.OnlyRegs s t ∧ State.SameRegsBut s t fun a => a = Reg.bklFaultCount 3) ∧
    (s.Takes who (Reg.bklAdd (b / 4096) (b % 4096)) v →
      ∃ t, exec (.buckleAdd who b v []) s = .next t ∧ t.resp = .accessFault ∧
        t.rget (Reg.bklFaultCount 3) = satAdd (s.rget (Reg.bklFaultCount 3)) 1 ∧
        State.OnlyRegs s t ∧ State.SameRegsBut s t fun a => a = Reg.bklFaultCount 3)

/-- A signal evaluates every armed slot that watches its buckle, whether or not the value changes: a satisfied slot
clears ARMED and sets HIT, and every other slot stays (R100, R102). -/
def Claims.SignalsEvaluateTheWaits : Prop :=
  ∀ (s : State) (who : Initiator) (b k w : Nat) (v : Word),
    b < 16384 → s.mainOn = true → s.Takes who (Reg.bkl b) v → (isTrusted who = true ∨ isProtected b = false) →
    k < 4 → w < 64 →
    ∃ t, exec (.buckleSet who b v []) s = .next t ∧
      t.rget (Reg.bklWaitStatus k w) =
        if s.bit (Reg.bklWaitStatus k w) 0 = true ∧ s.fget (Reg.bklWaitCfg k w) 13 0 = b ∧
            waitSatisfied (s.bit (Reg.bklWaitCfg k w) 17) v (s.rget (Reg.bklWaitTarget k w)) = true
        then 2 else s.rget (Reg.bklWaitStatus k w)

/-- WAIT_ARM, WAIT_DISARM and WAIT_TARGET_WRITE. An armed slot that is satisfied at once shows HIT, one that is not shows
ARMED (R103); a write with ARM = 0 clears ARMED and leaves HIT (R104); a new TARGET is evaluated at once where the
slot is armed (R104). No byte of memory and no register of another slot changes. -/
def Claims.WaitSlotsFollowTheirWrites : Prop :=
  (∀ (s : State) (who : Initiator) (k w b : Nat) (eq : Bool), k < 4 → w < 64 → b < 16384 →
    s.Takes who (Reg.bklWaitCfg k w) (waitCfgWord b true eq) →
    ∃ t, exec (.waitArm who k w b eq) s = .next t ∧ t.resp = .done ∧
      t.fget (Reg.bklWaitCfg k w) 13 0 = b ∧ t.bit (Reg.bklWaitCfg k w) 17 = eq ∧
      (waitSatisfied eq (s.buckle b) (s.rget (Reg.bklWaitTarget k w)) = true → t.rget (Reg.bklWaitStatus k w) = 2) ∧
      (waitSatisfied eq (s.buckle b) (s.rget (Reg.bklWaitTarget k w)) = false →
        t.bit (Reg.bklWaitStatus k w) 0 = true ∧
          t.bit (Reg.bklWaitStatus k w) 1 = s.bit (Reg.bklWaitStatus k w) 1) ∧
      State.OnlyRegs s t ∧
      State.SameRegsBut s t fun a => a = Reg.bklWaitCfg k w ∨ a = Reg.bklWaitStatus k w) ∧
  (∀ (s : State) (who : Initiator) (k w b : Nat) (eq : Bool), k < 4 → w < 64 →
    s.Takes who (Reg.bklWaitCfg k w) (waitCfgWord b false eq) →
    ∃ t, exec (.waitDisarm who k w b eq) s = .next t ∧ t.resp = .done ∧
      t.bit (Reg.bklWaitStatus k w) 0 = false ∧
      t.bit (Reg.bklWaitStatus k w) 1 = s.bit (Reg.bklWaitStatus k w) 1 ∧
      State.OnlyRegs s t ∧
      State.SameRegsBut s t fun a => a = Reg.bklWaitCfg k w ∨ a = Reg.bklWaitStatus k w) ∧
  (∀ (s : State) (who : Initiator) (k w : Nat) (v : Word), k < 4 → w < 64 →
    s.Takes who (Reg.bklWaitTarget k w) v →
    ∃ t, exec (.waitTargetWrite who k w v) s = .next t ∧ t.resp = .done ∧ t.rget (Reg.bklWaitTarget k w) = v ∧
      t.rget (Reg.bklWaitStatus k w) =
        (if s.bit (Reg.bklWaitStatus k w) 0 = true ∧
            waitSatisfied (s.bit (Reg.bklWaitCfg k w) 17) (s.buckle (s.fget (Reg.bklWaitCfg k w) 13 0)) v = true
        then 2 else s.rget (Reg.bklWaitStatus k w)) ∧
      State.OnlyRegs s t ∧
      State.SameRegsBut s t fun a => a = Reg.bklWaitTarget k w ∨ a = Reg.bklWaitStatus k w)

/-! ### Cantle and Tier B -/

/-- POCKET_COMMIT_GO. A valid shadow set takes effect whole (R60), the bytes of every bank group whose pocket, base and
size did not change are kept (R63), and so is every byte outside Tier A; an invalid set changes nothing but
COMMIT_REFUSED (R60). -/
def Claims.PocketCommitAppliesAValidShadowSet : Prop :=
  ∀ (s : State) (who : Initiator), s.Takes who Reg.canPocketCommit 1 →
    (s.bit Reg.canStatus 0 = true →
      ∃ t, exec (.pocketCommitGo who) s = .next t ∧ t.resp = .done ∧
        (∀ n, n < 8 → t.rget (Reg.canPocketActiveN n) = s.rget (Reg.canPocketCfgN n)) ∧
        (∀ a, (∀ n, n < 8 → a ≠ Reg.canPocketActiveN n) → t.rget a = s.rget a) ∧
        (∀ a, regionOf a ≠ .tierA → t.readByte a = s.readByte a) ∧
        ∀ a, regionOf a = .tierA →
          assignment ((List.range 8).map fun n => s.rget (Reg.canPocketActiveN n)) (bankGroup a) =
            assignment ((List.range 8).map fun n => s.rget (Reg.canPocketCfgN n)) (bankGroup a) →
          t.readByte a = s.readByte a) ∧
    (s.bit Reg.canStatus 0 = false →
      ∃ t, exec (.pocketCommitGo who) s = .next t ∧ t.bit Reg.canStatus 1 = true ∧ State.OnlyRegs s t ∧
        State.SameRegsBut s t fun a => a = Reg.canStatus)

/-- Only registers differ between `s` and `t`, and the soft errors of word w, which have been found. -/
def OnlyFound (s t : State) (w : Nat) : Prop :=
  t = { s with regs := t.regs, upsets := s.upsets.filter fun e => e.word ≠ w }

/-- CANTLE_SCRUB_PASS and TRB_SCRUB_PASS with one correctable word that can be read: it is counted once, a pass that
began before the last had ended sets SCRUB_LATE, and no byte changes (R66, R68, R75). -/
def Claims.ScrubbersCountWhatTheyCorrect : Prop :=
  (∀ (s : State) (w : Nat) (previousDone : Bool), s.mainOn = true → s.fget Reg.canScrubCfg 15 0 ≠ 0 →
    regionOf w = .tierA → s.readable w = true → s.bad.contains w = false →
    ∃ t, exec (.cantleScrubPass previousDone [⟨w, .correctable⟩]) s = .next t ∧
      t.rget Reg.canEccCeCount = satAdd (s.rget Reg.canEccCeCount) 1 ∧ t.bit Reg.canStatus 2 = true ∧
      t.bit Reg.canStatus 4 = (s.bit Reg.canStatus 4 || !previousDone) ∧ OnlyFound s t w ∧
      State.SameRegsBut s t fun a => a = Reg.canEccCeCount ∨ a = Reg.canStatus) ∧
  (∀ (s : State) (w : Nat), s.mainOn = true → s.fget Reg.trbScrubCfg 15 0 ≠ 0 →
    regionOf w = .tierB → s.readable w = true → s.bad.contains w = false →
    ∃ t, exec (.trbScrubPass [⟨w, .correctable⟩]) s = .next t ∧
      t.rget Reg.trbCeCount = satAdd (s.rget Reg.trbCeCount) 1 ∧ t.bit Reg.trbStatus 8 = true ∧ OnlyFound s t w ∧
      State.SameRegsBut s t fun a => a = Reg.trbCeCount ∨ a = Reg.trbStatus)

/-- Do both conditions of R73 hold for a window with these loads. -/
def windowFlagged (s : State) (loads : List Nat) : Prop :=
  s.fget Reg.trbImbCfg 31 24 * 1024 ≤ loads.sum ∧ loads.sum * s.imbRatio ≤ loads.foldl max 0 * 512

/-- TRB_IMBALANCE_WINDOW_END: every load counter latches the window's granule accesses of its pseudo-channel, and the
window is flagged and counted exactly where both conditions of R73 hold. No byte changes. -/
def Claims.ImbalanceWindowsAreFlagged : Prop :=
  ∀ (s : State) (accesses : List (Nat × Nat)) (loads : List Nat), s.mainOn = true → loads = loadsOf s.seed accesses →
    ∃ t, exec (.trbImbalanceWindowEnd accesses) s = .next t ∧
      (∀ pc, pc < 128 → t.rget (Reg.trbPcLoad pc) = toWord (loads.getD pc 0)) ∧
      (windowFlagged s loads →
        t.bit Reg.trbImbalance 0 = true ∧ t.rget Reg.trbImbCount = satAdd (s.rget Reg.trbImbCount) 1) ∧
      (¬ windowFlagged s loads →
        t.rget Reg.trbImbalance = s.rget Reg.trbImbalance ∧ t.rget Reg.trbImbCount = s.rget Reg.trbImbCount) ∧
      State.SameMemory s t ∧
      State.SameRegsBut s t fun a =>
        a = Reg.trbImbalance ∨ a = Reg.trbImbCount ∨ ∃ pc, pc < 128 ∧ a = Reg.trbPcLoad pc

/-- STACK_THROTTLE: a stack's bit stands while a cause stands, and THROTTLE while any does (R76). TRB_TRAINING_DONE with
every stack trained sets READY (R74). -/
def Claims.StacksThrottleAndTrain : Prop :=
  (∀ (s : State) (k : Nat) (cause : ThrottleCause), k < 4 → s.mainOn = true →
    (∃ t, exec (.stackThrottle k cause true) s = .next t ∧ t.bit Reg.trbStatus (11 + k) = true ∧
      t.bit Reg.trbStatus 10 = true ∧ State.SameMemory s t ∧ State.SameRegsBut s t fun a => a = Reg.trbStatus) ∧
    (∃ t, exec (.stackThrottle k cause false) s = .next t ∧
      t.bit Reg.trbStatus (11 + k) = (s.throttles.any fun x => x.1 == k && x.2 != cause) ∧
      t.bit Reg.trbStatus 10 = (s.throttles.any fun x => x != (k, cause)) ∧
      State.SameMemory s t ∧ State.SameRegsBut s t fun a => a = Reg.trbStatus)) ∧
  (∀ (s : State) (passed : List Nat), s.stw.training = true →
    (∀ k, k < 4 → k ∈ passed) →
    ∃ t, exec (.trbTrainingDone passed) s = .next t ∧ t.bit Reg.trbStatus 0 = true ∧
      (∀ k, k < 4 → t.bit Reg.trbStatus (1 + k) = true) ∧ State.SameMemory s t ∧
      State.SameRegsBut s t fun a => a = Reg.trbStatus)

/-- STALL_COUNTER_CLEAR, HID_CYC_CLEAR and TLG_CNT_CLR set every counter of their bank to 0 and change nothing else
(R90, R184, R633). -/
def Claims.ClearsZeroTheirBanks : Prop :=
  (∀ (s : State) (who : Initiator) (bank : StallBank), s.Takes who (stallBase bank + 0x60) 1 →
    ∃ t, exec (.stallCounterClear who bank) s = .next t ∧ t.resp = .done ∧
      (∀ i, i < 12 → t.rget (stallBase bank + 4 * i) = 0) ∧ (∀ c, c < 6 → t.rget (stallBase bank + 0x40 + 4 * c) = 0) ∧
      State.OnlyRegs s t ∧ ∀ a, (∀ i, i < 12 → a ≠ stallBase bank + 4 * i) →
        (∀ c, c < 6 → a ≠ stallBase bank + 0x40 + 4 * c) → t.rget a = s.rget a) ∧
  (∀ (s : State) (who : Initiator), s.Takes who Reg.hidCycClr 1 →
    ∃ t, exec (.hidCycClear who) s = .next t ∧ t.resp = .done ∧
      (∀ c, c < 7 → t.rget (Reg.hidCycLo c) = 0 ∧ t.rget (Reg.hidCycLo c + 4) = 0) ∧
      State.OnlyRegs s t ∧ ∀ a, (∀ c, c < 7 → a ≠ Reg.hidCycLo c ∧ a ≠ Reg.hidCycLo c + 4) → t.rget a = s.rget a) ∧
  (∀ (s : State) (who : Initiator), s.Takes who Reg.tlgCntClr 1 →
    ∃ t, exec (.tlgCntClr who) s = .next t ∧ t.resp = .done ∧
      (∀ c, c < 512 → t.get64 (Reg.tlgCntLo c) = 0) ∧
      State.OnlyRegs s t ∧ ∀ a, ¬ isEventCounter a → t.rget a = s.rget a)

/-! ### The tensor IOMMU -/

/-- CQH moves on past one command where the queue is on and not empty. -/
def cqAdvanced (s t : State) : Prop :=
  t.rget Reg.iomCqh =
    if s.bit Reg.iomCqcsr 16 = true ∧ s.rget Reg.iomCqh ≠ s.rget Reg.iomCqt then
      toWord (((s.rget Reg.iomCqh).toNat + 1) % 2 ^ (s.fget Reg.iomCqbLo 4 0 + 1))
    else s.rget Reg.iomCqh

/-- IOTINVAL_VMA, IOTINVAL_GVMA, IODIR_INVAL_DDT and IODIR_INVAL_PDT drop exactly the cached entries that they name and
move the queue's head on; memory and every other register stay. A queue that met an error carries out nothing (R77; the
formats are those of the RISC-V IOMMU specification, log entry 16). -/
def Claims.IommuCommandsInvalidateWhatTheyName : Prop :=
  ∀ s : State, s.mainOn = true →
    (s.cqStopped = true → ∀ (x y : Option Nat) (dev pid : Nat), exec (.iotinvalVma x y) s = .next s ∧
      exec (.iotinvalGvma x y) s = .next s ∧ exec (.iodirInvalDdt x) s = .next s ∧
      exec (.iodirInvalPdt dev pid) s = .next s) ∧
    (s.cqStopped = false →
    (∀ addr pscid : Option Nat, ∃ t, exec (.iotinvalVma addr pscid) s = .next t ∧
      (∀ e, e ∈ t.tlb ↔ e ∈ s.tlb ∧
        ¬ ((∀ a, addr = some a → a / 2 ^ e.size = e.iova / 2 ^ e.size) ∧
          ∀ p, pscid = some p → e.pscid = p ∧ e.isGlobal = false)) ∧
      (∀ e, e ∈ t.dirs ↔ e ∈ s.dirs ∧
        ¬ ((∀ a, addr = some a → a / 2 ^ (12 + 9 * e.level) = e.tag) ∧ ∀ p, pscid = some p → e.pscid = p)) ∧
      t.devCtxs = s.devCtxs ∧ t.procCtxs = s.procCtxs ∧ cqAdvanced s t ∧ State.SameMemory s t ∧
      State.SameRegsBut s t fun a => a = Reg.iomCqh ∨ a = Reg.iomExtStatus) ∧
    (∀ addr gscid : Option Nat, ∃ t, exec (.iotinvalGvma addr gscid) s = .next t ∧ t.tlb = s.tlb ∧ t.dirs = s.dirs ∧
      t.devCtxs = s.devCtxs ∧ t.procCtxs = s.procCtxs ∧ cqAdvanced s t ∧ State.SameMemory s t ∧
      State.SameRegsBut s t fun a => a = Reg.iomCqh) ∧
    (∀ dev : Option Nat, ∃ t, exec (.iodirInvalDdt dev) s = .next t ∧ t.tlb = s.tlb ∧ t.dirs = s.dirs ∧
      (∀ x, x ∈ t.devCtxs ↔ x ∈ s.devCtxs ∧ dev ≠ none ∧ dev ≠ some x.1) ∧
      (∀ x, x ∈ t.procCtxs ↔ x ∈ s.procCtxs ∧ dev ≠ none ∧ dev ≠ some x.dev) ∧ cqAdvanced s t ∧
      State.SameMemory s t ∧ State.SameRegsBut s t fun a => a = Reg.iomCqh) ∧
    (∀ dev pid : Nat, ∃ t, exec (.iodirInvalPdt dev pid) s = .next t ∧ t.tlb = s.tlb ∧ t.dirs = s.dirs ∧
      t.devCtxs = s.devCtxs ∧
      (∀ x, x ∈ t.procCtxs ↔ x ∈ s.procCtxs ∧ ¬ (x.dev = dev ∧ x.pid = pid)) ∧ cqAdvanced s t ∧
      State.SameMemory s t ∧ State.SameRegsBut s t fun a => a = Reg.iomCqh))

/-- IOFENCE_C moves the queue's head on, and with a store writes its word and no other byte (R65, R77, log entry 16). -/
def Claims.IofenceStoresItsWord : Prop :=
  ∀ s : State, s.mainOn = true → s.cqStopped = false →
    (∃ t, exec (.iofenceC none) s = .next t ∧ cqAdvanced s t ∧ State.SameMemory s t ∧
      State.SameRegsBut s t fun a => a = Reg.iomCqh) ∧
    ∀ (a : Nat) (v : Word), inTiers a = true → s.readable a = true → a % 4 = 0 → s.Clean a 4 →
      ∃ t, exec (.iofenceC (some (a, v))) s = .next t ∧ cqAdvanced s t ∧ t.readBytes a 4 = natToBytes 4 v.toNat ∧
        (∀ b, ¬ (a ≤ b ∧ b < a + 4) → t.readByte b = s.readByte b) ∧
        State.SameRegsBut s t fun b => b = Reg.iomCqh

/-- The registers of the performance monitor and of its interrupts. -/
def hpmShows (a : Nat) : Prop := Reg.iomIpsr ≤ a ∧ a < Reg.iomIohpmevtLo 8

/-- IOTLB_WALK_COMPLETE of a translation that misses the IOTLB: a walk that finds a leaf fills the IOTLB with it and
counts the miss; one that faults caches nothing (R81). A walk of a root that a swap replaced ends against that root, caches
nothing, and its swap has one walk less to wait for (R84). -/
def Claims.WalksFillTheIotlbUnlessTheyFault : Prop :=
  (∀ (s u : State) (dev pid iova root pscid : Nat) (isWrite : Bool),
    s.mainOn = true → dev < 2 → regionOf iova ≠ .tierA →
    (s.hpmCount 1 dev pid 0).space dev pid = (u, .sv48 root pscid) →
    (s.tlb.find? fun e => e.serves dev pscid iova isWrite) = none → canonical iova = true →
    ∀ w r, (((u.count Reg.iomMissCount 1).tally 0x040 dev 1).hpmCount 4 dev pid pscid).walkFill dev pid pscid iova root
      isWrite = (w, r) →
    (∀ l, r = .ok l →
      ∃ t, exec (.iotlbWalkComplete dev pid iova isWrite none) s = .next t ∧ tlbOf dev pscid iova l ∈ t.tlb ∧
        (s.tlb.length < 4096 → t.tlb = tlbOf dev pscid iova l :: s.tlb) ∧
        t.rget Reg.iomMissCount = satAdd (s.rget Reg.iomMissCount) 1 ∧ State.SameMemory s t ∧
        (s.upsets = [] →
          State.SameRegsBut s t fun a => a = Reg.iomMissCount ∨ a = Reg.iomExtStatus ∨ hpmShows a)) ∧
    (∀ c, r = .error c → s.ten.run = none →
      ∃ t, exec (.iotlbWalkComplete dev pid iova isWrite none) s = .next t ∧ t.tlb = s.tlb ∧ t.dirs = s.dirs)) ∧
  ∀ (s : State) (slot dev pid iova : Nat) (isWrite : Bool) (r : SwapRun) (x : Nat × Nat),
    s.mainOn = true → dev < 2 → s.ten.run = none →
    (s.swapRuns.find? fun r => r.slot = slot ∧ 0 < r.walksLeft) = some r → (r.roots.find? fun x => x.1 = dev) = some x →
    ∃ t, exec (.iotlbWalkComplete dev pid iova isWrite (some slot)) s = .next t ∧ t.tlb = s.tlb ∧ t.dirs = s.dirs ∧
      t.swapRuns = s.swapRuns.map fun q => if q.slot = slot then { q with walksLeft := q.walksLeft - 1 } else q

/-- IOM_SWAP_ROOT_HI_WRITE to a slot whose PENDING bit is 1 is refused with error code 0x1 and changes nothing else
(R85). Else it writes the new root with mode Sv48 into the process context of each device that the slot names, drops the
cached contexts and every entry of both caches with their tags, and sets PENDING (R83), or ends with the code of R87's table (log entry 36)
and swaps nothing. IOM_SWAP_DONE clears PENDING and sets DONE when no walk of the old root remains (R84). -/
def Claims.RootSwapsReplaceTheRoot : Prop :=
  ∀ (s : State) (n : Nat), n < 8 →
    (∀ (who : Initiator) (v : Word) (old : Nat) (err : Bool), s.Takes who (Reg.iomSwapRootHi n) v →
      (s.bit (Reg.iomSwapStatus n) 0 = true →
        ∃ t, exec (.iomSwapRootHiWrite who n v old err) s = .next t ∧ t.fget (Reg.iomSwapStatus n) 11 8 = 1 ∧
          t.bit (Reg.iomSwapStatus n) 2 = true ∧ State.OnlyRegs s t ∧
          State.SameRegsBut s t fun a => a = Reg.iomSwapStatus n) ∧
      (s.bit (Reg.iomSwapStatus n) 0 = false → ∀ (u w : State) (ppn pid : Nat) (r : Except Nat (List SwapTarget)),
        u = (s.respond .done).putRw (Reg.iomSwapRootHi n) v →
        ppn = (u.rget (Reg.iomSwapRootLo n)).toNat + u.fget (Reg.iomSwapRootHi n) 3 0 * 2 ^ 32 →
        pid = u.fget (Reg.iomSwapId n) 16 0 → State.swapTargets pid u (u.swapDevs n) = (w, r) →
        (∀ code, (r = .error code ∨ ((∃ xs, r = .ok xs) ∧ inTiers (ppn * 4096) = false ∧ code = 3) ∨
            ((∃ xs, r = .ok xs) ∧ inTiers (ppn * 4096) = true ∧ err = true ∧ code = 4)) →
          ∃ t, exec (.iomSwapRootHiWrite who n v old err) s = .next t ∧ t.fget (Reg.iomSwapStatus n) 11 8 = code ∧
            t.bit (Reg.iomSwapStatus n) 2 = true ∧ t.bit (Reg.iomSwapStatus n) 0 = false ∧ t.tlb = s.tlb ∧
            t.dirs = s.dirs ∧ t.procCtxs = s.procCtxs ∧ State.SameMemory s t) ∧
        (∀ xs, r = .ok xs → inTiers (ppn * 4096) = true → err = false → s.memPending = [] →
          ∃ t, exec (.iomSwapRootHiWrite who n v old err) s = .next t ∧ t.resp = .done ∧
            (∀ x ∈ xs, t.readBytes (x.addr + 8) 8 = natToBytes 8 (9 * 2 ^ 60 + ppn)) ∧
            (∀ b, (∀ x ∈ xs, ¬ (x.addr + 8 ≤ b ∧ b < x.addr + 16)) → t.readByte b = s.readByte b) ∧
            (∀ e, e ∈ t.tlb ↔ e ∈ s.tlb ∧ ∀ x ∈ xs, ¬ (e.dev = x.dev ∧ e.pscid = x.pscid)) ∧
            (∀ e, e ∈ t.dirs ↔ e ∈ s.dirs ∧ ∀ x ∈ xs, ¬ (e.dev = x.dev ∧ e.pscid = x.pscid)) ∧
            (∀ p, p ∈ t.procCtxs ↔ p ∈ s.procCtxs ∧ ∀ x ∈ xs, ¬ (p.dev = x.dev ∧ p.pid = pid)) ∧
            t.bit (Reg.iomSwapStatus n) 0 = true ∧
            (s.upsets = [] → State.SameRegsBut s t fun b =>
              b = Reg.iomSwapRootHi n ∨ b = Reg.iomSwapStatus n ∨ b = Reg.iomExtStatus)))) ∧
    (s.bit (Reg.iomSwapStatus n) 0 = true → (∀ r ∈ s.swapRuns, r.slot = n → r.walksLeft = 0) →
      ∃ t, exec (.iomSwapDone n) s = .next t ∧ t.bit (Reg.iomSwapStatus n) 0 = false ∧
        t.bit (Reg.iomSwapStatus n) 1 = true ∧ (∀ r ∈ t.swapRuns, r.slot ≠ n) ∧ State.SameMemory s t ∧
        State.SameRegsBut s t fun a => a = Reg.iomSwapStatus n) ∧
    (∀ r ∈ s.swapRuns, r.slot = n → 0 < r.walksLeft → exec (.iomSwapDone n) s = .next s)

/-! ### Transactions -/

/-- Transaction n has nothing beside its own registers: it sealed no range, does not wait at Cinch, is bound to no link
slot, and signals nothing at an abort (R127, R538, R540, R578). -/
def txnPlain (s : State) (n : Nat) : Prop :=
  (s.txn n).seals = [] ∧ n ∉ s.cin.queue ∧ s.linkOf n = none ∧ s.bit (Reg.txnDone n) 30 = false

/-- The registers that the end of transaction n changes (R109). -/
def txnEndTouches (n a : Nat) : Prop :=
  a = Reg.txnStatus n ∨ a = Reg.txnEndBeatLo n ∨ a = Reg.txnEndBeatLo n + 4 ∨ a = Reg.txnAbortCount ∨
    a = Reg.txnCommitCount ∨ a = Reg.txnGlobalStatus

/-- `t` is `s` with transaction n aborted for `reason`: the state, the reason and END_BEAT; the entries are gone and no
byte of memory changes (R109, R126). -/
def TxnAborted (s t : State) (n reason : Nat) : Prop :=
  t.txnState n = 4 ∧ t.fget (Reg.txnStatus n) 7 4 = reason ∧ t.rget (Reg.txnEndBeatLo n) = s.rget Reg.tmbBeatLo ∧
    t.rget (Reg.txnEndBeatLo n + 4) = s.rget (Reg.tmbBeatLo + 4) ∧ (t.txn n).entries = [] ∧
    t.rget Reg.txnAbortCount = satAdd (s.rget Reg.txnAbortCount) 1 ∧ State.SameMemory s t ∧
    State.SameRegsBut s t (txnEndTouches n)

/-- TXN_OPEN, TXN_ARM and TXN_RELEASE (R109, R110, R111, R115). OPEN in IDLE gives the transaction to its writer, empty;
in another state it is refused and only CMD_REFUSED changes. ARM in OPEN, in time, naming no vouched destination and
bound to no link, leads to ARMED in the order of the arms, sharing the place of the last arm where it comes in the same
cycle (R121). RELEASE of a finished transaction leads to IDLE. -/
def Claims.TransactionsFollowTheirCommands : Prop :=
  (∀ (s : State) (who : Initiator) (n : Nat), n < 64 → s.Takes who (Reg.txnCtrl n) 1 →
    (s.txnState n = 0 → initCode who ≠ 0xFF →
      ∃ t, exec (.txnOpen who n) s = .next t ∧ t.resp = .done ∧ t.txnState n = 1 ∧ t.isOwner who n = true ∧
        (t.txn n).entries = [] ∧ State.SameMemory s t ∧
        State.SameRegsBut s t fun a =>
          (Reg.txnCtrl n ≤ a ∧ a < Reg.txnCtrl n + 0x40) ∨ a = Reg.txnGlobalStatus ∨ ∃ l, l < 8 ∧ a = Reg.shzLinkStatus l) ∧
    (s.txnState n ≠ 0 → initCode who ≠ 0xFF →
      ∃ t, exec (.txnOpen who n) s = .next t ∧ t.bit (Reg.txnStatus n) 3 = true ∧ t.txnState n = s.txnState n ∧
        State.OnlyRegs s t ∧ State.SameRegsBut s t fun a => a = Reg.txnStatus n)) ∧
  (∀ (s : State) (who : Initiator) (n : Nat) (timestamp sameCycle : Bool), n < 64 →
    s.Takes who (Reg.txnCtrl n) (toWord (2 + 16 * b2n timestamp)) →
    s.isOwner who n = true → s.txnState n = 1 → s.txnLate n timestamp = false → s.needsVouch n = false →
    s.linkOf n = none →
    ∃ t, exec (.txnArm who n timestamp sameCycle) s = .next t ∧ t.resp = .done ∧ t.txnState n = 2 ∧
      (t.txn n).entries = (s.txn n).entries ∧ (t.txn n).timestamp = timestamp ∧
      (t.txn n).armOrder = t.armCount ∧ t.armCount = (if sameCycle then s.armCount else s.armCount + 1) ∧ State.SameMemory s t ∧
      State.SameRegsBut s t fun a => a = Reg.txnStatus n ∨ a = Reg.txnGlobalStatus) ∧
  (∀ (s : State) (who : Initiator) (n : Nat), n < 64 → s.Takes who (Reg.txnCtrl n) 4 → s.isOwner who n = true →
    (s.txnState n = 3 ∨ s.txnState n = 4) →
    ∃ t, exec (.txnRelease who n) s = .next t ∧ t.resp = .done ∧ t.txnState n = 0 ∧ State.SameMemory s t ∧
      State.SameRegsBut s t fun a => a = Reg.txnStatus n ∨ a = Reg.txnGlobalStatus)

/-- TXN_ABORT by the owner (reason 1), TXN_TIMEOUT of a transaction whose timeout has passed (reason 3), and TXN_ARM of
one that is too late (reason 7): the transaction aborts (R110, R116, R126). A timeout that has not passed changes
nothing. -/
def Claims.TransactionsAbort : Prop :=
  (∀ (s : State) (who : Initiator) (n : Nat), n < 64 → s.Takes who (Reg.txnCtrl n) 3 → s.isOwner who n = true →
    (s.txnState n = 1 ∨ s.txnState n = 2) → txnPlain s n →
    ∃ t, exec (.txnAbort who n) s = .next t ∧ t.resp = .done ∧ TxnAborted s t n 1) ∧
  (∀ (s : State) (n : Nat), n < 64 → (s.txnState n = 1 ∨ s.txnState n = 2) → txnPlain s n →
    (s.txnExpired n = true → ∃ t, exec (.txnTimeout n) s = .next t ∧ TxnAborted s t n 3) ∧
    (s.txnExpired n = false → exec (.txnTimeout n) s = .next s)) ∧
  (∀ (s : State) (who : Initiator) (n : Nat) (timestamp sameCycle : Bool), n < 64 →
    s.Takes who (Reg.txnCtrl n) (toWord (2 + 16 * b2n timestamp)) →
    s.isOwner who n = true → s.txnState n = 1 → txnPlain s n → s.txnLate n timestamp = true →
    ∃ t, exec (.txnArm who n timestamp sameCycle) s = .next t ∧ TxnAborted s t n 7)

/-- TXN_STAGE_PUSH by the owner of an OPEN transaction: the entry joins the list and ENTRIES counts it; entry 257 aborts
with reason 9, and an entry that its target does not accept aborts with reason 8 (R112, R113). In another state the
push is refused (R111). Nothing is stored (R112). -/
def Claims.StagingCollectsEntries : Prop :=
  ∀ (s : State) (who : Initiator) (n : Nat), n < 64 → s.Takes who (Reg.txnStagePush n) 1 → s.isOwner who n = true →
    (s.txnState n = 1 → (s.txn n).entries.length < 256 → s.targetAccepts (s.txnOwner n) (s.stagedEntry n) = true →
      ∃ t, exec (.txnStagePush who n) s = .next t ∧ t.resp = .done ∧ t.txnState n = 1 ∧
        (t.txn n).entries = (s.txn n).entries ++ [s.stagedEntry n] ∧
        t.fget (Reg.txnStatus n) 24 16 = (s.txn n).entries.length + 1 ∧ State.SameMemory s t ∧
        State.SameRegsBut s t fun a => a = Reg.txnStatus n) ∧
    (s.txnState n = 1 → 256 ≤ (s.txn n).entries.length → txnPlain s n →
      ∃ t, exec (.txnStagePush who n) s = .next t ∧ TxnAborted s t n 9) ∧
    (s.txnState n = 1 → (s.txn n).entries.length < 256 → txnPlain s n →
      s.targetAccepts (s.txnOwner n) (s.stagedEntry n) = false →
      ∃ t, exec (.txnStagePush who n) s = .next t ∧ TxnAborted s t n 8) ∧
    (s.txnState n ≠ 1 →
      ∃ t, exec (.txnStagePush who n) s = .next t ∧ t.bit (Reg.txnStatus n) 3 = true ∧ t.txnState n = s.txnState n ∧
        State.OnlyRegs s t ∧ State.SameRegsBut s t fun a => a = Reg.txnStatus n)

/-- TXN_COMMIT_BEAT of one armed transaction of memory words only, whose time has come (R117, R118): it commits and its
words are what every read sees from then on; with a guard that does not hold it aborts with reason 5 and changes no
byte (R120, R123). In a beat in which no transaction is due no register and no byte changes, and where the beat is stopped or a
later place of the beat's order was reached (log entry 34) nothing does. TXN_MEMORY_ENTRY_WRITE then writes the oldest entry, and no read sees a
difference (R118). -/
def Obligations.TransactionsCommitWhole : Prop :=
  (∀ s : State,
    (s.beating && s.mainOn && s.placeOpen 8) = false → exec .txnCommitBeat s = .next s) ∧
  (∀ s : State, s.beating = true → s.mainOn = true → s.placeOpen 8 = true →
    s.dueTxns = [] → exec .txnCommitBeat s = .next (s.atPlace 8)) ∧
  (∀ (s : State) (n : Nat), n < 64 → s.beating = true → s.mainOn = true → s.placeOpen 8 = true → s.dueTxns = [n] →
    s.txnState n = 2 → txnPlain s n → s.bit (Reg.txnDone n) 31 = false → s.txnExpired n = false → s.vouchNeeded n = false →
    (s.commitReason n = 0 → (∀ e ∈ (s.txn n).entries, e.isMemory = true) →
      (∀ e ∈ (s.txn n).entries, s.targetAccepts (s.txnOwner n) e = true) →
      ∃ t, exec .txnCommitBeat s = .next t ∧ t.txnState n = 3 ∧ t.fget (Reg.txnStatus n) 7 4 = 0 ∧
        t.rget Reg.txnCommitCount = satAdd (s.rget Reg.txnCommitCount) 1 ∧
        (∀ a, t.readByte a = (pendingByte (s.memPending ++ (s.txn n).entries) a).getD (s.readByte a)) ∧
        State.SameRegsBut s t (txnEndTouches n)) ∧
    (s.bit (Reg.txnGuard n) 31 = true →
      s.buckle (s.fget (Reg.txnGuard n) 13 0) ≠ s.rget (Reg.txnGuardVal n) →
      ∃ t, exec .txnCommitBeat s = .next t ∧ TxnAborted s t n 5)) ∧
  (∀ s : State, s.memPending = [] → exec .txnMemoryEntryWrite s = .next s) ∧
  (∀ (s : State) (e : TxnEntry) (es : List TxnEntry), s.memPending = e :: es →
    (∀ w ∈ dwordsOf e.addr e.bytes.length, ¬ (e.addr ≤ w ∧ w + 8 ≤ e.addr + e.bytes.length) → s.suspect w = false) →
    ∃ t, exec .txnMemoryEntryWrite s = .next t ∧ t.memPending = es ∧ t.regs = s.regs ∧ State.SameMemory s t)

/-- Snapshots (R128 to R130). TXN_SNAP_GO starts the idle slots it names, for the start of the second beat from then;
SNAPSHOT_LATCH takes the words of the slots of this beat as a read would show them and changes no register;
SNAPSHOT_COMPLETE ends the slot, with the words in its data registers and the beat of the latch beside them. -/
def Obligations.SnapshotsLatchTogether : Prop :=
  (∀ (s : State) (who : Initiator) (k : Nat), k < 8 → s.Takes who Reg.txnSnapGo (toWord (2 ^ k)) →
    s.bit Reg.txnSnapStatus k = false →
    ∃ t, exec (.txnSnapGo who (2 ^ k)) s = .next t ∧ t.resp = .done ∧ t.bit Reg.txnSnapStatus k = true ∧
      t.snaps = s.snaps ++ [⟨k, s.fget (Reg.txnSnapCfg k) 27 2, s.fget (Reg.txnSnapLen k) 5 0, s.beat + 2, none⟩] ∧
      State.SameMemory s t ∧ State.SameRegsBut s t fun a => a = Reg.txnSnapStatus) ∧
  (∀ s : State,
    ∃ t, exec .snapshotLatch s = .next t ∧ t.regs = s.regs ∧ State.SameMemory s t ∧
      t.snaps = s.snaps.map fun r =>
        if r.latchBeat = s.beat ∧ r.latched.isNone then
          { r with latched := some (if snapValid r.word r.len then
              (List.range r.len).map fun i => s.regView (0x10000000 + 4 * (r.word + i)) else []) }
        else r) ∧
  (∀ (s : State) (k : Nat) (r : SnapRun) (ws : List Word), k < 8 → s.snaps.find? (fun r => r.slot = k) = some r →
    r.latched = some ws → ws.length ≤ 32 →
    ∃ t, exec (.snapshotComplete k) s = .next t ∧ t.bit Reg.txnSnapStatus k = false ∧
      t.snaps = s.snaps.filter (fun r => r.slot ≠ k) ∧ State.SameMemory s t ∧
      (snapValid r.word r.len = true →
        (∀ i, i < ws.length → t.rget (Reg.txnSnapData k i) = ws.getD i 0) ∧
        t.rget (Reg.txnSnapBeatLo k) = toWord r.latchBeat ∧ t.rget (Reg.txnSnapBeatLo k + 4) = toWord (r.latchBeat / 2 ^ 32) ∧
        State.SameRegsBut s t fun a =>
          a = Reg.txnSnapStatus ∨ (∃ i, i < ws.length ∧ a = Reg.txnSnapData k i) ∨ a = Reg.txnSnapBeatLo k ∨
            a = Reg.txnSnapBeatLo k + 4) ∧
      (snapValid r.word r.len = false →
        t.bit Reg.txnSnapStatus (8 + k) = true ∧ State.SameRegsBut s t fun a => a = Reg.txnSnapStatus))

/-! ### Units, windows and rings of the Tensor Plane -/

/-- The CTRL register of a unit: 1 Hide, 2 Latigo, 3 Tango, 4 Reel, 5 vision. -/
def unitCtrl : Nat → Nat
  | 1 => Reg.hidCtrl
  | 2 => Reg.latCtrl
  | 3 => Reg.tngCtrl
  | 4 => Reg.relCtrl
  | _ => Reg.visCtrl

/-- The command that disables or enables a unit. -/
def unitSwitch (who : Initiator) : Nat → Bool → Instr
  | 1, true => .hideEnable who
  | 1, false => .hideDisable who
  | 2, true => .latigoEnable who
  | 2, false => .latigoDisable who
  | 3, true => .tangoEnable who
  | 3, false => .tangoDisable who
  | 4, true => .reelEnable who
  | 4, false => .reelDisable who
  | _, true => .visionEnable who
  | _, false => .visionDisable who

/-- HIDE_, LATIGO_, TANGO_, REEL_ and VISION_DISABLE and _ENABLE (R199, R238, R316, R338, R366). A disabled unit without
an op is DRAINED at once, with DRAINED_SET, and a busy one is DRAINING; an enabled unit leaves DRAINED, and one that was
not drained goes on. No byte of memory changes. -/
def Obligations.UnitsDrainAndReturn : Prop :=
  ∀ (s : State) (who : Initiator) (u : Nat) (on : Bool), 1 ≤ u → u ≤ 5 →
    s.Takes who (unitCtrl u) (toWord (b2n on)) →
    ∃ t, exec (unitSwitch who u on) s = .next t ∧ t.resp = .done ∧ t.bit (unitCtrl u) 0 = on ∧
      (on = false → s.fget (unitStatus u) 1 0 = 0 →
        t.fget (unitStatus u) 1 0 = 3 ∧ t.bit (unitStatus u) (drainedBit u) = true) ∧
      (on = false → s.fget (unitStatus u) 1 0 = 1 → t.fget (unitStatus u) 1 0 = 2) ∧
      (on = true → 2 ≤ s.fget (unitStatus u) 1 0 → s.ten.run = none → t.fget (unitStatus u) 1 0 = 0) ∧
      (on = true → s.fget (unitStatus u) 1 0 < 2 → t.fget (unitStatus u) 1 0 = s.fget (unitStatus u) 1 0) ∧
      State.SameMemory s t ∧
      State.SameRegsBut s t fun a =>
        a = unitCtrl u ∨ a = unitStatus u ∨ ∃ n, n < 2 ∧ (a = Reg.latWinStatus n ∨ a = Reg.latWinLead n)

/-- WINDOW_FILL begins the next record of the op that the fill engine serves in the window, where a slot has room, and
pours its bytes as far as the room goes; the rest follows by the next commands (R205, R206, R208). Where no op waits for a record, or there is
no room for its first byte, nothing changes. WINDOW_SLOT_FREE frees the oldest slot when the feed is past it (R206). LAT_WIN_CFG_WRITE takes
effect while the window is empty, which then starts anew, and is refused else (R213); LAT_WIN_RATE_WRITE always takes effect. The other
window stays as it was. -/
def Obligations.WindowsFillAndFree : Prop :=
  (∀ (s : State) (n : Nat), n < 2 → s.winReady n = true → (s.window n).rest = [] →
    (s.fillNext n = none → exec (.windowFill n) s = .next s) ∧
    (∀ e, s.fillNext n = some e →
      (((s.window n).freed + s.slotCount n) * s.slotSize n ≤ (s.window n).wr → exec (.windowFill n) s = .next s) ∧
      ((s.window n).wr < ((s.window n).freed + s.slotCount n) * s.slotSize n →
        ∃ t x, exec (.windowFill n) s = .next t ∧ (t.window n).recs = (s.window n).recs ++ [x] ∧ x.op = e.index ∧
          x.pass = ((s.window n).fillOf e.index).done / e.kBlocks ∧ x.pos = (s.window n).wr ∧
          ((t.window n).fillOf e.index).done = ((s.window n).fillOf e.index).done + 1 ∧
          (t.window n).freed = (s.window n).freed ∧ ∀ m, m ≠ n → t.window m = s.window m))) ∧
  (∀ (s u : State) (n : Nat), n < 2 → s.winReady n = true → (s.window n).rest ≠ [] →
    ∀ k, k = min (s.window n).rest.length
        (((s.window n).freed + s.slotCount n) * s.slotSize n - (s.window n).wr) →
      s.winWrite n (s.window n).wr ((s.window n).rest.take k) = (u, 0) →
      ∃ t, exec (.windowFill n) s = .next t ∧
        t.window n = { s.window n with wr := (s.window n).wr + k, rest := (s.window n).rest.drop k }) ∧
  (∀ (s : State) (n : Nat), n < 2 →
    (s.slotTake n = none → exec (.windowSlotFree n) s = .next s) ∧
    (∀ x, s.slotTake n = some x →
      ∃ t, exec (.windowSlotFree n) s = .next t ∧ (t.window n).freed = (s.window n).freed + 1 ∧
        (t.window n).recs = (s.window n).recs ∧ (∀ m, m ≠ n → t.window m = s.window m) ∧
        (x = none → t.ten.run = s.ten.run ∧ State.SameMemory s t ∧
          State.SameRegsBut s t fun a => a = Reg.latWinStatus n ∨ a = Reg.latWinLead n))) ∧
  (∀ (s : State) (who : Initiator) (n : Nat) (v : Word), n < 2 →
    (s.Takes who (Reg.latWinRate n) v →
      ∃ t, exec (.latWinRateWrite who n v) s = .next t ∧ t.resp = .done ∧ State.OnlyRegs s t ∧
        t.fget (Reg.latWinRate n) 7 0 = fieldOf v 7 0 ∧
        State.SameRegsBut s t fun a => a = Reg.latWinRate n) ∧
    (∀ base a, a = (if base then Reg.latWinBase n else Reg.latWinCfg n) → s.Takes who a v →
      (s.bit (Reg.latWinStatus n) 0 = true →
        ∃ t, exec (.latWinCfgWrite who n base v) s = .next t ∧ t.resp = .done ∧
          (∀ r, regRow a = some r → t.rget a = writtenWord r (s.rget a) v 0) ∧ t.window n = .idle ∧
          (∀ m, m ≠ n → t.window m = s.window m) ∧ State.SameMemory s t ∧
          State.SameRegsBut s t fun b => b = a ∨ b = Reg.latWinStatus n ∨ b = Reg.latWinLead n) ∧
      (s.bit (Reg.latWinStatus n) 0 = false →
        ∃ t, exec (.latWinCfgWrite who n base v) s = .next t ∧ t.bit (Reg.latWinStatus n) 1 = true ∧ State.OnlyRegs s t ∧
          State.SameRegsBut s t fun b => b = Reg.latWinStatus n)))

/-- The registers of ring n. -/
def ofRing (n a : Nat) : Prop := Reg.calRingCtrl n ≤ a ∧ a < Reg.calRingCtrl n + 0x80

/-- RING_TAIL_WRITE, RING_HEAD_WRITE and RING_CFG_WRITE. TAIL moves forward up to the ring's slots, else the write is
refused (R241); HEAD is written only while the ring is DISABLED or HALTED, and DONE with it (R273); CFG keeps the lower
of the written generation and GEN_MAX, and ENTRIES_LOG2 outside DISABLED (R280). Nothing else changes. -/
def Claims.RingIndicesFollowTheirWrites : Prop :=
  ∀ (s : State) (who : Initiator) (n : Nat) (v : Word), n < 2 →
    (s.Takes who (Reg.calRingTail n) v →
      ∃ t, exec (.ringTailWrite who n v) s = .next t ∧ t.resp = .done ∧ State.OnlyRegs s t ∧
        (atOrAfter v (s.rget (Reg.calRingTail n)) = true →
          (v - s.rget (Reg.calRingDone n)).toNat ≤ s.ringSlots n → t.rget (Reg.calRingTail n) = v) ∧
        (¬ (atOrAfter v (s.rget (Reg.calRingTail n)) = true ∧
            (v - s.rget (Reg.calRingDone n)).toNat ≤ s.ringSlots n) →
          t.bit (Reg.calRingStatus n) 6 = true ∧ t.rget (Reg.calRingTail n) = s.rget (Reg.calRingTail n)) ∧
        State.SameRegsBut s t fun a => a = Reg.calRingTail n ∨ a = Reg.calRingStatus n) ∧
    (s.Takes who (Reg.calRingHead n) v →
      ∃ t, exec (.ringHeadWrite who n v) s = .next t ∧ t.resp = .done ∧ State.OnlyRegs s t ∧
        ((s.ringState n = 0 ∨ s.ringState n = 4) →
          t.rget (Reg.calRingHead n) = v ∧ t.rget (Reg.calRingDone n) = v) ∧
        (¬ (s.ringState n = 0 ∨ s.ringState n = 4) →
          t.bit (Reg.calRingStatus n) 6 = true ∧ t.rget (Reg.calRingHead n) = s.rget (Reg.calRingHead n) ∧
            t.rget (Reg.calRingDone n) = s.rget (Reg.calRingDone n)) ∧
        State.SameRegsBut s t fun a => a = Reg.calRingHead n ∨ a = Reg.calRingDone n ∨ a = Reg.calRingStatus n) ∧
    (s.Takes who (Reg.calRingCfg n) v →
      ∃ t, exec (.ringCfgWrite who n v) s = .next t ∧ t.resp = .done ∧ State.OnlyRegs s t ∧
        t.fget (Reg.calRingCfg n) 3 0 =
          (if fieldOf v 3 0 = 0 then s.fget Reg.calVersion 3 0 else min (fieldOf v 3 0) (s.fget Reg.calVersion 7 4)) ∧
        t.fget (Reg.calRingCfg n) 12 8 =
          (if s.ringState n = 0 then fieldOf v 12 8 else s.fget (Reg.calRingCfg n) 12 8) ∧
        State.SameRegsBut s t fun a => a = Reg.calRingCfg n)

/-- RING_ENABLE, RING_DISABLE, RING_STOP, RING_RESUME and RING_STOPPED (R262, R269, R271, R272): the state of the ring
after each. RING_STOPPED drops what was read and not issued: HEAD goes back to DONE. -/
def Claims.RingStatesFollowTheirCommands : Prop :=
  (∀ (s : State) (who : Initiator) (n : Nat), n < 2 →
    (s.Takes who (Reg.calRingCtrl n) 1 → s.ringState n = 0 →
      ∃ t, exec (.ringEnable who n) s = .next t ∧ t.resp = .done ∧ State.OnlyRegs s t ∧
        (s.ringOk n = true → t.ringState n = 1 ∧ t.bit (Reg.calRingCtrl n) 0 = true) ∧
        (s.ringOk n = false →
          t.ringState n = 0 ∧ t.bit (Reg.calRingCtrl n) 0 = false ∧ t.bit (Reg.calRingStatus n) 7 = true) ∧
        State.SameRegsBut s t fun a => a = Reg.calRingCtrl n ∨ a = Reg.calRingStatus n) ∧
    (s.Takes who (Reg.calRingCtrl n) 0 →
      ∃ t, exec (.ringDisable who n) s = .next t ∧ t.resp = .done ∧ State.OnlyRegs s t ∧
        t.bit (Reg.calRingCtrl n) 0 = false ∧
        t.ringState n = (if s.ringState n = 4 then 0
          else if s.ringState n = 1 ∨ s.ringState n = 2 then 3 else s.ringState n) ∧
        State.SameRegsBut s t fun a => a = Reg.calRingCtrl n ∨ a = Reg.calRingStatus n) ∧
    (s.Takes who (Reg.calRingCtrl n) 5 → (s.ringState n = 1 ∨ s.ringState n = 2) →
      ∃ t, exec (.ringStop who n) s = .next t ∧ t.resp = .done ∧ State.OnlyRegs s t ∧ t.ringState n = 3 ∧
        State.SameRegsBut s t fun a => a = Reg.calRingCtrl n ∨ a = Reg.calRingStatus n) ∧
    (s.Takes who (Reg.calRingCtrl n) 3 →
      (s.ringState n = 4 →
        ∃ t, exec (.ringResume who n) s = .next t ∧ t.resp = .done ∧ State.OnlyRegs s t ∧ t.ringState n = 1 ∧
          State.SameRegsBut s t fun a => a = Reg.calRingCtrl n ∨ a = Reg.calRingStatus n) ∧
      (∀ e q, s.ringState n = 2 → s.ringQ n = e :: q → s.bit (Reg.calRingCfg n) 14 = false → e.txn = none →
        ∃ t, exec (.ringResume who n) s = .next t ∧ t.ringState n = 1 ∧ t.ringQ n = q ∧
          t.rget (Reg.calRingDone n) = s.rget (Reg.calRingDone n) + 1))) ∧
  (∀ (s : State) (n : Nat), n < 2 → s.ringState n = 3 → s.ringBusy n = false →
    ∃ t, exec (.ringStopped n) s = .next t ∧ t.ringQ n = [] ∧
      t.rget (Reg.calRingHead n) = s.rget (Reg.calRingDone n) ∧
      t.rget (Reg.calRingDone n) = s.rget (Reg.calRingDone n) ∧
      t.ringState n = (if s.bit (Reg.calRingCtrl n) 0 then 4 else 0) ∧ State.SameMemory s t ∧
      State.SameRegsBut s t fun a =>
        a = Reg.calRingHead n ∨ a = Reg.calRingStatus n ∨ a = Reg.latWinStatus n ∨ a = Reg.latWinLead n)

/-! ### Ops of the rings -/

/-- The first op of ring n has ended: it left the queue, and DONE and OP_COUNT moved on (R266). -/
def Retired (s t : State) (n : Nat) : Prop :=
  t.ringQ n = (s.ringQ n).tail ∧ t.rget (Reg.calRingDone n) = s.rget (Reg.calRingDone n) + 1 ∧
    t.rget (Reg.calRingOpCount n) = s.rget (Reg.calRingOpCount n) + 1

/-- DESCRIPTOR_READ: a running or held ring (log entry 32) with a descriptor to read and fewer than 8 ops takes the next one, whatever it holds,
and HEAD moves on; its bytes are those of its slot, and a failing read rejects it (R243, R263). Else nothing changes. -/
def Claims.DescriptorsAreReadInOrder : Prop :=
  ∀ (s : State) (n : Nat), n < 2 →
    (s.mainOn = true → s.ringState n = 1 ∨ s.ringState n = 2 →
      isAfter (s.rget (Reg.calRingTail n)) (s.rget (Reg.calRingHead n)) = true →
      (s.rget (Reg.calRingHead n) - s.rget (Reg.calRingDone n)).toNat < 8 → s.tlg.halted.contains (0x18 + n) = false →
      ∃ t e, exec (.descriptorRead n) s = .next t ∧ t.ringQ n = s.ringQ n ++ [e] ∧
        e.index = s.rget (Reg.calRingHead n) ∧ t.rget (Reg.calRingHead n) = s.rget (Reg.calRingHead n) + 1 ∧
        t.ringQ (1 - n) = s.ringQ (1 - n) ∧
        ∀ x u, s.readDesc ((s.rget (Reg.calRingBaseLo n)).toNat + 2 ^ 32 * s.fget (Reg.calRingBaseHi n) 15 0 +
            128 * ((s.rget (Reg.calRingHead n)).toNat % s.ringSlots n)) = (u, x) →
          match x with
          | .ok d => e.desc = d
          | .error c => e.code = 0x1F ∧ e.ucode = c) ∧
    ((s.ringState n ≠ 1 ∧ s.ringState n ≠ 2) ∨ isAfter (s.rget (Reg.calRingTail n)) (s.rget (Reg.calRingHead n)) = false →
      exec (.descriptorRead n) s = .next s)

/-- NOP, FENCE and REJECTED_OP_END (R261, R262, R264, R268). A ready NOP or FENCE without HOLD ends and applies its
signal; FENCE with HOLD holds its ring and ends nothing; a rejected op ends with its code in the error registers, and
stops the ring where ON_ERROR = 0. -/
def Claims.QuickAndRejectedOpsEnd : Prop :=
  (∀ (s : State) (n : Nat) (e : OpEntry) (c : Instr), n < 2 → s.mainOn = true → s.readyOp n = some e → e.txn = none →
    ((c = .nop n ∧ e.opcode = 0) ∨ (c = .fence n ∧ e.opcode = 1 ∧ descField e.desc 0x40 0 0 = 0)) →
    ∃ t, exec c s = .next t ∧ Retired s t n ∧
      t.rget (Reg.calRingErrCount n) = s.rget (Reg.calRingErrCount n) ∧
      (s.bit (Reg.calRingCfg n) 14 = false → t.ringState n = 1) ∧
      ∀ b g, e.signals n = [(b, g)] → b < 16384 → isProtected b = false →
        t.buckle b = if g.isSet then g.amount else s.buckle b + g.amount) ∧
  (∀ (s : State) (n : Nat) (e : OpEntry), n < 2 → s.mainOn = true → s.readyOp n = some e → e.opcode = 1 →
    descField e.desc 0x40 0 0 = 1 →
    ∃ t, exec (.fence n) s = .next t ∧ t.ringState n = 2 ∧ t.bit (Reg.calRingStatus n) 9 = true ∧ State.OnlyRegs s t ∧
      State.SameRegsBut s t fun a => a = Reg.calRingStatus n) ∧
  (∀ (s : State) (n : Nat) (e : OpEntry) (q : List OpEntry), n < 2 → s.ringState n = 1 → s.ringQ n = e :: q →
    e.code ≠ 0 → s.bit (Reg.calRingCfg n) 14 = false →
    ∃ t, exec (.rejectedOpEnd n) s = .next t ∧ Retired s t n ∧
      t.rget (Reg.calRingLastErr n) =
        toWord (e.code + 256 * (if e.code = 0x1D then 0 else e.unit) + 65536 * e.ucode) ∧
      t.rget (Reg.calRingLastErrIndex n) = e.index ∧ t.bit (Reg.calRingStatus n) 4 = true ∧
      t.rget (Reg.calRingErrCount n) = satAdd (s.rget (Reg.calRingErrCount n)) 1 ∧
      t.ringState n = if s.bit (Reg.calRingCfg n) 13 then 1 else 3)

/-- The ring and the opcode of the commands that issue an op. -/
def issueOf : Instr → Option (Nat × Nat)
  | .matmul n => some (n, 0x10)
  | .conv n => some (n, 0x11)
  | .attnScore n => some (n, 0x20)
  | .attnValue n => some (n, 0x21)
  | .attnMerge n => some (n, 0x22)
  | .attnBwd n => some (n, 0x23)
  | .reelScan n => some (n, 0x30)
  | .eltwise n => some (n, 0x31)
  | .cropResize n => some (n, 0x40)
  | .fetch n => some (n, 0x50)
  | _ => none

/-- MATMUL, CONV, ATTN_SCORE, ATTN_VALUE, ATTN_MERGE, ATTN_BWD, REEL_SCAN, ELTWISE, CROP_RESIZE and FETCH at the issue
slot (R246, R260, R267, R631). The op that the slot serves begins to occupy the Tensor Plane and stays the first of its
ring; one that a drained unit or its transaction keeps from running is finished with that code at once; a breakpoint
that matches fires and nothing begins. Where the slot serves no op of the ring nothing changes. -/
def Obligations.IssuedOpsOccupyThePlane : Prop :=
  ∀ (s : State) (c : Instr) (n opcode : Nat), issueOf c = some (n, opcode) →
    (s.chosenOp n = none → exec c s = .next s) ∧
    (∀ e, s.chosenOp n = some e → e.opcode = opcode → s.obpHits false n e = [] →
      ∃ t r, exec c s = .next t ∧ t.ten.run = some r ∧ r.ring = n ∧ r.golden = none ∧ r.op = e ∧
        r.issueBeat = s.beat ∧ t.ringQ n = s.ringQ n ∧
        (s.issueCode e ≠ (0, 0) → (r.code, r.unit) = s.issueCode e ∧ r.finished = true ∧ State.SameMemory s t)) ∧
    (∀ e, s.chosenOp n = some e → e.opcode = opcode → s.obpHits false n e ≠ [] →
      ∃ t, exec c s = .next t ∧ t.ten.run = none ∧ (∀ k, k ∈ s.obpHits false n e → t.bit (Reg.tlgObpStatus k) 0 = true) ∧
        State.SameMemory s t)

/-- TILE_K_PASS_END and TILE_DRAIN_END (R175 to R179). A K pass of a matrix op whose operands can be read computes the
tile's accumulators into the live set, which swaps into an empty shadow set; a tile of an attention op does the same; a drain empties the shadow
set, counts its tile, and takes a waiting live set; a pass waits while the live set is full. -/
def Claims.TilesPassAndDrain : Prop :=
  (∀ (s u v : State) (r : RunOp) (ns ms : List Line) (ow dw : Nat),
    s.ten.run = some r → r.code = 0 → r.held = false → isMatrix r.op.opcode = true → r.passes < r.op.tiles →
    s.nLines r = some (u, .ok ns) → u.mLines r = (v, .ok ms) →
    ∃ t r' td, exec (.tileKPassEnd ow dw) s = .next t ∧ t.ten.run = some r' ∧ r'.passes = r.passes + 1 ∧
      r'.op = r.op ∧ r'.drained = r.drained ∧
      td.cells = tileCells r.op.path (operandFmt (r.op.tensor 1).fmt) (operandFmt (r.op.tensor 2).fmt) ms ns ∧
      td.cols = ns.length ∧
      (r.shadow = none → r'.shadow = some td ∧ r'.live = .empty ∧ r'.held = false) ∧
      (r.shadow ≠ none → r'.shadow = r.shadow ∧ r'.live = td ∧ r'.held = true)) ∧
  (∀ (s u : State) (r : RunOp) (x : AttnTile) (td : TileData) (ow dw : Nat),
    s.ten.run = some r → r.code = 0 → r.held = false → isMatrix r.op.opcode = false → usesHide r.op.opcode = true →
    s.tango.plan[r.passes]? = some x → r.tileFed s.tango.plan x = true →
    (if x.pass = 0 ∨ x.pass = 2 ∨ x.pass = 3 then s.broadTile r x else s.stripTile r x) = (u, .ok td) →
    ∃ t r', exec (.tileKPassEnd ow dw) s = .next t ∧ t.ten.run = some r' ∧ r'.passes = r.passes + 1 ∧
      r'.op = r.op ∧ r'.drained = r.drained ∧
      (r.shadow = none → r'.shadow = some td ∧ r'.live = .empty ∧ r'.held = false) ∧
      (r.shadow ≠ none → r'.shadow = r.shadow ∧ r'.live = td ∧ r'.held = true)) ∧
  (∀ (s : State) (r : RunOp) (ow dw : Nat), s.ten.run = some r → r.held = true →
    exec (.tileKPassEnd ow dw) s = .next s) ∧
  (∀ (s : State) (r : RunOp) (td : TileData) (corrupt : List (Nat × Nat × Nat)),
    s.ten.run = some r → r.shadow = some td →
    ∃ t r', exec (.tileDrainEnd corrupt) s = .next t ∧ t.ten.run = some r' ∧ r'.op = r.op ∧
      r'.drained = r.drained + 1 ∧ r'.passes = r.passes ∧
      (r.held = false → r'.shadow = none) ∧
      (r'.code = r.code → r.held = true → r'.shadow = some r.live ∧ r'.live = .empty ∧ r'.held = false))

/-- OP_END, OP_OVERRUN and OPERAND_UNCORRECTABLE (R43, R197, R250, R266). An op of which nothing is left leaves the Tensor
Plane, and its ring, and with it ends a power throttle; one that is not finished stays. A golden op changes no ring. An op over the limit is
counted once, and goes on. An uncorrectable operand of a Hide op fails it with unit 1; once it has failed, a parity failure on a drain lane is
still counted. -/
def Claims.OpsEndWhenNothingIsLeft : Prop :=
  (∀ (s : State) (r : RunOp) (ow cycles : Nat) (lat tng : List TenCycle),
    s.ten.run = some r →
    (r.finished = false → exec (.opEnd ow cycles lat tng) s = .next s) ∧
    (r.finished = true → r.shadow = none → r.held = false → r.golden = none → r.ring < 2 →
      ∃ t, exec (.opEnd ow cycles lat tng) s = .next t ∧ t.ten.run = none ∧ t.ten.throttled = none ∧
        Retired s t r.ring) ∧
    (r.finished = true → r.shadow = none → r.held = false → r.golden ≠ none →
      ∃ t, exec (.opEnd ow cycles lat tng) s = .next t ∧ t.ten.run = none ∧ t.ten.throttled = none ∧
        t.ringQ 0 = s.ringQ 0 ∧ t.ringQ 1 = s.ringQ 1)) ∧
  (∀ (s : State) (r : RunOp) (cycles : Nat), s.ten.run = some r → r.golden = none → r.overrun = false → r.ring < 2 →
    (max 1 (s.fget Reg.calOverrunLimit 22 0) < cycles →
      ∃ t, exec (.opOverrun cycles) s = .next t ∧ t.ten.run = some { r with overrun := true } ∧
        t.bit (Reg.calRingStatus r.ring) 8 = true ∧
        t.rget (Reg.calRingOverrunCount r.ring) = satAdd (s.rget (Reg.calRingOverrunCount r.ring)) 1 ∧
        State.SameMemory s t ∧
        State.SameRegsBut s t fun a => a = Reg.calRingStatus r.ring ∨ a = Reg.calRingOverrunCount r.ring) ∧
    (cycles ≤ max 1 (s.fget Reg.calOverrunLimit 22 0) → exec (.opOverrun cycles) s = .next s)) ∧
  (∀ (s : State) (r : RunOp) (parity : Bool), s.ten.run = some r → usesHide r.op.opcode = true → r.code = 0 →
    ∃ t r', exec (.operandUncorrectable parity) s = .next t ∧ t.ten.run = some r' ∧ r'.code = 0x21 ∧ r'.unit = 1 ∧
      r'.ucode = (if parity then 2 else 1) ∧ r'.finished = true ∧ r'.held = false ∧ r'.shadow = r.shadow ∧
      (parity = true → t.rget Reg.hidParityCount = satAdd (s.rget Reg.hidParityCount) 1 ∧ t.bit Reg.hidStatus 10 = true) ∧
      State.SameMemory s t ∧ State.SameRegsBut s t fun a => parity = true ∧ (a = Reg.hidStatus ∨ a = Reg.hidParityCount)) ∧
  (∀ (s : State) (r : RunOp), s.ten.run = some r → usesHide r.op.opcode = true → r.code ≠ 0 → r.shadow ≠ none →
    ∃ t, exec (.operandUncorrectable true) s = .next t ∧ t.ten = s.ten ∧
      t.rget Reg.hidParityCount = satAdd (s.rget Reg.hidParityCount) 1 ∧ t.bit Reg.hidStatus 10 = true ∧
      State.SameRegsBut s t fun a => a = Reg.hidStatus ∨ a = Reg.hidParityCount)

/-- GOLDEN_LATEST_EXPIRY, GOLDEN_RUN_INSERT and GOLDEN (R246, R277, R278): a due run takes the issue slot, run r with set r modulo
the number of sets, then its ops one after the other, and changes no ring; an op that does not pass its checks is reported and the run
goes on. -/
def Claims.GoldenRunsTakeTheSlot : Prop :=
  (∀ s : State, s.bit Reg.calGoldenStatus 0 = true → s.fget Reg.calGoldenCfg 31 16 ≠ 0 →
    s.ten.goldBeat + beatsPerUs * s.fget Reg.calGoldenCfg 31 16 ≤ s.beat →
    ∃ t, exec .goldenLatestExpiry s = .next t ∧ t.ten.goldDue = true ∧ t.ten.run = s.ten.run ∧ t.regs = s.regs ∧
      State.SameMemory s t) ∧
  (∀ s : State, s.mainOn = true → s.ten.run = none → s.ten.goldRun = none → s.fget Reg.tlgStatus 4 2 = 0 →
    s.ten.clockReq = none → s.bit Reg.calGoldenStatus 0 = true → s.ten.goldDue = true →
    ∃ t, exec .goldenRunInsert s = .next t ∧ t.bit Reg.calGoldenStatus 0 = false ∧ t.ten.goldDue = false ∧
      t.ten.goldRun = some (s.ten.goldRuns % (s.fget Reg.calGoldenCfg 13 8 + 1), 0) ∧
      t.ten.goldRuns = s.ten.goldRuns + 1 ∧
      t.fget Reg.calGoldenStatus 13 8 = (s.ten.goldRuns + 1) % (s.fget Reg.calGoldenCfg 13 8 + 1) ∧
      State.SameMemory s t ∧ State.SameRegsBut s t fun a => a = Reg.calGoldenStatus) ∧
  (∀ (s u : State) (set j : Nat) (e : OpEntry), s.ten.goldRun = some (set, j) → s.mainOn = true → s.ten.run = none →
    s.fget Reg.tlgStatus 4 2 = 0 → s.ten.clockReq = none →
    s.readOp 0 ((s.rget Reg.calGoldenBaseLo).toNat + 2 ^ 32 * s.fget Reg.calGoldenBaseHi 15 0 +
      128 * ((s.fget Reg.calGoldenCfg 7 4 + 1) * set + j)) 0 true = (u, e) →
    (e.code = 0 →
      ∃ t r, exec .golden s = .next t ∧ t.ten.run = some r ∧ r.op = e ∧ r.golden = some (set, j) ∧
        t.ringQ 0 = u.ringQ 0 ∧ t.ringQ 1 = u.ringQ 1) ∧
    (e.code ≠ 0 →
      ∃ t, exec .golden s = .next t ∧ t.ten.run = u.ten.run ∧ t.ringQ 0 = u.ringQ 0 ∧ t.ringQ 1 = u.ringQ 1 ∧
        t.ten.goldRun = if j < u.fget Reg.calGoldenCfg 7 4 then some (set, j + 1) else none))

/-- TENSOR_CLOCK_CHANGE and POWER_THROTTLE_START (R41, R43, R615): a requested clock takes effect between ops; a rise needs a Steward
that acts. While an op runs 400 µs past a request for a lower clock the throttle begins, with a share of the cycles that the spec leaves open. -/
def Claims.TensorClockChangesBetweenOps : Prop :=
  ∀ (s : State) (mhz b : Nat), s.ten.clockReq = some (mhz, b) →
    (s.ten.run = none → s.fget Reg.tlgStatus 4 2 = 0 → mhz < 2048 →
      (mhz ≤ s.fget Reg.stwPower 26 16 ∨ s.stewardActs = true) →
      ∃ t, exec .tensorClockChange s = .next t ∧ t.fget Reg.stwPower 26 16 = mhz ∧ t.ten.clockReq = none ∧
        State.SameMemory s t ∧ State.SameRegsBut s t fun a => a = Reg.stwPower) ∧
    (s.ten.run ≠ none → exec .tensorClockChange s = .next s) ∧
    (s.fget Reg.stwPower 26 16 < mhz → s.stewardActs = false → exec .tensorClockChange s = .next s) ∧
    (∀ r, s.ten.run = some r → mhz < s.fget Reg.stwPower 26 16 → b + 400 * beatsPerUs ≤ s.beat →
      ∃ t share, exec .powerThrottleStart s = .next t ∧ t.ten.throttled = some share ∧ share ≤ 1000 ∧ t.ten.run = some r ∧
        t.regs = s.regs ∧ State.SameMemory s t)

/-! ### Streams of the Reel -/

/-- STREAM_CFG_WRITE and STREAM_RESET (R353, R355, R356). While a stream is idle, LEN and EN take the written value and a
rise of EN sets POS to 0; ADDR takes the written value. While it is busy, LEN, EN and ADDR stay, and a write that would
change them sets CFG_REFUSED. STREAM_RESET sets RESET and keeps the configuration. -/
def Obligations.StreamTableFollowsItsWrites : Prop :=
  ∀ (s : State) (who : Initiator) (i : Nat) (v : Word), i < 256 →
    (s.Takes who (Reg.relStrCfg i) v →
      ∃ t, exec (.streamCfgWrite who i false v) s = .next t ∧ t.resp = .done ∧ State.OnlyRegs s t ∧
        (s.bit (Reg.relStrCfg i) 19 = false →
          t.fget (Reg.relStrCfg i) 15 0 = fieldOf v 15 0 ∧ t.bit (Reg.relStrCfg i) 16 = bitOf v 16 ∧
          t.rget (Reg.relStrPos i) =
            if s.bit (Reg.relStrCfg i) 16 = false ∧ bitOf v 16 = true then 0 else s.rget (Reg.relStrPos i)) ∧
        (s.bit (Reg.relStrCfg i) 19 = true →
          t.fget (Reg.relStrCfg i) 16 0 = s.fget (Reg.relStrCfg i) 16 0 ∧
          t.rget (Reg.relStrPos i) = s.rget (Reg.relStrPos i) ∧
          t.bit Reg.relStatus 6 =
            (s.bit Reg.relStatus 6 || decide (fieldOf v 16 0 ≠ s.fget (Reg.relStrCfg i) 16 0))) ∧
        State.SameRegsBut s t fun a => a = Reg.relStrCfg i ∨ a = Reg.relStrPos i ∨ a = Reg.relStatus) ∧
    (s.Takes who (Reg.relStrAddr i) v →
      ∃ t, exec (.streamCfgWrite who i true v) s = .next t ∧ t.resp = .done ∧ State.OnlyRegs s t ∧
        (s.bit (Reg.relStrCfg i) 19 = false → t.fget (Reg.relStrAddr i) 27 6 = fieldOf v 27 6) ∧
        (s.bit (Reg.relStrCfg i) 19 = true →
          t.rget (Reg.relStrAddr i) = s.rget (Reg.relStrAddr i) ∧ t.bit Reg.relStatus 6 = true) ∧
        State.SameRegsBut s t fun a => a = Reg.relStrAddr i ∨ a = Reg.relStatus) ∧
    (s.Takes who (Reg.relStrCfg i) (toWord (s.fget (Reg.relStrCfg i) 17 0 + 2 ^ 18)) →
      ∃ t, exec (.streamReset who i) s = .next t ∧ t.resp = .done ∧ State.OnlyRegs s t ∧
        t.bit (Reg.relStrCfg i) 18 = true ∧ t.fget (Reg.relStrCfg i) 17 0 = s.fget (Reg.relStrCfg i) 17 0 ∧
        State.SameRegsBut s t fun a => a = Reg.relStrCfg i)

/-! ### The time base, triggers and captures -/

/-- The command of a time step by MODE. -/
def stepCommand (who : Initiator) : Nat → Instr
  | 0 => .timeStepSet who
  | 1 => .timeStepAdd who
  | _ => .timeStepSubtract who

/-- TIME_RATE_WRITE, TIME_STEP_SET, _ADD and _SUBTRACT, TIME_STEP_APPLY (R380, R382, R700). RATE applies within its limit;
a step waits for the second beat boundary, or is refused for its nanoseconds; when it is due the time base takes the
stepped value, or the step is refused where that lies outside the seconds field. -/
def Claims.TimeStepsAndRate : Prop :=
  (∀ (s : State) (who : Initiator) (v : Word), s.Takes who Reg.tmbRateHi v →
    ∃ t, exec (.timeRateWrite who v) s = .next t ∧ t.resp = .done ∧
      (∀ raw, raw = sext 40 ((s.rget Reg.tmbRateLo).toNat + fieldOf v 7 0 * 2 ^ 32) →
        t.tmb.rate = max (-rateLimit) (min rateLimit raw) ∧
        t.bit Reg.tmbStatus 1 = (s.bit Reg.tmbStatus 1 || decide (raw < -rateLimit ∨ rateLimit < raw))) ∧
      State.SameMemory s t ∧ State.SameRegsBut s t fun a => a = Reg.tmbRateHi ∨ a = Reg.tmbStatus) ∧
  (∀ (s : State) (who : Initiator) (mode : Nat), mode < 3 → s.Takes who Reg.tmbStepGo (toWord mode) →
    (s.fget Reg.tmbStepNs 29 0 ≤ 999999999 →
      ∃ t, exec (stepCommand who mode) s = .next t ∧ t.resp = .done ∧
        t.tmb.steps = s.tmb.steps ++ [⟨mode, s.get64 Reg.tmbStepSecLo, s.fget Reg.tmbStepNs 29 0, s.beat + 2⟩] ∧
        t.regs = s.regs ∧ State.SameMemory s t) ∧
    (999999999 < s.fget Reg.tmbStepNs 29 0 →
      ∃ t, exec (stepCommand who mode) s = .next t ∧ t.bit Reg.tmbStatus 3 = true ∧ t.tmb.steps = s.tmb.steps ∧
        State.OnlyRegs s t ∧ State.SameRegsBut s t fun a => a = Reg.tmbStatus)) ∧
  (∀ (s : State) (mode sec ns : Nat), s.tmb.steps = [⟨mode, sec, ns, s.beat⟩] →
    (∀ u, s.steppedTime mode sec ns = some u →
      ∃ t, exec .timeStepApply s = .next t ∧ t.timeUnits = u ∧ t.bit Reg.tmbStatus 2 = true ∧ t.tmb.steps = [] ∧
        t.rget Reg.tmbStepCount = satAdd (s.rget Reg.tmbStepCount) 1 ∧ t.beat = s.beat ∧ State.SameMemory s t) ∧
    (s.steppedTime mode sec ns = none →
      ∃ t, exec .timeStepApply s = .next t ∧ t.timeUnits = s.timeUnits ∧ t.bit Reg.tmbStatus 3 = true ∧ t.tmb.steps = [] ∧
        State.SameMemory s t ∧ State.SameRegsBut s t fun a => a = Reg.tmbStatus))

/-- Nothing of this beat waits for its end: no step, snapshot or hand-over is due (R700), no loop has an output or an entry to OFF that is
due (R447, R463), no trace record waits (R639), and no main reset was asked for (R686). -/
def nothingDue (s : State) : Prop :=
  (∀ r ∈ s.tmb.steps, r.due ≠ s.beat) ∧ (∀ r ∈ s.snaps, r.latchBeat ≠ s.beat ∨ r.latched.isSome = true) ∧
    (∀ h, s.stp.handover = some h → h.2 ≠ s.beat) ∧
    (∀ l, (s.loop l).off = false ∧ ∀ p ∈ (s.loop l).steps, s.beat < p.due) ∧ s.tlg.trcBeat = [] ∧ s.pwr.asked = []

/-- BEAT (R379, R381, R384): the beat count rises by one and the time base by the increment, and what the block keeps of one beat is gone;
while the beat is stopped neither moves. EVT_LOCK_LOSS and EVT_LOCK_REGAIN: EVT_LOCK follows, and the beat stops with its reference. -/
def Claims.BeatsAdvanceTheTime : Prop :=
  (∀ (s : State) (upsets : List ErrFinding) (lat tng : List TenCycle), nothingDue s →
    ∃ t, exec (.beat upsets lat tng) s = .next t ∧
      (s.tmb.started = true → s.tmb.stopped = false →
        s.timeUnits + s.increment < 2 ^ 64 * 1000000000 * nsUnits →
        t.beat = (s.beat + 1) % 2 ^ 64 ∧ t.timeUnits = s.timeUnits + s.increment ∧
          t.touched = [] ∧ t.committed = [] ∧ t.landed = [] ∧ t.order = 0) ∧
      (s.tmb.stopped = true → t.beat = s.beat ∧ t.timeUnits = s.timeUnits) ∧
      (s.mainOn = false → State.SameMemory s t ∧ ∀ e ∈ upsets, s.suspect e.word = false → e ∈ t.upsets)) ∧
  (∀ (s : State) (reference : Bool),
    ∃ t, exec (.evtLockLoss reference) s = .next t ∧ t.bit Reg.tmbStatus 0 = false ∧ t.tmb.stopped = !reference ∧
      t.beat = s.beat ∧ t.timeUnits = s.timeUnits ∧ State.SameMemory s t ∧
      State.SameRegsBut s t fun a => a = Reg.tmbStatus) ∧
  (∀ s : State,
    ∃ t, exec .evtLockRegain s = .next t ∧ t.bit Reg.tmbStatus 0 = true ∧ t.tmb.stopped = false ∧ t.beat = s.beat ∧
      t.timeUnits = s.timeUnits ∧ State.SameMemory s t ∧ State.SameRegsBut s t fun a => a = Reg.tmbStatus)

/-- PPS (R386): the output rises in the beat of a whole second and falls after OUT_WIDTH_US; a selected edge of PPS_IN is
stamped and counted. -/
def Claims.PpsPulsesAndStamps : Prop :=
  (∀ s : State, s.beating = true → s.bit Reg.tmbPpsCfg 0 = true → s.secondInBeat = true →
    ∃ t, exec .ppsOutPulse s = .next t ∧ t.tmb.ppsHigh = some s.beat ∧ t.regs = s.regs ∧ State.SameMemory s t) ∧
  (∀ (s : State) (b : Nat), s.tmb.ppsHigh = some b →
    b + beatsPerUs * max 1 (s.fget Reg.tmbPpsCfg 23 8) ≤ s.beat →
    ∃ t, exec .ppsOutPulseEnd s = .next t ∧ t.tmb.ppsHigh = none ∧ t.regs = s.regs ∧ State.SameMemory s t) ∧
  (∀ (s : State) (falling : Bool) (after : Nat), s.beating = true → s.placeOpen 5 = true → s.bit Reg.tmbPpsCfg 1 = true →
    s.bit Reg.tmbPpsCfg 2 = falling →
    ∃ t, exec (.ppsInEdge falling after) s = .next t ∧
      t.rget Reg.tmbPpsInNs = toWord ((s.timeUnits + after) / nsUnits % 1000000000) ∧
      t.rget Reg.tmbPpsInSecLo = toWord ((s.timeUnits + after) / nsUnits / 1000000000) ∧
      t.rget Reg.tmbPpsInCount = s.rget Reg.tmbPpsInCount + 1 ∧ t.bit Reg.tmbStatus 7 = true ∧ State.SameMemory s t ∧
      State.SameRegsBut s t fun a =>
        a = Reg.tmbPpsInNs ∨ a = Reg.tmbPpsInSecLo ∨ a = Reg.tmbPpsInSecHi ∨ a = Reg.tmbPpsInCount ∨ a = Reg.tmbStatus)

/-- The command that writes a trigger's configuration with a MODE. -/
def trigCommand (who : Initiator) (n : Nat) (cfg : Word) : Nat → Instr
  | 0 => .triggerDisarm who n cfg
  | 1 => .triggerArmSingle who n cfg
  | 2 => .triggerArmPeriodic who n cfg
  | 3 => .triggerArmSet who n cfg
  | _ => .triggerArmClear who n cfg

/-- Does trigger n meet the conditions of MODE `mode`, with COUNT_EN as in `cfg` (R391). -/
def trigConditions (s : State) (n mode : Nat) (cfg : Word) : Prop :=
  ((mode = 1 ∨ mode = 2) → 8 ≤ (s.rget (Reg.tmbTrgWidth n)).toNat) ∧
    (mode = 2 → (s.rget (Reg.tmbTrgWidth n)).toNat + 8 ≤ (s.rget (Reg.tmbTrgPeriod n)).toNat) ∧
    (mode = 2 → bitOf cfg 6 = true → 1 ≤ (s.rget (Reg.tmbTrgCount n)).toNat)

/-- The registers of trigger n, and TMB_STATUS. -/
def ofTrigger (n a : Nat) : Prop := (Reg.tmbTrgCfg n ≤ a ∧ a < Reg.tmbTrgCfg n + 0x40) ∨ a = Reg.tmbStatus

/-- TRIGGER_ARM_SINGLE, _PERIODIC, _SET, _CLEAR and TRIGGER_DISARM (R390 to R392): a trigger arms against no condition of
its mode and with TARGET not passed; else it sets MISSED and does not arm; a PERIODIC one without COUNT_EN moves a
passed TARGET on and arms; MODE 0 disarms. -/
def Claims.TriggersArmUnderTheirConditions : Prop :=
  ∀ (s : State) (who : Initiator) (n mode : Nat) (cfg : Word), n < 16 → mode < 5 →
    s.Takes who (Reg.tmbTrgCfg n) (trgWord cfg mode) →
    ∃ t, exec (trigCommand who n cfg mode) s = .next t ∧ t.resp = .done ∧
      (mode = 0 → t.bit (Reg.tmbTrgStatus n) 0 = false ∧ t.fget (Reg.tmbTrgCfg n) 2 0 = 0) ∧
      (1 ≤ mode → trigConditions s n mode cfg → s.timeUnits ≤ (s.trig n).target * nsUnits →
        t.bit (Reg.tmbTrgStatus n) 0 = true ∧ t.fget (Reg.tmbTrgCfg n) 2 0 = mode ∧ (t.trig n).armBeat = s.beat ∧
          (t.trig n).target = (s.trig n).target) ∧
      (1 ≤ mode → ¬ trigConditions s n mode cfg →
        t.bit (Reg.tmbTrgStatus n) 0 = false ∧ t.bit (Reg.tmbTrgStatus n) 2 = true ∧ t.bit Reg.tmbStatus 4 = true) ∧
      (1 ≤ mode → mode ≠ 2 → (s.trig n).target * nsUnits < s.timeUnits →
        t.bit (Reg.tmbTrgStatus n) 0 = false ∧ t.bit (Reg.tmbTrgStatus n) 2 = true) ∧
      (mode = 2 → trigConditions s n mode cfg → bitOf cfg 6 = false → (s.trig n).target * nsUnits < s.timeUnits →
        t.bit (Reg.tmbTrgStatus n) 0 = true ∧ t.bit (Reg.tmbTrgStatus n) 2 = true ∧
          s.timeUnits ≤ (t.trig n).target * nsUnits) ∧
      State.SameMemory s t ∧ State.SameRegsBut s t (ofTrigger n)

/-- The registers of stream n, its counters, and ING_STATUS. -/
def ofStream (n a : Nat) : Prop :=
  (Reg.ingStrCfg n ≤ a ∧ a < Reg.ingStrCfg n + 0x40) ∨ a = Reg.ingStrDropCount n ∨ a = Reg.ingStrErrCount n ∨
    a = Reg.ingStatus

/-- TRIGGER_TARGET_WRITE applies TARGET, and an armed trigger stays armed under one that has not passed (R9, R703).
TRIGGER_MATCH of a SINGLE, SET or CLEAR trigger in its beat drives the output, disarms, counts, and signals its buckle
(R390, R394), and starts the SPI streams that name it (R398); a trigger that does not match changes nothing. TRIGGER_PULSE_END drives
the output back in the beat of the pulse's end (R391). -/
def Claims.TriggersMatchTheirTarget : Prop :=
  (∀ (s : State) (who : Initiator) (n : Nat) (v : Word), n < 16 → s.Takes who (Reg.tmbTrgTgtSecHi n) v →
    ∃ t, exec (.triggerTargetWrite who n v) s = .next t ∧ t.resp = .done ∧
      (∀ target, target = ((s.rget (Reg.tmbTrgTgtSecLo n)).toNat + 2 ^ 32 * v.toNat) * 1000000000 +
          s.fget (Reg.tmbTrgTgtNs n) 29 0 →
        (s.bit (Reg.tmbTrgStatus n) 0 = false ∨ s.timeUnits ≤ target * nsUnits) →
        (t.trig n).target = target ∧ t.bit (Reg.tmbTrgStatus n) 0 = s.bit (Reg.tmbTrgStatus n) 0 ∧
          t.rget (Reg.tmbTrgTgtSecHi n) = v) ∧
      State.SameMemory s t ∧ State.SameRegsBut s t (ofTrigger n)) ∧
  (∀ (s : State) (n : Nat), s.trigMatches n = false → exec (.triggerMatch n) s = .next s) ∧
  (∀ (s : State) (n : Nat), s.trigMatches n = true → s.trigMode n ≠ 2 →
    ∃ t, exec (.triggerMatch n) s = .next t ∧ t.bit (Reg.tmbTrgStatus n) 0 = false ∧ t.fget (Reg.tmbTrgCfg n) 2 0 = 0 ∧
      t.bit (Reg.tmbTrgStatus n) 1 = decide (s.trigMode n ≠ 4) ∧ t.bit (Reg.tmbTrgStatus n) 4 = true ∧
      t.rget (Reg.tmbTrgMatches n) = s.rget (Reg.tmbTrgMatches n) + 1 ∧
      (s.bit (Reg.tmbTrgCfg n) 5 = true → s.mainOn = true →
        t.buckle (s.fget (Reg.tmbTrgBkl n) 13 0) = s.buckle (s.fget (Reg.tmbTrgBkl n) 13 0) + 1) ∧
      (s.bit (Reg.tmbTrgCfg n) 5 = false →
        State.SameRegsBut s t fun a => ofTrigger n a ∨ ∃ k ∈ s.spiStreams 0 n, ofStream k a) ∧ State.SameMemory s t) ∧
  (∀ (s : State) (n e : Nat), n < 16 → (s.trig n).pulse = some e → s.beating = true →
    (e / 8 = s.beat →
      ∃ t, exec (.triggerPulseEnd n) s = .next t ∧ t.bit (Reg.tmbTrgStatus n) 1 = false ∧ (t.trig n).pulse = none ∧
        State.SameMemory s t ∧ State.SameRegsBut s t fun a => a = Reg.tmbTrgStatus n) ∧
    (e / 8 ≠ s.beat → exec (.triggerPulseEnd n) s = .next s))

/-- CAPTURE_EDGE, CAPTURE_ENQUEUE and CAPTURE_POP (R395 to R398). A selected edge is stamped, to be seen at the end of the
second beat from its own, and starts a read of the SPI streams that name the input; one that finds the queue full, or a second one of its kind
in a beat, is lost and counted; an edge that EDGE does not select changes nothing. DEPTH follows the queue. -/
def Claims.CapturesQueueTheirEdges : Prop :=
  (∀ (s : State) (n : Nat) (falling : Bool) (after : Nat), n < 16 → s.beating = true → s.placeOpen 5 = true →
    (s.captureSelects n falling = false → exec (.captureEdge n falling after) s = .next s) ∧
    (s.captureSelects n falling = true → s.captureFull n falling = false →
      ∃ t, exec (.captureEdge n falling after) s = .next t ∧ (t.capture n).queue = (s.capture n).queue ∧
        (t.capture n).flight = (s.capture n).flight ++
          [(⟨(s.timeUnits + after) / nsUnits, falling, after⟩, s.beat + 2)] ∧
        (s.spiStreams 1 n = [] → t.regs = s.regs) ∧
        (∀ k, s.spiStreams 1 n = [k] → s.strState k = 1 → ∃ x, (t.stream k).spiStarts =
          (s.stream k).spiStarts ++ [⟨(s.timeUnits + after) / nsUnits, s.beat, x⟩]) ∧ State.SameMemory s t) ∧
    (s.captureSelects n falling = true → s.captureFull n falling = true →
      ∃ t, exec (.captureEdge n falling after) s = .next t ∧
        t.rget (Reg.tmbCapLost n) = satAdd (s.rget (Reg.tmbCapLost n)) 1 ∧ t.bit (Reg.tmbCapStatus n) 5 = true ∧
        t.capture n = s.capture n ∧ State.SameMemory s t ∧
        State.SameRegsBut s t fun a => a = Reg.tmbCapLost n ∨ a = Reg.tmbCapStatus n ∨ a = Reg.tmbStatus)) ∧
  (∀ (s : State) (n : Nat) (x : Stamp), n < 16 → (s.capture n).flight = [(x, s.beat)] →
    (s.capture n).queue.length < 16 → s.bit (Reg.tmbCapCfg n) 3 = false →
    ∃ t, exec (.captureEnqueue n) s = .next t ∧ (t.capture n).queue = (s.capture n).queue ++ [x] ∧
      (t.capture n).flight = [] ∧ t.fget (Reg.tmbCapStatus n) 4 0 = (s.capture n).queue.length + 1 ∧
      State.SameMemory s t ∧
      State.SameRegsBut s t fun a =>
        a = Reg.tmbCapStatus n ∨ a = Reg.tmbCapHeadNs n ∨ a = Reg.tmbCapHeadSecLo n ∨ a = Reg.tmbCapHeadSecHi n) ∧
  (∀ (s : State) (who : Initiator) (n : Nat), n < 16 → s.Takes who (Reg.tmbCapPop n) 1 →
    (s.capture n).queue.length ≤ 16 →
    ∃ t, exec (.capturePop who n) s = .next t ∧ t.resp = .done ∧ (t.capture n).queue = (s.capture n).queue.tail ∧
      t.fget (Reg.tmbCapStatus n) 4 0 = (s.capture n).queue.length - 1 ∧ State.SameMemory s t ∧
      State.SameRegsBut s t fun a =>
        a = Reg.tmbCapStatus n ∨ a = Reg.tmbCapHeadNs n ∨ a = Reg.tmbCapHeadSecLo n ∨ a = Reg.tmbCapHeadSecHi n)

/-! ### Sensor ingress -/

/-- The open frame of stream n was discarded: it counts as an error, and no byte changes (R403). -/
def FrameDiscarded (s t : State) (n : Nat) : Prop :=
  t.rget (Reg.ingStrErrCount n) = satAdd (s.rget (Reg.ingStrErrCount n)) 1 ∧ t.bit (Reg.ingStrStatus n) 4 = true ∧
    State.SameMemory s t ∧ State.SameRegsBut s t (ofStream n)

/-- CSI2_FRAME_START, CSI2_LINE, CSI2_FRAME_END and CAMERA_TIMEOUT_EXPIRY of a running camera stream (R398, R399, R402,
R403): a frame starts with the time of its beat where a buffer is free and is dropped where none is; a line of the
right length goes into its buffer and counts, another one discards the frame; the frame is complete with its last line,
and discarded when it is short or late. While the beat is stopped nothing is stamped (R381, R384). -/
def Claims.CameraFramesCollectTheirLines : Prop :=
  ∀ (s : State) (port vc n : Nat), n < 40 → s.cameras port vc = [n] → s.strState n = 1 →
    (s.beating = false → exec (.csi2FrameStart port vc) s = .next s) ∧
    (s.beating = true → (s.stream n).open? = none →
      (s.bufferFree n = true →
        ∃ t f, exec (.csi2FrameStart port vc) s = .next t ∧ (t.stream n).open? = some f ∧ f.startNs = s.timeNs ∧
          f.startBeat = s.beat ∧ f.units = 0 ∧ f.dead = false ∧ t.regs = s.regs ∧ State.SameMemory s t) ∧
      (s.bufferFree n = false →
        ∃ t f, exec (.csi2FrameStart port vc) s = .next t ∧ (t.stream n).open? = some f ∧ f.dead = true ∧
          t.rget (Reg.ingStrDropCount n) = satAdd (s.rget (Reg.ingStrDropCount n)) 1 ∧
          t.bit (Reg.ingStrStatus n) 5 = true ∧ State.SameMemory s t ∧ State.SameRegsBut s t (ofStream n))) ∧
    ∀ f, (s.stream n).open? = some f → f.dead = false →
      (∀ (dt len : Nat) (payload : List Byte) (u : State), dt = s.fget (Reg.ingStrSrc n) 13 8 → dt ∈ cameraTypes →
        len = lineBytes dt (s.fget (Reg.ingStrGeom n) 15 0) →
        (payload.length = len → f.units < s.fget (Reg.ingStrGeom n) 31 16 →
          s.frameStore n f (f.units * (ceilDiv len 64 * 64)) payload = (u, true) →
          ∃ t, exec (.csi2Line port vc dt payload true true) s = .next t ∧
            (t.stream n).open? = some { f with
              units := f.units + 1, bytes := f.bytes + payload.length, lastNs := u.timeNs } ∧
            State.SameMemory u t ∧ t.regs = u.regs) ∧
        (payload.length ≠ len →
          ∃ t, exec (.csi2Line port vc dt payload true true) s = .next t ∧
            (t.stream n).open? = some { f with dead := true } ∧ FrameDiscarded s t n)) ∧
      (f.units = s.fget (Reg.ingStrGeom n) 31 16 →
        ∃ t, exec (.csi2FrameEnd port vc) s = .next t ∧ (t.stream n).open? = none ∧
          (t.stream n).done = (s.stream n).done ++ [{ f with doneBeat := s.beat }] ∧ t.regs = s.regs ∧
          State.SameMemory s t) ∧
      (f.units ≠ s.fget (Reg.ingStrGeom n) 31 16 →
        ∃ t, exec (.csi2FrameEnd port vc) s = .next t ∧ (t.stream n).open? = none ∧ FrameDiscarded s t n) ∧
      (s.strType n = 0 → f.startBeat + beatsPerUs * max 1 (s.fget (Reg.ingStrAux n) 23 0) ≤ s.beat →
        ∃ t, exec (.cameraTimeoutExpiry n) s = .next t ∧ (t.stream n).open? = none ∧ FrameDiscarded s t n)

/-- A unit of `k` bytes with time `ns` was added to the open frame f of stream n in state u, or completed it as the last of
`need` (R398, R403). -/
def UnitAdded (s u t : State) (n need k ns : Nat) (f : RawFrame) : Prop :=
  (need ≤ f.units + 1 →
    (t.stream n).open? = none ∧
      ∃ g ∈ (t.stream n).done, g.units = f.units + 1 ∧ g.bytes = f.bytes + k ∧ g.startNs = f.startNs ∧ g.lastNs = ns) ∧
    (f.units + 1 < need →
      (∃ g, (t.stream n).open? = some g ∧ g.units = f.units + 1 ∧ g.bytes = f.bytes + k ∧ g.startNs = f.startNs ∧
        g.lastNs = ns ∧ g.dead = false) ∧ (t.stream n).done = (s.stream n).done) ∧
    State.SameMemory u t ∧ t.regs = u.regs

/-- ETH_STREAM_PACKET, AUDIO_SAMPLE and SPI_STREAM_READ_DONE add a unit to the open frame of their stream, which is
complete with its last unit; ETH_GAP_EXPIRY completes one early, as INCOMPLETE, once GAP_US have passed; TDM_FSYNC_LOSS discards it (R398, R403).
A range-point copy is not at issue here. -/
def Claims.UnitStreamsCollectTheirFrames : Prop :=
  ∀ (s : State) (n : Nat) (f : RawFrame), n < 40 → s.strState n = 1 → (s.stream n).open? = some f → f.dead = false →
    (∀ (port kind value sec ns : Nat) (rest : List Nat) (payload : List Byte) (u : State),
      s.ethStreams port kind value = n :: rest → s.bit (Reg.ingStrCfg n) 8 = false →
      s.frameStore n f f.bytes (unitRecord (sec * 1000000000 + ns) 0 payload) = (u, true) →
      ∃ t, exec (.ethStreamPacket port kind value sec ns payload) s = .next t ∧
        UnitAdded s u t n (s.fget (Reg.ingStrGeom n) 12 0) (unitRecord (sec * 1000000000 + ns) 0 payload).length
          (sec * 1000000000 + ns) f) ∧
    (s.strType n = 1 → 1 ≤ f.units → f.lastBeat + beatsPerUs * max 1 (s.fget (Reg.ingStrAux n) 23 0) ≤ s.beat →
      ∃ t, exec (.ethGapExpiry n) s = .next t ∧ (t.stream n).open? = none ∧
        (t.stream n).done = (s.stream n).done ++ [{ f with incomplete := true, doneBeat := s.beat }] ∧
        t.regs = s.regs ∧ State.SameMemory s t) ∧
    (∀ (source bits time : Nat) (rate48 : Bool) (slots : List Nat) (bs : List Byte) (u : State),
      s.audioStreams source = [n] →
      bs = ((List.range (s.fget (Reg.ingStrSrc n) 11 8 + 1)).map fun c =>
        natToBytes 4 (sampleQ31 bits (slots.getD (s.fget (Reg.ingStrSrc n) 19 16 + c) 0)).toNat).flatten →
      s.frameStore n f (4 * (s.fget (Reg.ingStrSrc n) 11 8 + 1) * f.units) bs = (u, true) →
      ∃ t, exec (.audioSample source bits time rate48 slots) s = .next t ∧
        UnitAdded s u t n (s.fget (Reg.ingStrGeom n) 15 0) bs.length time f) ∧
    (∀ port, port < 2 → s.audioStreams port = [n] →
      ∃ t, exec (.tdmFsyncLoss port) s = .next t ∧ (t.stream n).open? = none ∧ FrameDiscarded s t n) ∧
    ∀ (csTime : Nat) (r : SpiRead) (rs : List SpiRead) (payload : List Byte) (u : State),
      (s.stream n).spiStarts = r :: rs → payload.length = s.fget (Reg.ingStrAux n) 30 24 →
      (s.putStream n { s.stream n with spiStarts := rs, mosi := s.spiCommand n }).frameStore n f f.bytes (unitRecord csTime 0 payload) =
        (u, true) →
      ∃ t, exec (.spiStreamReadDone n csTime payload) s = .next t ∧
        UnitAdded s u t n (s.fget (Reg.ingStrGeom n) 15 0) (unitRecord csTime 0 payload).length csTime f ∧
        (t.stream n).spiStarts = rs

/-- FRAME_CONDITION_START and FRAME_DELIVER (R399, R401, R410). The free conditioner takes the oldest complete frame of its
streams and writes the pyramid of its profile; a frame is delivered with its record, SEQ moves on, and FRAME_BKL shows
it. -/
def Claims.FramesAreConditionedAndDelivered : Prop :=
  (∀ s : State, s.ing.cond = none → s.nextRaw = none → exec .frameConditionStart s = .next s) ∧
  (∀ (s u v : State) (n i : Nat) (f : RawFrame) (fs : List RawFrame) (raw : List (List Nat)) (bs : List Byte),
    s.ing.cond = none → s.nextRaw = some n → (s.stream n).done = f :: fs →
    (s.putStream n { s.stream n with done := fs }).rawLines n f = (u, some raw) →
    bs = pyramid (u.profile (u.fget (Reg.ingStrCfg n) 7 5)) raw (u.fget (Reg.ingStrGeom n) 31 16)
      (u.fget (Reg.ingStrGeom n) 15 0) →
    i = (u.rget (Reg.ingStrSeq n)).toNat % u.nbuf n → bs.length ≤ u.fget (Reg.ingStrOutSize n) 15 0 * 4096 →
    u.engineStore .ingress (u.outAddr n i) bs = (v, true) →
    ∃ t, exec .frameConditionStart s = .next t ∧ t.ing.cond = some (n, { f with index := i, bytes := bs.length }) ∧
      t.bit Reg.ingStatus 7 = true ∧ State.SameMemory v t) ∧
  (∀ (s u : State) (n : Nat) (f : RawFrame) (fs : List RawFrame), n < 40 → s.ing.cond = none → s.strCond n = false →
    s.strState n = 1 → (s.stream n).done = f :: fs → f.startNs ≤ f.lastNs →
    f.index = (s.rget (Reg.ingStrSeq n)).toNat % s.nbuf n →
    (s.putStream n { s.stream n with done := fs }).engineStore .ingress
      (s.get64 (Reg.ingStrRecLo n) + 64 * ((s.rget (Reg.ingStrSeq n)).toNat % s.nbuf n))
      (frameRecord n (s.rget (Reg.ingStrSeq n)).toNat (s.stream n).dropped (min 0xFFFFFFFF (f.lastNs - f.startNs)) f) =
        (u, true) →
    ∃ t, exec (.frameDeliver n) s = .next t ∧ t.rget (Reg.ingStrSeq n) = s.rget (Reg.ingStrSeq n) + 1 ∧
      (t.stream n).done = fs ∧ (t.stream n).dropped = 0 ∧ State.SameMemory u t ∧
      (s.mainOn = true →
        t.buckle (s.fget (Reg.ingStrBkl n) 13 0) = s.rget (Reg.ingStrSeq n) + 1))

/-- ING_RELEASE_WRITE, STREAM_ENABLE, STREAM_DISABLE and INGRESS_DISABLE (R400, R405, R406). RELEASE takes the written
value unless a buckle holds it; an OFF stream that meets the conditions runs, from SEQ 0, and is refused else; a stream
without a frame in work stops at once, one with an open frame finishes it; a disabled ingress lets every stream stop and
is DRAINED when all are OFF. -/
def Claims.StreamsStartAndStop : Prop :=
  (∀ (s : State) (who : Initiator) (n : Nat) (v : Word), n < 40 → s.Takes who (Reg.ingStrRelease n) v →
    ∃ t, exec (.ingReleaseWrite who n v) s = .next t ∧ t.resp = .done ∧ State.OnlyRegs s t ∧
      t.rget (Reg.ingStrRelease n) = (if s.bit (Reg.ingStrCfg n) 14 then s.rget (Reg.ingStrRelease n) else v) ∧
      State.SameRegsBut s t fun a => a = Reg.ingStrRelease n) ∧
  (∀ (s : State) (who : Initiator) (n : Nat) (cfg : Word), n < 40 → s.strState n = 0 →
    s.Takes who (Reg.ingStrCfg n) (withField cfg 0 0 1) →
    (s.strEnableOk n (withField cfg 0 0 1) = true →
      ∃ t, exec (.streamEnable who n cfg) s = .next t ∧ t.resp = .done ∧ t.strState n = 1 ∧
        t.bit (Reg.ingStrCfg n) 0 = true ∧ t.strType n = fieldOf cfg 3 1 ∧ t.rget (Reg.ingStrSeq n) = 0 ∧
        t.stream n = StreamRun.idle ∧ State.SameMemory s t ∧ State.SameRegsBut s t (ofStream n)) ∧
    (s.strEnableOk n (withField cfg 0 0 1) = false →
      ∃ t, exec (.streamEnable who n cfg) s = .next t ∧ t.bit (Reg.ingStrStatus n) 7 = true ∧ t.strState n = 0 ∧
        State.OnlyRegs s t ∧ State.SameRegsBut s t fun a => a = Reg.ingStrStatus n)) ∧
  (∀ (s : State) (who : Initiator) (n : Nat) (cfg : Word), n < 40 → s.strState n = 1 →
    s.Takes who (Reg.ingStrCfg n) (withField cfg 0 0 0) →
    ((s.stream n).open? = none → (s.stream n).done = [] → (s.stream n).spiStarts = [] → (∀ c ∈ s.ing.cond, c.1 ≠ n) →
      ∃ t, exec (.streamDisable who n cfg) s = .next t ∧ t.resp = .done ∧ t.strState n = 0 ∧
        t.bit (Reg.ingStrStatus n) 6 = true ∧ t.bit (Reg.ingStrCfg n) 0 = false ∧ State.SameMemory s t ∧
        State.SameRegsBut s t (ofStream n)) ∧
    (∀ f, (s.stream n).open? = some f → f.dead = false →
      ∃ t, exec (.streamDisable who n cfg) s = .next t ∧ t.resp = .done ∧ t.strState n = 2 ∧ t.stream n = s.stream n ∧
        State.SameMemory s t ∧ State.SameRegsBut s t (ofStream n))) ∧
  (∀ (s : State) (who : Initiator), s.Takes who Reg.ingCtrl 0 →
    ∃ t, exec (.ingressDisable who) s = .next t ∧ t.resp = .done ∧ t.bit Reg.ingCtrl 0 = false ∧
      (∀ n, n < 40 → t.strState n ≠ 1) ∧
      ((∀ n, n < 40 → s.strState n = 0) → t.fget Reg.ingStatus 1 0 = 3 ∧ t.bit Reg.ingStatus 6 = true) ∧
      State.SameMemory s t)

/-! ### Quadrille -/

/-- The type of the job that a command starts. -/
def jobOf : Instr → Option Nat
  | .qdrJobNop => some 0
  | .project => some 1
  | .gridClear => some 2
  | .rangeVote => some 3
  | .associate => some 4
  | .predict => some 5
  | .publish => some 6
  | _ => none

/-- The `n` bytes at `a` can be read, and no error stands in their words. -/
def readsClean (s : State) (a n : Nat) : Prop :=
  s.readable a = true ∧ s.readable (a + (n - 1)) = true ∧ ∀ w ∈ dwordsOf a n, s.suspect w = false

/-- QDR_JOB_NOP, PROJECT, GRID_CLEAR, RANGE_VOTE, ASSOCIATE, PREDICT and PUBLISH (R413, R420 to R423, R425, R428, R432 to R436, R439): the
job at HEAD starts where it may and has the command's type, and Quadrille is BUSY with it; an invalid descriptor or a COUNT out of
range gives its code. PROJECT adds a point to its cell of the accumulator, RANGE_VOTE votes along its line; GRID_CLEAR empties the grid;
ASSOCIATE and PREDICT compute the next table; PUBLISH without a free buffer skips. Else nothing changes. -/
def Claims.QuadrilleStartsItsJobs : Prop :=
  ∀ (s : State) (c : Instr) (k : Nat), jobOf c = some k →
    (s.qdrNext = none → exec c s = .next s) ∧
    ∀ d, s.qdrNext = some d →
      (qJob d ≠ k → exec c s = .next s) ∧
      (qJob d = k →
        ∃ t j, exec c s = .next t ∧ t.qdr.job = some j ∧ j.index = s.rget Reg.qdrRingHead ∧ j.kind = k ∧ j.desc = d ∧
          j.start = s.beat ∧ t.qdrState = 1 ∧ t.qdr.tracks = s.qdr.tracks ∧
          (qValid d = false → j.code = 1 ∧ j.cycles = 0 ∧ t.qdr = { s.qdr with job := some j } ∧ State.SameMemory s t ∧
            State.SameRegsBut s t fun a => a = Reg.qdrStatus) ∧
          (qValid d = true → k = 0 → j.code = 0 ∧ j.cycles = 64 ∧ t.qdr = { s.qdr with job := some j } ∧
            State.SameMemory s t ∧ State.SameRegsBut s t fun a => a = Reg.qdrStatus) ∧
          (qValid d = true → k = 2 → j.code = 0 ∧ t.qdr.votes = [] ∧
            t.qdr.cellMm = max 50 (min 2000 (s.fget Reg.qdrGridCfg 31 16)) ∧ t.qdr.nLog2 = s.gridCfgLog2 ∧
            t.qdr.acc = s.qdr.acc ∧ State.SameMemory s t ∧ State.SameRegsBut s t fun a => a = Reg.qdrStatus) ∧
          (qValid d = true → k = 5 → j.code = 0 ∧ State.SameMemory s t ∧
            ∃ table, j.tracks = some (table, s.qdr.nextId) ∧ j.deleted = s.qdr.tracks.length - table.length) ∧
          (qValid d = true → k = 6 → s.pubFree = false → j.code = 0 ∧ t.qdr.pubSeq = s.qdr.pubSeq ∧
            t.rget Reg.qdrPubSkipCount = satAdd (s.rget Reg.qdrPubSkipCount) 1 ∧ t.bit Reg.qdrStatus 8 = true ∧
            State.SameMemory s t) ∧
          ∀ b, b = s.fset Reg.qdrStatus 1 0 1 → qValid d = true →
            ((k = 1 ∨ k = 3) → inReflex s.calBase 4096 = true → readsClean b (b.calBase + 128 * qCam d) 128 →
              readsClean b (b.calBase + (3072 + 64 * qSrc d)) 64 →
              (countOk d 1048576 = false → j.code = 3 ∧ State.SameMemory s t) ∧
              (countOk d 1048576 = true → b.senValid (qSrc d) = false → j.code = 2) ∧
              ∀ p, qCount d = 1 → readsClean b (descAddr d 0x10) 16 → p = pointOf (b.readBytes (descAddr d 0x10) 16) →
                b.senValid (qSrc d) = true →
                (k = 3 → j.code = 0 ∧ State.SameMemory s t ∧ t.qdr.votes = (b.voteOne (qSrc d) p).qdr.votes) ∧
                ∀ u v depth i, k = 1 → b.camValid (qCam d) = true →
                  (b.featSize d).1 * (b.featSize d).2 ≤ 65536 → qFlag d 16 = true → qFlag d 17 = false →
                  qFlag d 19 = false → p.bad = false → b.projectPoint (qSrc d) (qCam d) p = some (u, v, depth) →
                  i = fFloor v / 2 ^ bitsOf (descWord d 0x0C) 18 16 * (b.featSize d).1 +
                    fFloor u / 2 ^ bitsOf (descWord d 0x0C) 18 16 →
                  j.code = 0 ∧ State.SameMemory s t ∧ t.accCell i = (s.accCell i).add depth p.attr ∧
                    ∀ m, m ≠ i → t.accCell m = s.accCell m) ∧
            (k = 4 → countOk d 256 = false → j.code = 3 ∧ j.tracks = none ∧ State.SameMemory s t) ∧
            (k = 4 → countOk d 256 = true → ∀ u dets, b.readDets d (qCount d) 0 [] = (u, 0, dets) →
              j.code = 0 ∧ j.tracks = some ((u.associate d dets).1.table, (u.associate d dets).1.nextId) ∧
                j.refused = (u.associate d dets).1.refused) ∧
            (k = 6 → s.pubFree = true → ∀ u, b.publish d = (u, 0) →
              j.code = 0 ∧ t.regs = u.regs ∧ State.SameMemory u t ∧ t.qdr.pubSeq = s.qdr.pubSeq + 1))

/-- QDR_JOB_END (R413, R414, R435, R438): once the job has taken its cycles, its status word is written into its slot, HEAD moves past it and
the job counts; a job without an error applies its table and signals its buckle, one with an error sets HALTED and LAST_ERR; Quadrille is
IDLE again, or DRAINED. A descriptor with an unknown JOB ends at once, with code 0x01. -/
def Claims.QuadrilleEndsItsJobs : Prop :=
  (∀ (s : State) (j : QdrJob), s.qdr.job = some j → s.jobDue j = false → exec .qdrJobEnd s = .next s) ∧
  (∀ (s : State) (j : QdrJob), s.qdr.job = some j → s.jobDue j = true → s.qdr.clear = false → j.code < 256 →
    ∃ t, exec .qdrJobEnd s = .next t ∧ t.qdr.job = none ∧ t.rget Reg.qdrRingHead = j.index + 1 ∧
      t.rget Reg.qdrJobCount = s.rget Reg.qdrJobCount + 1 ∧
      t.readBytes (s.qdrSlot j.index + 0x3C) 4 = natToBytes 4 (j.code + 2 ^ 31) ∧
      t.qdrState = (if s.qdrState = 2 then 3 else 0) ∧
      (j.code = 0 → t.qdr.tracks = (match j.tracks with
        | some x => x.1
        | none => s.qdr.tracks) ∧
        t.bit Reg.qdrStatus 2 = s.bit Reg.qdrStatus 2 ∧
        (bitsOf (descWord j.desc 4) 31 31 = 1 → s.mainOn = true →
          t.buckle (bitsOf (descWord j.desc 4) 29 16) = s.buckle (bitsOf (descWord j.desc 4) 29 16) + 1)) ∧
      (j.code ≠ 0 → t.qdr.tracks = s.qdr.tracks ∧ t.bit Reg.qdrStatus 2 = true ∧ t.bit Reg.qdrStatus 4 = true ∧
        t.rget Reg.qdrLastErr = toWord (j.code + 256 * j.kind + 65536 * (j.index.toNat % 65536)))) ∧
  ∀ (s : State) (d : List Byte), s.qdr.job = none → s.qdr.clear = false → s.qdrNext = some d →
    (qJob d ≤ 6 → exec .qdrJobEnd s = .next s) ∧
    (6 < qJob d →
      ∃ t, exec .qdrJobEnd s = .next t ∧ t.rget Reg.qdrRingHead = s.rget Reg.qdrRingHead + 1 ∧
        t.readBytes (s.qdrSlot (s.rget Reg.qdrRingHead) + 0x3C) 4 = natToBytes 4 (1 + 2 ^ 31) ∧
        t.bit Reg.qdrStatus 2 = true ∧ t.qdr.tracks = s.qdr.tracks)

/-- The registers that a write of QDR_CTRL changes. -/
def qdrCtrlTouches (a : Nat) : Prop := a = Reg.qdrCtrl ∨ a = Reg.qdrStatus ∨ a = Reg.qdrTracks

/-- QDR_RING_TAIL_WRITE, QDR_RESUME, QDR_TRACK_CLEAR, QDR_DISABLE, QDR_ENABLE, QDR_PUB_RELEASE_WRITE and QDR_CONFIG_WRITE
(R412, R414, R435 to R437, R440). RELEASE is ignored while a buckle holds it (REL_SRC = 1). -/
def Obligations.QuadrilleFollowsItsRegisters : Prop :=
  ∀ (s : State) (who : Initiator) (v : Word),
    (s.Takes who Reg.qdrRingTail v →
      ∃ t, exec (.qdrRingTailWrite who v) s = .next t ∧ t.resp = .done ∧ State.OnlyRegs s t ∧
        ((v - s.rget Reg.qdrRingHead).toNat ≤ s.qdrRingSize → t.rget Reg.qdrRingTail = v) ∧
        (s.qdrRingSize < (v - s.rget Reg.qdrRingHead).toNat →
          t.rget Reg.qdrRingTail = s.rget Reg.qdrRingTail ∧ t.bit Reg.qdrStatus 9 = true) ∧
        State.SameRegsBut s t fun a => a = Reg.qdrRingTail ∨ a = Reg.qdrStatus) ∧
    (s.Takes who Reg.qdrCtrl (v ||| 2) →
      ∃ t, exec (.qdrResume who v) s = .next t ∧ t.resp = .done ∧ t.bit Reg.qdrStatus 2 = false ∧ State.SameMemory s t ∧
        State.SameRegsBut s t qdrCtrlTouches) ∧
    (s.Takes who Reg.qdrCtrl (v ||| 4) →
      ∃ t, exec (.qdrTrackClear who v) s = .next t ∧ t.resp = .done ∧
        (s.qdr.job = none → t.qdr.tracks = [] ∧ t.rget Reg.qdrTracks = 0) ∧
        (s.qdr.job ≠ none → t.qdr.tracks = s.qdr.tracks ∧ t.qdr.clear = true) ∧ State.SameMemory s t ∧
        State.SameRegsBut s t qdrCtrlTouches) ∧
    (s.Takes who Reg.qdrCtrl (v &&& ~~~ 1) →
      ∃ t, exec (.qdrDisable who v) s = .next t ∧ t.resp = .done ∧ t.bit Reg.qdrCtrl 0 = false ∧
        (s.qdr.job = none → t.qdrState = 3) ∧ (s.qdr.job ≠ none → s.qdrState = 1 → t.qdrState = 2) ∧
        State.SameMemory s t ∧ State.SameRegsBut s t qdrCtrlTouches) ∧
    (s.Takes who Reg.qdrCtrl (v ||| 1) →
      ∃ t, exec (.qdrEnable who v) s = .next t ∧ t.resp = .done ∧ t.bit Reg.qdrCtrl 0 = true ∧
        t.qdrState = (if 2 ≤ s.qdrState then (if s.qdr.job.isSome then 1 else 0) else s.qdrState) ∧
        State.SameMemory s t ∧ State.SameRegsBut s t qdrCtrlTouches) ∧
    (s.Takes who Reg.qdrPubRelease v →
      ∃ t, exec (.qdrPubReleaseWrite who v) s = .next t ∧ t.resp = .done ∧
        t.rget Reg.qdrPubRelease = (if s.bit Reg.qdrPubCfg 2 then s.rget Reg.qdrPubRelease else v) ∧
        State.OnlyRegs s t ∧ State.SameRegsBut s t fun a => a = Reg.qdrPubRelease) ∧
    (∀ o, (o = 0x48 ∨ o = 0x54 ∨ o = 0x58) → s.Takes who (0x10120000 + o) v →
      ∃ t, exec (.qdrConfigWrite who o v) s = .next t ∧ t.resp = .done ∧ State.OnlyRegs s t ∧
        (s.qdrQuiet = true → ∀ r, regRow (0x10120000 + o) = some r →
          t.rget (0x10120000 + o) = writtenWord r (s.rget (0x10120000 + o)) v 0) ∧
        (s.qdrQuiet = false →
          t.rget (0x10120000 + o) = s.rget (0x10120000 + o) ∧ t.bit Reg.qdrStatus 9 = true) ∧
        State.SameRegsBut s t fun a => a = 0x10120000 + o ∨ a = Reg.qdrStatus)

/-! ### Stirrup -/

/-- Loop, register and value of a write of a loop register. -/
def loopWriteOf : Instr → Option (Initiator × Nat × Nat × Word)
  | .loopEnable who l cfg => some (who, l, 0, cfg ||| 1)
  | .loopDisable who l cfg => some (who, l, 0, cfg &&& ~~~ 1)
  | .loopRestart who l => some (who, l, 0x80, 1)
  | .loopSafe who l => some (who, l, 0x80, 2)
  | .loopCfgWrite who l r v => if structuralRegs.contains r then some (who, l, r, v) else none
  | .trajStartHiWrite who l v => some (who, l, 0x7C, v)
  | .waltzIdxWrite who l v => some (who, l, 0x6C, v)
  | .waltzBaseWrite who l v => some (who, l, 0x68, v)
  | _ => none

/-- The structural fields of a loop register beside STP_Lj_CFG (R456). -/
def loopFields : Nat → List (Nat × Nat)
  | 0x04 | 0x08 => [(23, 0)]
  | 0x0C => [(24, 18), (17, 16), (12, 8), (7, 3), (2, 0)]
  | 0x10 | 0x14 => [(22, 3)]
  | 0x64 => [(11, 0), (27, 16)]
  | _ => []

/-- The blocks of Stirrup, of Motion I/O and of Cinch. -/
def motionBlock (a : Nat) : Prop := (0x13 ≤ blockIndex a ∧ blockIndex a ≤ 0x18) ∨ blockIndex a = 0x20

/-- LOOP_ENABLE, LOOP_DISABLE, LOOP_RESTART, LOOP_SAFE, LOOP_CFG_WRITE, TRAJ_START_HI_WRITE, WALTZ_IDX_WRITE and
WALTZ_BASE_WRITE (R449, R454, R456, R459, R463 to R465, R471): a refused write sets CFG_REFUSED and changes nothing; an
accepted one has its effect. -/
def Obligations.LoopsFollowTheirRegisters : Prop :=
  ∀ (s : State) (c : Instr) (who : Initiator) (l r : Nat) (v : Word),
    loopWriteOf c = some (who, l, r, v) → l < 128 → s.Takes who (Reg.loopReg l r) v →
    (s.loopWriteRefused l r v = true →
      ∃ t, exec c s = .next t ∧ t.resp = .done ∧ t.bit (Reg.loopReg l 0x84) 11 = true ∧ State.OnlyRegs s t ∧
        State.SameRegsBut s t fun a => a = Reg.loopReg l 0x84) ∧
    (s.loopWriteRefused l r v = false →
      ∃ t, exec c s = .next t ∧ t.resp = .done ∧ State.SameMemory s t ∧
        State.SameRegsBut s t (fun a => motionBlock a) ∧
        (r = 0 → (s.loop l).returning = none →
          (bitOf v 0 = true → (s.loopState l = 0 → s.safeCommand = true) →
            (s.loopState l ≠ 0 → s.loopState l = 2 ∧ (s.loop l).entry = some s.beat) →
            t.loop l = s.loop l ∧ t.bit (Reg.loopReg l 0x84) 12 = true ∧
              State.SameRegsBut s t fun a => a = Reg.loopReg l 0x84) ∧
          (s.loopState l = 0 → bitOf v 0 = true → s.safeCommand = false →
            t.bit (Reg.loopReg l 0) 0 = true ∧ State.SameRegsBut s t (fun a => a = Reg.loopReg l 0) ∧
            (s.groupStopped l = true → (t.loop l).returning = none) ∧
            (s.groupStopped l = false → (t.loop l).returning = some s.beat)) ∧
          (s.loopState l = 0 → bitOf v 0 = false → t.loop l = s.loop l ∧ t.bit (Reg.loopReg l 0) 0 = false ∧
            State.SameRegsBut s t fun a => a = Reg.loopReg l 0) ∧
          (s.loopState l = 1 → bitOf v 0 = true →
            t.loop l = { s.loop l with asked := some (s.beat, s.rget (Reg.loopReg l 0)) } ∧
              State.SameRegsBut s t fun a => a = Reg.loopReg l 0) ∧
          (s.loopState l = 1 → bitOf v 0 = false → t.loopState l = 2 ∧ t.lf l 0x84 5 2 = 1 ∧ (t.loop l).off = true ∧
            t.bit (Reg.loopReg l 0) 0 = false) ∧
          (s.loopState l = 2 → bitOf v 0 = false → s.lf l 0x84 6 6 = 1 → t.loopState l = 0) ∧
          (s.loopState l = 2 → bitOf v 0 = false → s.lf l 0x84 6 6 = 0 → t.loopState l = 2 ∧ (t.loop l).off = true)) ∧
        (r ∈ [0x04, 0x08, 0x0C, 0x10, 0x14, 0x64] → ∀ f ∈ loopFields r, t.lf l r f.1 f.2 = fieldOf v f.1 f.2) ∧
        (r = 0x68 → t.lf l 0x68 12 0 = fieldOf v 12 0 ∧ State.SameRegsBut s t fun a => a = Reg.loopReg l 0x68) ∧
        (r = 0x6C → t.lf l 0x6C 11 0 = fieldOf v 11 0 ∧ State.SameRegsBut s t fun a => a = Reg.loopReg l 0x6C) ∧
        (r = 0x7C → (t.loop l).trajBase = s.lf l 0x70 22 0 ∧ (t.loop l).trajLen = s.lf l 0x74 16 0 ∧
          (t.loop l).trajStart = (s.rget (Reg.loopReg l 0x78)).toNat + 2 ^ 32 * v.toNat ∧
          State.SameRegsBut s t fun a => a = Reg.loopReg l 0x7C) ∧
        (r = 0x80 → v = 1 →
          State.SameRegsBut s t (fun a => a = Reg.loopReg l 0x84) ∧
          (s.loopState l = 1 → t.regs = s.regs ∧
            t.loop l = { s.loop l with asked := some (s.beat, s.rget (Reg.loopReg l 0)) }) ∧
          (s.loopState l = 0 → t.bit (Reg.loopReg l 0x84) 12 = true ∧ t.loop l = s.loop l) ∧
          (s.loopState l = 2 →
            (s.safeCommand = true ∨ s.groupStopped l = true ∨ (s.loop l).entry = some s.beat ∨
              (s.lf l 0x84 5 2 = 3 ∧ s.bit (Reg.mioAxStatus (s.lf l 0 14 10)) 0 = true)) →
              t.bit (Reg.loopReg l 0x84) 12 = true ∧ t.loop l = s.loop l) ∧
          (s.loopState l = 2 → s.safeCommand = false → s.groupStopped l = false → (s.loop l).entry ≠ some s.beat →
            (s.lf l 0x84 5 2 = 3 → s.bit (Reg.mioAxStatus (s.lf l 0 14 10)) 0 = false) →
              t.regs = s.regs ∧ (t.loop l).returning = (s.loop l).returning.or (some s.beat))) ∧
        (r = 0x80 → v = 2 → (s.loop l).returning = none →
          (s.loopState l = 1 → t.loopState l = 2 ∧ t.lf l 0x84 5 2 = 8 ∧ t.bit (Reg.loopReg l 0x84) 10 = true ∧
            t.bit (Reg.stpSafePend (l / 32)) (l % 32) = true ∧
            (∀ cfg, (s.loop l).asked = some (s.beat, cfg) → t.bit (Reg.loopReg l 0x84) 12 = true ∧
              t.rget (Reg.loopReg l 0) = cfg)) ∧
          (s.loopState l = 0 ∨ s.loopState l = 2 → t.loopState l = s.loopState l ∧ t.loop l = s.loop l)))

/-- LOOP_SAMPLE (R445 to R448, R453, R458, R466): with no loop due nothing changes. A loop in RUN with fresh feedback gets
its output, inside OMIN and OMAX, for beat + 100; a not-a-number, an uncorrectable word or an engine fault leads to SAFE, or
to the engine that takes over; a loop in SAFE makes its safe step. Without the system reference nothing is sampled (R688). -/
def Claims.LoopsSampleInTheirBeat : Prop :=
  ∀ (s : State) (g : Nat) (findings : List SampleFinding), g < 4 → s.pwr.refLost = false →
    spGet (fun _ => 0) s.stp.sampled g ≠ s.beat + 1 →
    let due := ((List.range 32).map (32 * g + ·)).filter s.loopDue
    (due = [] → exec (.loopSample g findings) s = .next s) ∧
    (∀ u, u = { s with pwr := { s.pwr with refLost := true } } → exec (.loopSample g findings) u = .next u) ∧
    (due ≠ [] → s.engState (s.groupEngine g) ≠ 3 → findings.contains .engineFault = true → s.groupEngine g < 5 →
      ∃ t, exec (.loopSample g findings) s = .next t ∧ t.bit (Reg.stpEngStatus (s.groupEngine g)) 8 = true ∧
        (s.canFailOver (s.groupEngine g) (s.fget Reg.stpGrpMap 18 16) = true →
          t.groupEngine g = s.fget Reg.stpGrpMap 18 16)) ∧
    (∀ l, due = [l] → s.engState (s.groupEngine g) ≠ 3 → s.engRole (s.fget Reg.stpGrpMap 18 16) ≠ 2 →
      (s.loop l).returning = none → s.homeOwns l = false →
      (s.loopState l = 1 → findings = [.memoryError l] →
        ∃ t, exec (.loopSample g findings) s = .next t ∧ t.loopState l = 2 ∧ t.lf l 0x84 5 2 = 9) ∧
      (s.loopState l = 2 → (findings = [] ∨ findings = [.memoryError l]) → (s.loop l).entry ≠ some s.beat →
        ∃ t u done, exec (.loopSample g findings) s = .next t ∧ t.regs = s.regs ∧ State.SameMemory s t ∧
          (t.loop l).steps = (s.loop l).steps ++ [.safe (s.beat + 100) u done])) ∧
    ∀ l, due = [l] → s.engState (s.groupEngine g) ≠ 3 → findings = [] → s.loopState l = 1 →
      (s.loop l).returning = none → s.homeOwns l = false → s.engRole (s.fget Reg.stpGrpMap 18 16) ≠ 2 →
      let x := (s.loopIn l).1
      (x.nan = true → ∃ t, exec (.loopSample g findings) s = .next t ∧ t.loopState l = 2 ∧ t.lf l 0x84 5 2 = 6) ∧
      (x.nan = false → x.fresh = true → s.lf l 0x5C 31 16 = 0 →
        ∃ t out, exec (.loopSample g findings) s = .next t ∧ State.SameMemory s t ∧ t.regs = s.regs ∧
          (t.loop l).steps = (s.loop l).steps ++ [.run (s.beat + 100) out] ∧ out.sample = s.beat ∧ out.fbv = x.fbv ∧
          out.err = satQ (x.sp.toInt - x.fbv) ∧
          (s.lint l 0x54 ≤ 0 → s.loopLimit l 0x4C ≤ s.loopLimit l 0x50 →
            s.loopLimit l 0x4C ≤ out.u ∧ out.u ≤ s.loopLimit l 0x50))

/-- LOOP_OUTPUT_APPLY and LOOP_OFF_ENTER (R447, R450, R453, R463): at its beat a sample's output, state and counts show
and the output reaches its destination, unless an event of a later place in the beat has come (R698, log entry 34) or the system reference
is lost (R688); a loop on its way to OFF is OFF in a beat after SAFE_DONE. -/
def Claims.LoopOutputsTakeEffect : Prop :=
  ∀ (s : State) (l : Nat), l < 128 →
    (s.placeOpen 7 = false ∨ s.pwr.refLost = true → exec (.loopOutputApply l) s = .next s) ∧
    (∀ b x, s.placeOpen 7 = true → s.pwr.refLost = false → (s.loop l).steps = [.run b x] → b ≤ s.beat → x.waltz = none →
      ∃ t, exec (.loopOutputApply l) s = .next t ∧ (t.loop l).steps = [] ∧
        t.rget (Reg.loopReg l 0x88) = ofInt32 x.u ∧ t.rget (Reg.loopReg l 0x8C) = ofInt32 x.i ∧
        t.rget (Reg.loopReg l 0x90) = ofInt32 x.d ∧ t.rget (Reg.loopReg l 0x94) = ofInt32 x.err ∧
        t.rget (Reg.loopReg l 0x98) = ofInt32 x.fbv ∧
        t.rget (Reg.loopReg l 0x9C) = s.rget (Reg.loopReg l 0x9C) + 1 ∧ t.bit (Reg.loopReg l 0x84) 7 = x.osat ∧
        t.bit (Reg.loopReg l 0x84) 8 = x.isat ∧
        (s.lf l 0x0C 17 16 = 1 → t.rget (Reg.mioPwmDuty (s.lf l 0x0C 24 18)) = ofInt32 x.u) ∧
        (s.lf l 0x0C 17 16 ≠ 2 → State.SameMemory s t) ∧
        (s.lf l 0x0C 17 16 = 0 → State.SameRegsBut s t fun a => Reg.loopReg l 0x6C ≤ a ∧ a < Reg.loopReg l 0xB0)) ∧
    (s.placeOpen 7 = true → s.loopState l = 2 → (s.loop l).off = true →
      (∀ b, (s.loop l).doneBeat = some b → b < s.beat →
        ∃ t, exec (.loopOffEnter l) s = .next t ∧ t.loopState l = 0 ∧ t.lf l 0x84 5 2 = 0 ∧ (t.loop l).off = false ∧
          (t.loop l).steps = [] ∧ State.SameMemory s t ∧ State.SameRegsBut s t fun a => motionBlock a) ∧
      ((s.loop l).doneBeat = none → exec (.loopOffEnter l) s = .next s))

/-- The registers that a hand-over of group k from engine `old` to engine e changes. -/
def handoverTouches (e old a : Nat) : Prop :=
  a = Reg.stpGrpMap ∨ a = Reg.stpEngStatus e ∨ a = Reg.stpEngStatus old ∨ a = Reg.stpHandoverStatus ∨
    a = Reg.stpHandoverBeatLo ∨ a = Reg.stpHandoverBeatHi

/-- SHADOW_START, SHADOW_STOP, ENGINE_DISABLE, ENGINE_ENABLE, HANDOVER_GO and HANDOVER_APPLY (R467 to R470). -/
def Obligations.EnginesFollowTheirCommands : Prop :=
  ∀ (s : State) (who : Initiator) (e : Nat) (v : Word), e < 5 →
    (s.Takes who (Reg.stpEngCtrl e) (v ||| 2) → bitOf v 0 = true → s.engRole e = 1 → s.engState e < 2 →
      ∃ t, exec (.shadowStart who e v) s = .next t ∧ t.resp = .done ∧ t.engRole e = 2 ∧ t.engState e = 1 ∧
        t.engGroup e = fieldOf v 5 4 ∧ t.rget (Reg.stpEngShadowSamples e) = 0 ∧
        t.rget (Reg.stpEngShadowMismatch e) = 0 ∧ State.SameMemory s t ∧
        State.SameRegsBut s t fun a => a = Reg.stpEngCtrl e ∨ a = Reg.stpEngStatus e ∨
          a = Reg.stpEngShadowSamples e ∨ a = Reg.stpEngShadowMismatch e) ∧
    (s.Takes who (Reg.stpEngCtrl e) (v ||| 4) → bitOf v 0 = true → bitOf v 1 = false → s.engRole e = 2 →
      s.engState e < 2 →
      ∃ t, exec (.shadowStop who e v) s = .next t ∧ t.resp = .done ∧ t.engRole e = 1 ∧ t.engState e = 0 ∧
        State.SameMemory s t ∧ State.SameRegsBut s t fun a => a = Reg.stpEngCtrl e ∨ a = Reg.stpEngStatus e) ∧
    (s.Takes who (Reg.stpEngCtrl e) (v &&& ~~~ 1) →
      (s.engRole e ≠ 0 → s.engState e ≠ 3 →
        ∃ t, exec (.engineDisable who e v) s = .next t ∧ t.resp = .done ∧ t.engRole e = 1 ∧ t.engState e = 3 ∧
          t.bit (Reg.stpEngStatus e) 9 = true ∧ State.SameMemory s t ∧
          State.SameRegsBut s t fun a => a = Reg.stpEngCtrl e ∨ a = Reg.stpEngStatus e) ∧
      (s.engRole e = 0 → s.engState e < 2 → s.stp.wakeUp = [] → s.groupEngine (s.engGroup e) = e →
        ∃ t, exec (.engineDisable who e v) s = .next t ∧ t.resp = .done ∧ 2 ≤ t.engState e ∧
          (∀ j < 32, t.loopState (32 * s.engGroup e + j) ≠ 1) ∧ State.SameMemory s t ∧
          State.SameRegsBut s t fun a => motionBlock a)) ∧
    (s.Takes who (Reg.stpEngCtrl e) (v ||| 1) → bitOf v 1 = false → bitOf v 2 = false →
      ∃ t, exec (.engineEnable who e v) s = .next t ∧ t.resp = .done ∧ State.SameMemory s t ∧
        (s.engState e < 2 → t.engState e = s.engState e ∧ State.SameRegsBut s t fun a => a = Reg.stpEngCtrl e) ∧
        (s.engState e = 2 → t.engState e = 2 ∧ e ∈ t.stp.wakeUp) ∧
        (s.engState e = 3 → s.engRole e ≠ 0 → t.engState e = 0) ∧
        (s.engState e = 3 → s.engRole e = 0 → t.engState e = 1 ∧
          (s.groupEngine (s.engGroup e) = e → s.safeCommand = false →
            ∀ j < 32, s.loopState (32 * s.engGroup e + j) = 0 → s.lf (32 * s.engGroup e + j) 0 0 0 = 1 →
              (s.loop (32 * s.engGroup e + j)).returning = none →
              (t.loop (32 * s.engGroup e + j)).returning = some s.beat))) ∧
    (s.Takes who Reg.stpHandover (v ||| 0x80000000) →
      ∃ t, exec (.handoverGo who v) s = .next t ∧ t.resp = .done ∧ State.SameMemory s t ∧
        (s.handoverErr (v ||| 0x80000000) = 0 →
          t.stp = { s.stp with handover := some (v ||| 0x80000000, s.beat + 2) } ∧
          State.SameRegsBut s t fun a => a = Reg.stpHandover) ∧
        (s.handoverErr (v ||| 0x80000000) ≠ 0 → t.stp = s.stp ∧ t.bit Reg.stpHandoverStatus 1 = true ∧
          t.fget Reg.stpHandoverStatus 7 4 = s.handoverErr (v ||| 0x80000000) ∧
          State.SameRegsBut s t fun a => a = Reg.stpHandoverStatus)) ∧
    (∀ h, s.stp.handover = some (v, h) →
      (s.beat ≠ h → exec .handoverApply s = .next s) ∧
      (s.beat = h → fieldOf v 6 4 = e → s.groupEngine (fieldOf v 1 0) ≠ e →
        { s with stp := { s.stp with handover := none } }.handoverErr v = 0 →
        ∃ t, exec .handoverApply s = .next t ∧ t.groupEngine (fieldOf v 1 0) = e ∧
          t.fget Reg.stpGrpMap 18 16 = s.groupEngine (fieldOf v 1 0) ∧ t.engRole e = 0 ∧ t.engState e = 1 ∧
          t.engGroup e = fieldOf v 1 0 ∧ t.engRole (s.groupEngine (fieldOf v 1 0)) = 1 ∧
          t.bit Reg.stpHandoverStatus 0 = true ∧ t.get64 Reg.stpHandoverBeatLo = s.beat % 2 ^ 64 ∧ t.stp.handover = none ∧
          t.engState (s.groupEngine (fieldOf v 1 0)) =
            (if 2 ≤ s.engState (s.groupEngine (fieldOf v 1 0)) ∧ s.groupEngine (fieldOf v 1 0) ∉ s.stp.wakeUp then 3 else 0) ∧
          State.SameMemory s t ∧ State.SameRegsBut s t (handoverTouches e (s.groupEngine (fieldOf v 1 0)))))

/-! ### Motion I/O -/

/-- ENCODER_STATE_CHANGE and ENCODER_INDEX (R475, R476, R478 to R480, R494): an input's filtered level follows it once it has held
for FILT + 1 beats; one filtered change counts one step up or down, a change of both is a fault; a qualified index stores the
counter, and sets it where re-zeroing or homing asks. Neither acts where the beat stands still or its place in the beat has passed (log entry 34). -/
def Claims.EncodersCountTheirEdges : Prop :=
  ∀ (s : State) (n : Nat) (a b z : Bool), n < 16 →
    (s.beating = false ∨ s.placeOpen 4 = false →
      exec (.encoderStateChange n a b z) s = .next s ∧ exec (.encoderIndex n) s = .next s) ∧
    ∀ p, p = s.encPins n → s.beating = true → s.placeOpen 4 = true →
      (∀ qa qb, qa = (p.a.sample s.beat a).settle (s.encFilt n) s.beat →
        qb = (p.b.sample s.beat b).settle (s.encFilt n) s.beat →
        (p.a.raw ≠ a → qa.level = if s.encFilt n = 0 then a else p.a.level) ∧
        (p.a.raw = a → qa.level = if p.a.since + s.encFilt n ≤ s.beat then a else p.a.level) ∧
        ∃ t, exec (.encoderStateChange n a b z) s = .next t ∧ (t.encPins n).a = qa ∧ (t.encPins n).b = qb ∧
          (t.encPins n).z.raw = z ∧ State.SameMemory s t ∧ State.SameRegsBut s t (fun r => motionBlock r) ∧
          (s.bit (Reg.mioEncCfg n) 0 = false ∨ (qa.level = p.a.level ∧ qb.level = p.b.level) → t.regs = s.regs) ∧
          (∀ d : Word, s.bit (Reg.mioEncCfg n) 0 = true → (qa.level ≠ p.a.level ↔ qb.level = p.b.level) →
            d = (if encUp p.a.level qa.level qb.level != s.bit (Reg.mioEncCfg n) 1 then 1 else -1) →
            t.encCount n = s.encCount n + d ∧ t.rget (Reg.mioEncRaw n) = s.rget (Reg.mioEncRaw n) + d ∧
            (s.homing = false → State.SameRegsBut s t fun r => r = Reg.mioEncCount n ∨ r = Reg.mioEncRaw n)) ∧
          (s.bit (Reg.mioEncCfg n) 0 = true → qa.level ≠ p.a.level → qb.level ≠ p.b.level →
            t.bit (Reg.mioEncStatus n) 0 = true ∧ t.encCount n = s.encCount n ∧
            ∀ x < 32, s.fget (Reg.mioAxCfg x) 1 0 = 1 → s.fget (Reg.mioAxCfg x) 5 2 = n →
              t.bit (Reg.mioAxStatus x) 3 = true)) ∧
      (p.z.raw = false ∨ p.z.due (s.encFilt n) s.beat = false → exec (.encoderIndex n) s = .next s) ∧
      (p.z.raw = true → p.z.due (s.encFilt n) s.beat = true → s.indexQualified n = false →
        ∃ t, exec (.encoderIndex n) s = .next t ∧ (t.encPins n).z.level = true ∧ t.regs = s.regs ∧ State.SameMemory s t) ∧
      (p.z.raw = true → p.z.due (s.encFilt n) s.beat = true → s.indexQualified n = true →
        ∃ t, exec (.encoderIndex n) s = .next t ∧ (t.encPins n).z.level = true ∧
          t.rget (Reg.mioEncIndexPos n) = s.encCount n ∧ t.bit (Reg.mioEncStatus n) 1 = true ∧ State.SameMemory s t ∧
          State.SameRegsBut s t (fun r => motionBlock r) ∧
          (s.fget Reg.mioHomeStatus 2 0 ≠ 2 →
            (s.fget (Reg.mioEncCfg n) 10 9 = 1 ∨ s.fget (Reg.mioEncCfg n) 10 9 = 2 →
              t.encCount n = s.rget (Reg.mioEncIndexRef n) ∧ t.bit (Reg.mioEncStatus n) 3 = true) ∧
            (s.fget (Reg.mioEncCfg n) 10 9 = 0 → t.encCount n = s.encCount n)) ∧
          (s.fget Reg.mioHomeStatus 2 0 = 2 → s.homeEnc = n →
            t.encCount n = s.rget Reg.mioHomePos ∧ t.rget (Reg.mioEncIndexRef n) = s.rget Reg.mioHomePos ∧
            t.fget Reg.mioHomeStatus 2 0 = 3))

/-- ABS_FRAME_START and ABS_FRAME_END (R481 to R483): the line is sampled in the frame's start beat; once the frame has taken its
beats, a valid one gives the position, an invalid one counts and leaves it; an input that has been disabled gives no frame. -/
def Claims.AbsoluteFramesAreChecked : Prop :=
  ∀ (s : State) (n : Nat), n < 8 →
    (∀ line, (s.beating = true → s.bit (Reg.mioAbsCfg n) 0 = true →
        s.beat % max 1 (s.fget (Reg.mioAbsPeriod n) 23 0) = s.fget (Reg.mioAbsPhase n) 23 0 →
        ∃ t, exec (.absFrameStart n line) s = .next t ∧ (t.absIn n).start = some (s.beat, line) ∧ t.regs = s.regs ∧
          State.SameMemory s t) ∧
      (s.bit (Reg.mioAbsCfg n) 0 = false ∨
        s.beat % max 1 (s.fget (Reg.mioAbsPeriod n) 23 0) ≠ s.fget (Reg.mioAbsPhase n) 23 0 ∨ s.beating = false →
        exec (.absFrameStart n line) s = .next s)) ∧
    ∀ (code : Nat) (err par : Bool) (start : Nat) (high : Bool), (s.absIn n).start = some (start, high) →
      ∀ cfg raw c good, cfg = s.rget (Reg.mioAbsCfg n) → raw = code % 2 ^ (fieldOf cfg 5 1 + 1) →
      c = (if bitOf cfg 6 then grayDecode raw else raw) →
      good = (high && (par || !bitOf cfg 8) && (!err || !bitOf cfg 7) && s.absStepOk n c) →
      (bitOf cfg 0 = false → ∃ t, exec (.absFrameEnd n code err par) s = .next t ∧ (t.absIn n).start = none ∧
        t.regs = s.regs ∧ State.SameMemory s t) ∧
      (bitOf cfg 0 = true → s.beat < start + (2 * fieldOf cfg 18 9 * (absPeriods cfg - 1) + fieldOf cfg 24 19) →
        exec (.absFrameEnd n code err par) s = .next s) ∧
      (bitOf cfg 0 = true → start + (2 * fieldOf cfg 18 9 * (absPeriods cfg - 1) + fieldOf cfg 24 19) ≤ s.beat →
        ∃ t, exec (.absFrameEnd n code err par) s = .next t ∧ (t.absIn n).start = none ∧ State.SameMemory s t ∧
          t.bit (Reg.mioAbsStatus n) 1 = good ∧
          (good = true → t.rget (Reg.mioAbsPos n) = toWord c + s.rget (Reg.mioAbsOffset n) ∧ (t.absIn n).last = some c ∧
            (t.absIn n).badRun = 0 ∧ State.SameRegsBut s t fun r => r = Reg.mioAbsPos n ∨ r = Reg.mioAbsStatus n) ∧
          (good = false → t.rget (Reg.mioAbsPos n) = s.rget (Reg.mioAbsPos n) ∧ (t.absIn n).last = (s.absIn n).last ∧
            t.rget (Reg.mioAbsErrCount n) = satAdd (s.rget (Reg.mioAbsErrCount n)) 1 ∧
            State.SameRegsBut s t (fun r => motionBlock r) ∧
            (max 1 (s.fget (Reg.mioAbsCfg n) 31 25) ≤ (s.absIn n).badRun + 1 → t.bit (Reg.mioAbsStatus n) 0 = true)))

/-- PWM_PERIOD_START, MOTION_IO_DISABLE and MOTION_IO_ENABLE (R484 to R487, R499): a pair that may not run is off; else
the two switches of a pair are never on within the dead time of each other, DUTY 0 leaves the high side off and
DUTY 65536 the low side (for a DUTY that is not-a-number the on-times are free, log entry 40), and a refused command is recorded. -/
def Claims.PwmPairsKeepTheirDeadTime : Prop :=
  ∀ (s : State) (who : Initiator) (v : Word),
    (∀ n < 24, s.beat % max 1 (s.fget (Reg.mioPwmPeriod n) 16 0) ≠ s.fget (Reg.mioPwmTiming n) 31 15 →
      exec (.pwmPeriodStart n) s = .next s) ∧
    (∀ n < 24, s.beat % max 1 (s.fget (Reg.mioPwmPeriod n) 16 0) = s.fget (Reg.mioPwmTiming n) 31 15 →
      ∃ t, exec (.pwmPeriodStart n) s = .next t ∧ (t.pwm n).start = s.beat ∧ State.SameMemory s t ∧
        (s.mio.killed = true ∨ s.fget Reg.mioStatus 1 0 ≠ 1 → (t.pwm n).hi = [] ∧ (t.pwm n).lo = [] ∧
          State.SameRegsBut s t fun r => r = Reg.mioStatus) ∧
        (s.mio.killed = false → s.fget Reg.mioStatus 1 0 = 1 →
          (∀ x ∈ (t.pwm n).hi, ∀ y ∈ (t.pwm n).lo,
            x.2 + s.fget (Reg.mioPwmTiming n) 9 0 ≤ y.1 ∨ y.2 + s.fget (Reg.mioPwmTiming n) 9 0 ≤ x.1) ∧
          (s.fget (Reg.mioPwmCfg n) 5 4 = 0 → s.fget (Reg.mioPwmCfg n) 1 0 = 1 ∨ s.fget (Reg.mioPwmCfg n) 1 0 = 2 →
            ((s.rget (Reg.mioPwmDuty n)).toInt ≤ 0 → s.rget (Reg.mioPwmDuty n) ≠ qNan → (t.pwm n).hi = []) ∧
            (65536 ≤ (s.rget (Reg.mioPwmDuty n)).toInt → s.fget (Reg.mioPwmPeriod n) 16 0 ≠ 0 → (t.pwm n).lo = [])) ∧
          ((s.pwmLatch n).2 = false → t.regs = s.regs) ∧
          ((s.pwmLatch n).2 = true → (t.pwm n).hi = [] ∧ (t.pwm n).lo = [] ∧ t.bit (Reg.mioPwmStatus n) 0 = true ∧
            t.bit Reg.mioStatus 7 = true ∧
            t.rget (Reg.mioPwmRefusedCount n) = satAdd (s.rget (Reg.mioPwmRefusedCount n)) 1))) ∧
    (s.Takes who Reg.mioCtrl (v &&& ~~~ 1) →
      ∃ t, exec (.motionIoDisable who v) s = .next t ∧ t.resp = .done ∧ State.SameMemory s t ∧
        (ctrlBad v = true → t.bit Reg.mioStatus 4 = true ∧ State.SameRegsBut s t fun r => r = Reg.mioStatus) ∧
        (ctrlBad v = false → t.bit Reg.mioCtrl 0 = false ∧
          (s.fget Reg.mioStatus 1 0 ≠ 1 → State.SameRegsBut s t fun r => r = Reg.mioCtrl) ∧
          (s.fget Reg.mioStatus 1 0 = 1 → State.SameRegsBut s t (fun r => motionBlock r) ∧
            t.fget Reg.mioStatus 1 0 =
              if (List.range 24).all fun n => (s.pwm n).hi.isEmpty && (s.pwm n).lo.isEmpty then 3 else 2))) ∧
    (s.Takes who Reg.mioCtrl (v ||| 1) →
      ∃ t, exec (.motionIoEnable who v) s = .next t ∧ t.resp = .done ∧ State.OnlyRegs s t ∧
        (ctrlBad v = true → t.bit Reg.mioStatus 4 = true ∧ State.SameRegsBut s t fun r => r = Reg.mioStatus) ∧
        (ctrlBad v = false → t.bit Reg.mioCtrl 0 = true ∧ t.fget Reg.mioStatus 1 0 = 1 ∧
          State.SameRegsBut s t fun r => r = Reg.mioCtrl ∨ r = Reg.mioStatus))

/-- LIMIT_RAW_CHANGE, LIMIT_DEBOUNCE_EXPIRY, CHATTER_WINDOW_START and AXIS_CAUSE_CLEAR (R473, R474, R488 to R490): the raw
state follows the pin, the debounced state a raw state that has held, the bounces start again with each window, and a
cause bit clears only when its condition has gone. The inputs are not sampled where the beat stands still, nor (log entry 34) after a later
event of the beat. -/
def Claims.LimitInputsAreDebounced : Prop :=
  ∀ s : State,
    (s.beating = false ∨ s.placeOpen 3 = false → exec .limitDebounceExpiry s = .next s ∧
      ∀ i level, exec (.limitRawChange i level) s = .next s) ∧
    (s.beating = true → s.placeOpen 3 = true → ∀ i < 32, ∀ level : Bool,
      let act := level != s.bit (Reg.mioLimCfg i) 0
      ∃ t, exec (.limitRawChange i level) s = .next t ∧ State.SameMemory s t ∧
        (∀ j < 32, t.bit Reg.mioLimRaw j = if j = i then act else s.bit Reg.mioLimRaw j) ∧
        t.rget Reg.mioLimState = s.rget Reg.mioLimState ∧
        (s.bit Reg.mioLimRaw i = act → t.regs = s.regs) ∧
        (s.bit Reg.mioLimRaw i ≠ act → spGet (fun _ => 0) t.mio.limSince i = s.beat) ∧
        (s.bit Reg.mioLimRaw i ≠ act → s.bit Reg.mioLimState i ≠ act →
          State.SameRegsBut s t fun r => r = Reg.mioLimRaw) ∧
        (s.bit Reg.mioLimRaw i ≠ act → s.bit Reg.mioLimState i = act →
          t.fget (Reg.mioLimStatus i) 15 8 = min 255 (s.bounces i + 1) ∧
          State.SameRegsBut s t fun r => motionBlock r)) ∧
    (s.beating = true → s.placeOpen 3 = true → ∃ t, exec .limitDebounceExpiry s = .next t ∧ State.SameMemory s t ∧
      State.SameRegsBut s t (fun r => motionBlock r) ∧ t.rget Reg.mioLimRaw = s.rget Reg.mioLimRaw ∧
      (∀ i < 32, t.bit Reg.mioLimState i = if s.limHeld i then s.bit Reg.mioLimRaw i else s.bit Reg.mioLimState i) ∧
      ∀ i < 32, s.limHeld i = true → s.bit Reg.mioLimRaw i = true →
        t.bit (Reg.mioLimStatus i) 1 = true ∧
        (s.bit (Reg.mioLimCfg i) 15 = true → s.limFaults i = true → s.homing = false →
          t.bit (Reg.mioAxStatus (s.fget (Reg.mioLimCfg i) 20 16)) 1 = true)) ∧
    (s.beat % 2 ^ s.fget Reg.mioCtrl 12 8 = 0 →
      ∃ t, exec .chatterWindowStart s = .next t ∧ State.SameMemory s t ∧
        (∀ i < 32, t.bounces i = 0 ∧ t.fget (Reg.mioLimStatus i) 15 8 = 0) ∧
        State.SameRegsBut s t fun r => ∃ i < 32, r = Reg.mioLimStatus i) ∧
    (s.beat % 2 ^ s.fget Reg.mioCtrl 12 8 ≠ 0 → exec .chatterWindowStart s = .next s) ∧
    ∀ (who : Initiator) (a : Nat) (v : Word), a < 32 → s.Takes who (Reg.mioAxStatus a) v →
      ∃ t, exec (.axisCauseClear who a v) s = .next t ∧ t.resp = .done ∧ State.OnlyRegs s t ∧
        (∀ k, 1 ≤ k → k ≤ 5 →
          t.bit (Reg.mioAxStatus a) k = (s.bit (Reg.mioAxStatus a) k && !(bitOf v k && !s.causeHolds a k))) ∧
        t.bit (Reg.mioAxStatus a) 0 = decide (t.fget (Reg.mioAxStatus a) 5 1 ≠ 0) ∧
        State.SameRegsBut s t fun r => r = Reg.mioAxStatus a ∨ r = Reg.mioStatus

/-- HOME_GO and HOME_ABORT (R491, R496). -/
def Claims.HomingStartsAndAborts : Prop :=
  ∀ (s : State) (who : Initiator) (v : Word),
    (s.Takes who Reg.mioHomeCtrl (v ||| 1) → bitOf v 1 = false →
      ∃ t, exec (.homeGo who v) s = .next t ∧ t.resp = .done ∧ State.SameMemory s t ∧
        (s.homeReady = true → t.homing = true ∧
          t.fget Reg.mioHomeStatus 2 0 = (if s.fget Reg.mioHomeCfg 17 16 = 2 then 2 else 1) ∧
          t.mio.homeStart = (s.encCount s.homeEnc).toInt ∧ State.SameRegsBut s t fun r => r = Reg.mioHomeStatus) ∧
        (s.homeReady = false → t.fget Reg.mioHomeStatus 2 0 = 4 ∧ t.fget Reg.mioHomeStatus 7 4 = 9 ∧
          State.SameRegsBut s t fun r => motionBlock r)) ∧
    (s.Takes who Reg.mioHomeCtrl (v ||| 2) → bitOf v 0 = false →
      ∃ t, exec (.homeAbort who v) s = .next t ∧ t.resp = .done ∧ State.SameMemory s t ∧
        (s.homing = true → t.fget Reg.mioHomeStatus 2 0 = 4 ∧ t.fget Reg.mioHomeStatus 7 4 = 7 ∧
          t.bit Reg.mioHomeStatus 9 = true ∧ State.SameRegsBut s t fun r => motionBlock r) ∧
        (s.homing = false → s.fget Reg.mioHomeStatus 2 0 ≠ 4 → t.regs = s.regs))

/-- The registers of UART u that show its queues. -/
def uartShows (u r : Nat) : Prop := r = Reg.mioUartStatus u ∨ r = Reg.mioUartRx u

/-- UART_RX_FRAME, UART_RX_POP, UART_TX_WRITE and UART_TX_FRAME_DONE (R497): bytes leave in the order in which they were
written, and are read in the order in which they came; a full queue loses the new byte. -/
def Claims.UartsQueueTheirBytes : Prop :=
  ∀ (s : State) (u : Nat) (b : Byte), u < 4 →
    (∀ (framing parityBad : Bool) (falseStarts : Nat), s.bit (Reg.mioUartCfg u) 20 = true →
      let bad := parityBad && s.bit (Reg.mioUartCfg u) 17
      let got := if s.bit (Reg.mioUartCfg u) 16 then b else b &&& 0x7F
      ∃ t, exec (.uartRxFrame u b framing parityBad falseStarts) s = .next t ∧ State.SameMemory s t ∧
        (t.uart u).tx = (s.uart u).tx ∧
        t.rget (Reg.mioUartErrCount u) =
          satAdd (s.rget (Reg.mioUartErrCount u)) (falseStarts + b2n framing + b2n bad) ∧
        ((s.uart u).rx.length < 64 → (t.uart u).rx = (s.uart u).rx ++ [(got, framing, bad)] ∧
          t.fget (Reg.mioUartStatus u) 6 0 = (s.uart u).rx.length + 1) ∧
        (64 ≤ (s.uart u).rx.length → (t.uart u).rx = (s.uart u).rx ∧ t.bit (Reg.mioUartStatus u) 16 = true) ∧
        State.SameRegsBut s t fun r => uartShows u r ∨ r = Reg.mioUartErrCount u) ∧
    (∀ who, s.Takes who (Reg.mioUartPop u) 1 →
      ∃ t, exec (.uartRxPop who u) s = .next t ∧ t.resp = .done ∧ (t.uart u).rx = (s.uart u).rx.tail ∧
        (t.uart u).tx = (s.uart u).tx ∧ State.SameMemory s t ∧ State.SameRegsBut s t fun r => uartShows u r) ∧
    (∀ who, s.Takes who (Reg.mioUartTx u) (toWord b.toNat) →
      ∃ t, exec (.uartTxWrite who u b) s = .next t ∧ t.resp = .done ∧ (t.uart u).rx = (s.uart u).rx ∧
        (t.uart u).sending.toList ++ (t.uart u).tx = (s.uart u).sending.toList ++ (s.uart u).tx ++
          (if (s.uart u).tx.length < 64 then [b] else []) ∧
        State.SameMemory s t ∧ State.SameRegsBut s t fun r => uartShows u r) ∧
    ((s.uart u).sending = none → exec (.uartTxFrameDone u) s = .next s) ∧
    ((s.uart u).sending ≠ none →
      ∃ t, exec (.uartTxFrameDone u) s = .next t ∧ (t.uart u).rx = (s.uart u).rx ∧
        (t.uart u).sending.toList ++ (t.uart u).tx = (s.uart u).tx ∧
        (s.bit (Reg.mioUartCfg u) 20 = true → (t.uart u).sending = (s.uart u).tx.head?) ∧
        State.SameMemory s t ∧ State.SameRegsBut s t fun r => uartShows u r)

/-! ### The sparse solver -/

/-- SSU_GO, SSU_COLD, SSU_SOLVE_START, SSU_DISABLE and SSU_ENABLE (R501 to R503, R510, R512, R515; ENABLE = 1 in DRAINING: log entry 43): a start waits, or
counts as an overlap, and further starts of its beat are the same one; the SSU takes the lowest pending problem. -/
def Claims.SolverTakesItsProblems : Prop :=
  ∀ (s : State) (who : Initiator) (v : Word),
    (∀ p < 8, s.Takes who (Reg.ssuPCtrl p) (v ||| 1) →
      ∃ t, exec (.ssuGo who p v) s = .next t ∧ t.resp = .done ∧ State.SameMemory s t ∧
        t.ssu.running = s.ssu.running ∧
        (spGet (fun _ => 0) s.ssu.starts p = s.beat + 1 → t.ssu = s.ssu ∧
          State.SameRegsBut s t fun r => r = Reg.ssuPStatus p) ∧
        (spGet (fun _ => 0) s.ssu.starts p ≠ s.beat + 1 →
          (s.ssuBusy p = false → s.fget Reg.ssuStatus 1 0 ≠ 3 →
            t.ssu.pending = s.ssu.pending ++ [(p, ⟨s.beat, none, [], none⟩)] ∧
            t.fget (Reg.ssuPStatus p) 1 0 = 1 ∧ State.SameRegsBut s t fun r => r = Reg.ssuPStatus p) ∧
          (s.ssuBusy p = true ∨ s.fget Reg.ssuStatus 1 0 = 3 → t.ssu.pending = s.ssu.pending ∧
            t.rget Reg.ssuOverlapCount = satAdd (s.rget Reg.ssuOverlapCount) 1 ∧
            (s.ssuBusy p = true → t.bit Reg.ssuStatus 6 = true) ∧
            State.SameRegsBut s t fun r => r = Reg.ssuPStatus p ∨ r = Reg.ssuOverlapCount ∨ r = Reg.ssuStatus))) ∧
    (∀ p < 8, s.Takes who (Reg.ssuPCtrl p) (v ||| 2) → bitOf v 0 = false →
      ∃ t, exec (.ssuCold who p v) s = .next t ∧ t.resp = .done ∧ t.bit (Reg.ssuPStatus p) 2 = false ∧
        State.OnlyRegs s t ∧ State.SameRegsBut s t fun r => r = Reg.ssuPStatus p) ∧
    (s.fget Reg.ssuStatus 1 0 ≠ 0 ∨ s.ssu.running ≠ none ∨ s.ssuNext = none → exec .ssuSolveStart s = .next s) ∧
    (∀ p st, s.fget Reg.ssuStatus 1 0 = 0 → s.ssu.running = none → s.ssuNext = some (p, st) → s.ssuLate st = false →
      ∃ t, exec .ssuSolveStart s = .next t ∧ p < 8 ∧ (t.ssu.running.map fun q => (q.1, q.2.beat, q.2.desc)) =
          some (p, st.beat, st.desc) ∧
        t.ssu.pending = s.ssu.pending.filter (fun q => q.1 ≠ p) ∧ t.fget Reg.ssuStatus 1 0 = 1 ∧
        t.fget Reg.ssuStatus 4 2 = p ∧ t.fget (Reg.ssuPStatus p) 1 0 = 2 ∧ State.SameMemory s t ∧
        State.SameRegsBut s t fun r => r = Reg.ssuStatus ∨ r = Reg.ssuPStatus p) ∧
    (s.Takes who Reg.ssuCtrl (v &&& ~~~ 1) →
      ∃ t, exec (.ssuDisable who v) s = .next t ∧ t.resp = .done ∧ t.bit Reg.ssuCtrl 0 = false ∧
        (s.fget Reg.ssuStatus 1 0 = 1 → s.ssu.running ≠ none → t.fget Reg.ssuStatus 1 0 = 2 ∧ t.ssu = s.ssu) ∧
        (s.fget Reg.ssuStatus 1 0 = 0 → s.ssu.running = none →
          t.fget Reg.ssuStatus 1 0 = 3 ∧ t.bit Reg.ssuStatus 7 = true ∧ t.ssu.pending = [])) ∧
    (s.Takes who Reg.ssuCtrl (v ||| 1) →
      ∃ t, exec (.ssuEnable who v) s = .next t ∧ t.resp = .done ∧ t.bit Reg.ssuCtrl 0 = true ∧ State.OnlyRegs s t ∧
        t.fget Reg.ssuStatus 1 0 = (if 2 ≤ s.fget Reg.ssuStatus 1 0 then b2n s.ssu.running.isSome else
          s.fget Reg.ssuStatus 1 0) ∧
        State.SameRegsBut s t fun r => r = Reg.ssuCtrl ∨ r = Reg.ssuStatus)

/-- SSU_SOLVE_END and SSU_DEADLINE_EXPIRY (R504, R509, R511 to R513): the solve in progress ends with its status; its
sequence number, record and counts follow, and its buckle takes the sequence number. Where the arrays, the work area or the warm
vector have been changed (R504), it ends with an open status. -/
def Claims.SolvesEndWithTheirStatus : Prop :=
  ∀ (s : State) (cycles : Word),
    (s.ssu.running = none → exec (.ssuSolveEnd cycles none) s = .next s ∧ ∀ k, exec (.ssuDeadlineExpiry k cycles) s = .next s) ∧
    (∀ p st e, s.ssu.running = some (p, st) → p < 8 → s.fget Reg.ssuStatus 1 0 = 1 → s.ssuIntact st = false →
      ∃ t, exec (.ssuSolveEnd cycles e) s = .next t ∧ t.ssu.running = none ∧ t.fget Reg.ssuStatus 1 0 = 0 ∧
        t.fget (Reg.ssuPStatus p) 1 0 = 0 ∧ t.rget (Reg.ssuPSeq p) = s.rget (Reg.ssuPSeq p) + 1 ∧
        t.rget Reg.ssuSolveCount = s.rget Reg.ssuSolveCount + 1) ∧
    ∀ (p : Nat) (st : SsuStart) (c : Instr) (o : Nat × Option Cg),
      s.ssu.running = some (p, st) → p < 8 → s.fget Reg.ssuStatus 1 0 = 1 →
      ((∃ e, c = .ssuSolveEnd cycles e ∧ s.ssuIntact st = true ∧ o = s.ssuOutcome st (e.map fun k => (k, ssuMemory))) ∨
        (∃ k, c = .ssuDeadlineExpiry k cycles ∧ s.ssuLate st = true ∧ o = s.ssuOutcome st (some (k, ssuTimeout)) ∧
          o.1 = ssuTimeout)) →
      let d := st.desc.getD []
      ∃ t, exec c s = .next t ∧ t.ssu.running = none ∧ t.fget Reg.ssuStatus 1 0 = 0 ∧
        t.fget (Reg.ssuPStatus p) 1 0 = 0 ∧ t.rget (Reg.ssuPSeq p) = s.rget (Reg.ssuPSeq p) + 1 ∧
        t.rget Reg.ssuSolveCount = s.rget Reg.ssuSolveCount + 1 ∧ t.fget (Reg.ssuPLast p) 7 0 = o.1 ∧
        (o.1 ≠ 0 → t.rget Reg.ssuFailCount = satAdd (s.rget Reg.ssuFailCount) 1 ∧ t.bit Reg.ssuStatus 5 = true) ∧
        (o.1 = 0 → t.rget Reg.ssuFailCount = s.rget Reg.ssuFailCount) ∧
        (inReflex (ssuOut d) 16 = true →
          t.readBytes (ssuOut d) 4 = natToBytes 4 (s.rget (Reg.ssuPSeq p)).toNat ∧
          t.readBytes (ssuOut d + 12) 4 = natToBytes 4 cycles.toNat) ∧
        (bitsOf (descWord d 0x30) 15 15 = 1 → s.mainOn = true →
          t.buckle (bitsOf (descWord d 0x30) 13 0) = s.rget (Reg.ssuPSeq p) + 1)

/-! ### Cinch -/

/-- The registers that a fault of Cinch changes. -/
def cinTouches (a : Nat) : Prop :=
  a = Reg.cinStatus ∨ a = Reg.cinFault ∨ a = Reg.cinFaultBeatLo ∨ a = Reg.cinFaultBeatLo + 4 ∨ a = Reg.cinOutStatus ∨
    a = Reg.cinReq

/-- `t` is `s` after a fault with this cause (R522, R528): its bit stands beside those before, the first cause and its beat
are kept, and from RUN or SAFE_STOP Cinch is in SAFE_STATE, its outputs low and the safe-state command up. -/
def CinFaulted (s t : State) (cause : Nat) : Prop :=
  (∀ i, 16 ≤ i → i < 32 → t.bit Reg.cinFault i = if i = cause + 15 then true else s.bit Reg.cinFault i) ∧
    t.bit Reg.cinStatus 4 = true ∧
    (s.fget Reg.cinFault 7 0 = 0 → t.fget Reg.cinFault 7 0 = cause ∧ t.get64 Reg.cinFaultBeatLo = s.beat % 2 ^ 64) ∧
    (s.fget Reg.cinFault 7 0 ≠ 0 → t.fget Reg.cinFault 15 0 = s.fget Reg.cinFault 15 0 ∧
      t.get64 Reg.cinFaultBeatLo = s.get64 Reg.cinFaultBeatLo) ∧
    (s.cinState = 1 ∨ s.cinState = 3 → t.cinState = 2 ∧ t.safeCommand = true ∧ t.fget Reg.cinOutStatus 3 0 = 0) ∧
    (s.cinState = 0 ∨ s.cinState = 2 → t.cinState = s.cinState) ∧
    State.SameMemory s t ∧ State.SameRegsBut s t cinTouches

/-- Has the watchdog run out (R533). -/
def wdogOver (s : State) : Bool :=
  s.cin.wdog.any fun b => decide (b + beatsPerUs * max 1 (s.fget Reg.cinWdogCfg 31 16) < s.beat)

/-- Does a check of the beat monitor fail (R534). -/
def beatWrong (s : State) (advance : Nat) : Bool :=
  decide (advance + max 2 (s.fget Reg.cinBeatMon 7 0) < 1250 ∨ 1250 + max 2 (s.fget Reg.cinBeatMon 7 0) < advance) ||
    !s.bit Reg.tmbStatus 0

/-- The cause that an event raises at Cinch. -/
def causeOf (s : State) : Instr → Option Nat
  | .lockstepMismatch => some 1
  | .cinEccError => some 2
  | .wdogExpiry => if wdogOver s then some 3 else none
  | .beatMonitorCheck advance => if beatWrong s advance && !s.cin.beatBad then some 4 else none
  | .vinMainLoss => some 5
  | .outputReadbackMismatch => some 9
  | .cinClockDeviation => some 10
  | .cinDemand => some 11
  | _ => none

/-- LOCKSTEP_MISMATCH, CIN_ECC_ERROR, WDOG_EXPIRY, BEAT_MONITOR_CHECK, VIN_MAIN_LOSS, OUTPUT_READBACK_MISMATCH,
CIN_CLOCK_DEVIATION, CIN_DEMAND and CIN_FW_FAULT: each event is a fault with its own cause (R518, R520, R523, R528, R533,
R534). -/
def Claims.FaultsReachTheSafeState : Prop :=
  ∀ s : State,
    (∀ c cause, causeOf s c = some cause → ∃ t, exec c s = .next t ∧ CinFaulted s t cause) ∧
    ∀ (who : Initiator) (v : Word), s.Takes who Reg.cinCtrl (v ||| maskOf 3 3) → fieldOf v 2 0 = 0 →
      ∃ t, exec (.cinFwFault who v) s = .next t ∧ t.resp = .done ∧ CinFaulted s t 8 ∧
        (s.fget Reg.cinFault 7 0 = 0 → t.fget Reg.cinFault 15 8 = fieldOf v 15 8)

/-- CIN_RUN, CIN_STOP, CIN_REARM, CIN_STOP_REQ, CIN_RUN_REQ and CORE_HOLD_WRITE (R524, R526, R527, R559, R704). -/
def Claims.CinchFollowsItsCommands : Prop :=
  ∀ (s : State) (who : Initiator) (v : Word),
    (s.Takes who Reg.cinCtrl (v ||| maskOf 0 0) → fieldOf v 3 1 = 0 →
      ∃ t, exec (.cinRun who v) s = .next t ∧ t.resp = .done ∧ State.SameMemory s t ∧ t.fget Reg.cinReq 1 0 = 0 ∧
        State.SameRegsBut s t (fun a => a = Reg.cinReq) ∧
        (s.cinState = 0 → s.causeStands = false →
          t.cin = if s.bit Reg.cinOutCfg 0 then { s.cin with entry := some (s.beat + 1) }
            else { s.cin with runReq := some s.beat }) ∧
        (s.cinState = 3 → s.bit Reg.cinReq 2 = false → t.cin = { s.cin with runReq := some s.beat }) ∧
        ((s.cinState = 0 ∧ s.causeStands = true) ∨ (s.cinState = 3 ∧ s.bit Reg.cinReq 2 = true) ∨ s.cinState = 1 ∨
          s.cinState = 2 → t.cin = s.cin)) ∧
    (s.Takes who Reg.cinCtrl (v ||| maskOf 1 1) → bitOf v 0 = false → fieldOf v 3 2 = 0 →
      ∃ t, exec (.cinStop who v) s = .next t ∧ t.resp = .done ∧ State.SameMemory s t ∧ t.fget Reg.cinReq 1 0 = 0 ∧
        State.SameRegsBut s t (fun a => a = Reg.cinReq ∨ a = Reg.cinStatus ∨ a = Reg.cinOutStatus) ∧
        (s.cinState = 1 → t.cinState = 3 ∧ t.safeCommand = true ∧ t.fget Reg.cinOutStatus 3 0 = 0 ∧
          t.cin.command = true) ∧
        (s.cinState = 0 → t.cinState = 3 ∧ t.rget Reg.cinOutStatus = s.rget Reg.cinOutStatus) ∧
        (2 ≤ s.cinState → t.cinState = s.cinState ∧ t.cin = s.cin)) ∧
    (s.Takes who Reg.cinCtrl (v ||| maskOf 2 2) → fieldOf v 1 0 = 0 → bitOf v 3 = false →
      ∃ t, exec (.cinRearm who v) s = .next t ∧ t.resp = .done ∧ State.SameMemory s t ∧
        State.SameRegsBut s t (fun a => a = Reg.cinStatus) ∧ t.cinState = s.cinState ∧
        (s.cinState = 0 → t.cin = { s.cin with held := [] }) ∧
        (s.cinState = 2 → s.conditionHolds = false → s.bit Reg.cinStatus 10 = false →
          t.bit Reg.cinStatus 11 = true ∧ t.cin = { s.cin with held := [], rearmBeat := s.beat }) ∧
        ((s.cinState = 2 ∧ (s.conditionHolds = true ∨ s.bit Reg.cinStatus 10 = true)) ∨ s.cinState = 1 ∨
          s.cinState = 3 → t.regs = s.regs ∧ t.cin = s.cin)) ∧
    ∀ (c : Instr) (w : Word), (c = .cinStopReq who v ∧ w = v ||| 1) ∨ (c = .cinRunReq who v ∧ w = v ||| 2) ∨
        (c = .coreHoldWrite who v ∧ w = v) →
      s.Takes who Reg.cinReq w →
      ∃ t, exec c s = .next t ∧ t.resp = .done ∧ State.SameMemory s t ∧
        State.SameRegsBut s t (fun a => a = Reg.cinReq) ∧
        t.bit Reg.cinReq 0 = (s.bit Reg.cinReq 0 || bitOf w 0) ∧ t.bit Reg.cinReq 1 = (s.bit Reg.cinReq 1 || bitOf w 1) ∧
        t.bit Reg.cinReq 2 = (if s.cinState = 3 then bitOf w 2 else s.bit Reg.cinReq 2) ∧
        (t.bit Reg.cinReq 2 = true → t.cin = { s.cin with wdog := none }) ∧
        (t.bit Reg.cinReq 2 = false → t.cin = s.cin)

/-- RESTART_EDGE, CINCH_RUN_ENTRY, REARM_EXPIRY, CIN_RUN_WINDOW_EXPIRY and CIN_DEMAND_RELEASE (R524, R526, R528, R532,
R533): an edge within 10 s of the request enters RUN one beat later, unless a cause stands then; a hand-off request of that very beat leads on to SAFE_STATE. -/
def Claims.CinchEntersRun : Prop :=
  ∀ s : State,
    (∃ t, exec .restartEdge s = .next t ∧ t.bit Reg.cinOutStatus 4 = true ∧ State.SameMemory s t ∧
      (s.edgeCompletes = false → t.cin = s.cin ∧ State.SameRegsBut s t fun a => a = Reg.cinOutStatus) ∧
      (s.edgeCompletes = true → s.cin.faultBeat ≠ some s.beat →
        t.cin = { s.cin with entry := some (s.beat + 1) } ∧ State.SameRegsBut s t fun a => a = Reg.cinOutStatus) ∧
      (s.edgeCompletes = true → s.cin.faultBeat = some s.beat → t.cin = { s.cin with runReq := none, entry := none } ∧
        t.bit Reg.cinStatus 11 = false)) ∧
    (s.cin.entry = none → exec .cinchRunEntry s = .next s) ∧
    (∀ b, s.cin.entry = some b → s.beat ≠ b → exec .cinchRunEntry s = .next s) ∧
    (s.cin.entry = some s.beat →
      (s.causeStands = false →
        ∃ t, exec .cinchRunEntry s = .next t ∧ t.cinState = 1 ∧ t.safeCommand = false ∧ t.rget Reg.cinFault = 0 ∧
          t.fget Reg.cinOutStatus 3 0 = 0xD ∧ t.cin.entry = none ∧ t.cin.runReq = none ∧
          t.cin.wdog = some (s.cin.wdog.getD s.beat) ∧ State.SameMemory s t ∧ State.SameRegsBut s t cinTouches) ∧
      (s.causeStands = true → s.handoffNow = false →
        ∃ t, exec .cinchRunEntry s = .next t ∧ t.cinState = s.cinState ∧ t.safeCommand = s.safeCommand ∧
          t.cin = { s.cin with runReq := none, entry := none } ∧ State.SameMemory s t ∧
          State.SameRegsBut s t fun a => a = Reg.cinStatus) ∧
      (s.handoffNow = true →
        ∃ t, exec .cinchRunEntry s = .next t ∧ t.cinState = 2 ∧ t.safeCommand = true ∧ t.bit Reg.cinFault 22 = true ∧
          State.SameMemory s t ∧ State.SameRegsBut s t cinTouches)) ∧
    (s.bit Reg.cinStatus 11 = true → s.cin.entry = none →
      (s.cin.rearmBeat + tenSeconds ≤ s.beat →
        ∃ t, exec .rearmExpiry s = .next t ∧ t.bit Reg.cinStatus 11 = false ∧ t.cinState = s.cinState ∧
          State.OnlyRegs s t ∧ State.SameRegsBut s t fun a => a = Reg.cinStatus) ∧
      (s.beat < s.cin.rearmBeat + tenSeconds → exec .rearmExpiry s = .next s)) ∧
    (∀ b, s.cin.runReq = some b → s.cin.entry = none →
      (b + tenSeconds ≤ s.beat →
        exec .cinRunWindowExpiry s = .next { s with cin := { s.cin with runReq := none } }) ∧
      (s.beat < b + tenSeconds → exec .cinRunWindowExpiry s = .next s)) ∧
    ∃ t, exec .cinDemandRelease s = .next t ∧ t.bit Reg.cinOutStatus 5 = true ∧ t.cin = { s.cin with demand := false } ∧
      State.SameMemory s t ∧ State.SameRegsBut s t fun a => a = Reg.cinOutStatus

/-- WDOG_KICK, WDOG_EXPIRY and BEAT_MONITOR_CHECK (R522, R533, R534): the right key inside the window restarts the
watchdog, anything else is a fault; a check that passes ends the beat condition, and every fifth check in RUN toggles
the safety outputs. -/
def Claims.WatchdogAndBeatAreWatched : Prop :=
  ∀ s : State,
    (∀ (who : Initiator) (key : Word), s.Takes who Reg.cinWdogKick key →
      (∀ b, s.cin.wdog = some b →
        (fieldOf key 15 0 = 0xC1A5 → b + beatsPerUs * s.fget Reg.cinWdogCfg 15 0 ≤ s.beat → wdogOver s = false →
          ∃ t, exec (.wdogKick who key) s = .next t ∧ t.resp = .done ∧ t.cin = { s.cin with wdog := some s.beat } ∧
            t.regs = s.regs ∧ State.SameMemory s t) ∧
        (fieldOf key 15 0 ≠ 0xC1A5 ∨ s.beat < b + beatsPerUs * s.fget Reg.cinWdogCfg 15 0 ∨ wdogOver s = true →
          ∃ t, exec (.wdogKick who key) s = .next t ∧ CinFaulted s t 3 ∧ t.cin.wdog = none)) ∧
      (s.cin.wdog = none →
        ∃ t, exec (.wdogKick who key) s = .next t ∧ t.resp = .done ∧ t.regs = s.regs ∧ State.SameMemory s t ∧
          t.cin.wdog = if fieldOf key 15 0 = 0xC1A5 ∧ s.bit Reg.cinReq 2 = false then some s.beat else none)) ∧
    (wdogOver s = false → exec .wdogExpiry s = .next s) ∧
    ∀ advance, beatWrong s advance = false →
      ∃ t, exec (.beatMonitorCheck advance) s = .next t ∧ t.cin.beatBad = false ∧ State.SameMemory s t ∧
        State.SameRegsBut s t (fun a => a = Reg.cinOutStatus) ∧
        (s.cinState = 1 → 4 ≤ s.cin.phase → t.bit Reg.cinOutStatus 0 = (!s.bit Reg.cinOutStatus 0) ∧
          t.bit Reg.cinOutStatus 1 = s.bit Reg.cinOutStatus 0 ∧ t.cin.phase = 0) ∧
        (s.cinState ≠ 1 ∨ s.cin.phase < 4 → t.regs = s.regs)

/-- SAFE_STATE_COMMAND and PWM_KILL_EXPIRY (R123, R461, R529, R530): the command takes every loop to SAFE and aborts the
armed transactions that need a vouch; when the kill is due every PWM pair is off. -/
def Obligations.TheSafeStateCommandActs : Prop :=
  ∀ s : State,
    (s.cin.command = false ∨ s.placeOpen 1 = false → exec .safeStateCommand s = .next s) ∧
    (s.cin.command = true → s.placeOpen 1 = true →
      ∃ t, exec .safeStateCommand s = .next t ∧ t.cin.command = false ∧ t.cin.killBase = some s.beat ∧
        State.SameMemory s t ∧
        (∀ l < 128, s.loopState l = 1 ∨ s.loopState l = 2 → (s.loop l).returning = none →
          t.loopState l = 2 ∧ t.lf l 0x84 5 2 = 2) ∧
        ∀ n < 64, s.txnState n = 2 → s.needsVouch n = true → t.txnState n = 4 ∧
          t.fget (Reg.txnStatus n) 7 4 = 0xA) ∧
    (s.killDue = false → exec .pwmKillExpiry s = .next s) ∧
    (s.killDue = true →
      ∃ t, exec .pwmKillExpiry s = .next t ∧ t.mio.killed = true ∧ (∀ n, (t.pwm n).hi = [] ∧ (t.pwm n).lo = []) ∧
        t.cin.killNow = false ∧ t.cin.killArmed = false ∧ State.SameMemory s t ∧
        State.SameRegsBut s t fun a => a = Reg.mioStatus)

/-- CIN_VERDICT_WRITE and SEAL_UNSEAL (R125, R538, R540): a vouch marks the head request, a veto aborts it with reason 4
and is recorded; a verdict on another transaction does nothing; an unsealed range is OPEN. -/
def Obligations.VerdictsDecideTheHeadRequest : Prop :=
  ∀ (s : State) (who : Initiator) (v : Word),
    (s.Takes who Reg.cinVerdict v →
      (∀ n rest, s.cin.queue = n :: rest → n < 64 → s.txnState n = 2 → s.cin.faultBeat ≠ some s.beat →
        (fieldOf v 5 0 ≠ n → ∃ t, exec (.cinVerdictWrite who v) s = .next t ∧ t.resp = .done ∧ t.regs = s.regs ∧
          t.cin = s.cin ∧ State.SameMemory s t) ∧
        (fieldOf v 5 0 = n → bitOf v 8 = true → s.cinState = 1 → s.bit Reg.cfgStatus 4 = false →
          (isTrusted (s.txnOwner n) = true ∨ s.gateFor n = true) → s.linkOf n = none →
          s.TxnsFit →
          ∃ t, exec (.cinVerdictWrite who v) s = .next t ∧ t.resp = .done ∧ t.bit (Reg.txnStatus n) 26 = true ∧
            t.txnState n = 2 ∧ t.rget Reg.cinVouchCount = s.rget Reg.cinVouchCount + 1 ∧ n ∉ t.cin.queue ∧
            State.SameMemory s t ∧
            State.SameRegsBut s t fun a => a = Reg.txnStatus n ∨ (blockIndex a = 0x20 ∧ a ≠ Reg.cinStatus)) ∧
        (∀ reason code, (bitOf v 8 = false ∧ reason = 6 ∧ code = fieldOf v 23 16) ∨
            (bitOf v 8 = true ∧ (s.cinState ≠ 1 ∨ s.bit Reg.cfgStatus 4 = true) ∧ reason = 7 ∧ code = 0) →
          fieldOf v 5 0 = n →
          ∃ t, exec (.cinVerdictWrite who v) s = .next t ∧ t.txnState n = 4 ∧ t.fget (Reg.txnStatus n) 7 4 = 4 ∧
            t.rget Reg.cinVetoLast = toWord (n + 256 * reason + 65536 * code) ∧
            t.rget Reg.cinVetoCount = s.rget Reg.cinVetoCount + 1 ∧ n ∉ t.cin.queue))) ∧
    ∀ r < 16, s.Takes who (Reg.cinSealCtrl r) (v ||| 4) →
      ∃ t, exec (.sealUnseal who r v) s = .next t ∧ t.resp = .done ∧ t.bit (Reg.cinSealCtrl r) 1 = false ∧
        t.fget (Reg.cinSealCtrl r) 13 8 = 0 ∧ State.OnlyRegs s t ∧
        State.SameRegsBut s t (fun a => a = Reg.cinSealCtrl r ∨ a = Reg.cinStatus) ∧
        (who ≠ .cinch → t.bit (Reg.cinSealCtrl r) 0 = s.bit (Reg.cinSealCtrl r) 0) ∧
        (who = .cinch → t.bit (Reg.cinSealCtrl r) 0 =
          if bitOf v 0 then (s.sealValid r || s.bit (Reg.cinSealCtrl r) 0) else false)

/-- CIN_FRAME_START, FRAME_DEADLINE_CHECK and GRID_CLOSE (R549 to R553, R556). -/
def Obligations.FramesAreWatched : Prop :=
  ∀ s : State,
    (s.frameStarts = false → exec .cinFrameStart s = .next s) ∧
    (s.frameStarts = true →
      ∃ t, exec .cinFrameStart s = .next t ∧ t.rget Reg.cinFrameNum = s.rget Reg.cinFrameNum + 1 ∧
        t.fget Reg.cinFrameStatus 3 0 = 0 ∧ t.fget Reg.cinFrameStatus 31 16 = 0 ∧
        t.fget Reg.cinFrameStatus 15 8 = s.fget Reg.cinFrameStatus 15 8 ∧ t.fget Reg.cinGridStatus 1 0 = 0 ∧
        t.cin.frameStart = some s.beat ∧ t.cin.gridRecs = [] ∧
        t.cin.watch = s.cin.watch ++ [⟨s.beat, s.beat + s.fget Reg.cinFrameDeadline 23 0, false⟩] ∧
        State.SameMemory s t ∧
        State.SameRegsBut s t fun a => a = Reg.cinFrameNum ∨ a = Reg.cinFrameStatus ∨ a = Reg.cinGridStatus) ∧
    (∀ w, s.cin.watch = [w] → s.bit Reg.cinFrameCfg 4 = true →
      (s.beat < w.deadline → ∃ t, exec .frameDeadlineCheck s = .next t ∧ t.regs = s.regs ∧ t.cin.watch = [w]) ∧
      (w.deadline ≤ s.beat → w.result = true →
        ∃ t, exec .frameDeadlineCheck s = .next t ∧ t.cin.watch = [] ∧ t.fget Reg.cinFrameStatus 15 8 = 0 ∧
          State.SameMemory s t ∧ State.SameRegsBut s t fun a => a = Reg.cinFrameStatus) ∧
      (w.deadline ≤ s.beat → w.result = false →
        let m := min 255 (s.fget Reg.cinFrameStatus 15 8 + 1)
        ∃ t, exec .frameDeadlineCheck s = .next t ∧ t.cin.watch = [] ∧ t.fget Reg.cinFrameStatus 15 8 = m ∧
          t.rget Reg.cinFrameMissCount = s.rget Reg.cinFrameMissCount + 1 ∧ t.bit Reg.cinStatus 7 = true ∧
          State.SameMemory s t ∧
          (m ≤ s.fget Reg.cinFrameCfg 3 2 → t.cinState = s.cinState ∧
            t.rget Reg.cinFault = s.rget Reg.cinFault) ∧
          (s.fget Reg.cinFrameCfg 3 2 < m → t.bit Reg.cinFault 21 = true ∧
            (s.cinState = 1 ∨ s.cinState = 3 → t.cinState = 2)))) ∧
    (s.gridDue = false → exec .gridClose s = .next s) ∧
    (s.gridDue = true → s.memPending = [] →
      let pts := s.cin.gridRecs.flatMap s.gridRecord
      let base := cinchBase + bitsOf (s.gridWord 0x10) 22 0
      ∃ t, exec .gridClose s = .next t ∧ t.bit Reg.cinGridStatus 0 = true ∧
        t.fget Reg.cinGridStatus 31 8 = min (2 ^ 24 - 1) pts.length ∧ t.cin.gridRecs = [] ∧
        t.readBytes base (s.gridBytes pts).length = s.gridBytes pts ∧
        (∀ a, ¬ (base ≤ a ∧ a < base + (s.gridBytes pts).length) → t.readByte a = s.readByte a) ∧
        State.SameRegsBut s t fun a => a = Reg.cinGridStatus)

/-! ### Shauz -/

/-- Port p accepts flit f in order (R566); `u` is the state in which the flit's message acts. -/
def Accepted (s u : State) (p : Nat) (f : Flit) : Prop := s.linkTake p f = (u, true)

/-- Port p sends one more flit: `g` leaves with the port's next number, behind those before it (R566). -/
def Sent (s t : State) (p : Nat) (good : Flit → Prop) : Prop :=
  ∃ g, (t.shzPort p).out = (s.shzPort p).out ++ [g] ∧ g.seq = ((s.shzPort p).txSeq + 1) % 4096 ∧ good g

/-- SHZ_IDLE, SHZ_BAD_CRC_FLIT and SHZ_REPLAY_TIMEOUT, and what a port does with the link words of every flit (R562,
R566): acknowledged flits leave the replay buffer, the next flit in order is accepted, any other asks for a replay, and
a replay resends what is not acknowledged. A flit of another generation (R570), with a bad CRC (R564) or a reserved field (R565) is
discarded and counted; the CRC of a flit that a port sends is good. -/
def Claims.PortsTakeFlitsInOrder : Prop :=
  (∀ f : Flit, (flitBytes f).length = 128 ∧ flitCrcOk (flitBytes f) = true) ∧
  ∀ (s : State) (p : Nat) (f : Flit) (bytes : List Byte),
    (s.portUp p = false → exec (.shzIdle p f) s = .next s ∧ exec (.shzReplayTimeout p) s = .next s ∧
      exec (.shzBadCrcFlit p bytes) s = .next s) ∧
    (s.portUp p = true → (s.shzPort p).badRun < 4 → f.nak = false →
      (s.numbered = false ∨ f.gen = s.ringGen) →
      (∃ t, exec (.shzIdle p f) s = .next t ∧ t.regs = s.regs ∧ State.SameMemory s t ∧
        (t.shzPort p).out = (s.shzPort p).out.filter (fun g => !seqUpTo g.seq f.ack) ∧
        (t.shzPort p).rxSeq = (s.shzPort p).rxSeq) ∧
      (f.typ ≠ 0 →
        (s.linkTake p f).2 = decide (f.seq % 4096 = ((s.shzPort p).rxSeq + 1) % 4096) ∧
        (s.linkTake p f).1.regs = s.regs ∧ State.SameMemory s (s.linkTake p f).1 ∧
        ((s.linkTake p f).2 = true → ((s.linkTake p f).1.shzPort p).rxSeq = f.seq % 4096) ∧
        ((s.linkTake p f).2 = false → ((s.linkTake p f).1.shzPort p).nak = true))) ∧
    (s.portUp p = true → (s.shzPort p).badRun < 4 → s.numbered = true → f.typ ≠ 8 → f.gen ≠ s.ringGen →
      (s.linkTake p f).2 = false ∧ ((s.linkTake p f).1.shzPort p).nak = true ∧
      (s.linkTake p f).1.rget Reg.shzBadCount = satAdd (s.rget Reg.shzBadCount) 1) ∧
    (s.portUp p = true →
      (flitCrcOk bytes = false → ∃ t, exec (.shzBadCrcFlit p bytes) s = .next t ∧ (t.shzPort p).nak = true ∧
        State.SameMemory s t ∧ t.rget (Reg.shzPCrcCount p) = satAdd (s.rget (Reg.shzPCrcCount p)) 1 ∧
        State.SameRegsBut s t fun a => a = Reg.shzPCrcCount p) ∧
      (flitCrcOk bytes = true → s.flitDiscarded bytes = true →
        ∃ t, exec (.shzBadCrcFlit p bytes) s = .next t ∧ (t.shzPort p).nak = true ∧ State.SameMemory s t ∧
        t.rget Reg.shzBadCount = satAdd (s.rget Reg.shzBadCount) 1 ∧
        State.SameRegsBut s t fun a => a = Reg.shzBadCount) ∧
      (flitCrcOk bytes = true → s.flitDiscarded bytes = false → exec (.shzBadCrcFlit p bytes) s = .next s) ∧
      (s.beat < (s.shzPort p).waits + 2 * beatsPerUs → exec (.shzReplayTimeout p) s = .next s) ∧
      ((s.shzPort p).out ≠ [] → (s.shzPort p).waits + 2 * beatsPerUs ≤ s.beat →
        ∃ t, exec (.shzReplayTimeout p) s = .next t ∧ (t.shzPort p).out = (s.shzPort p).out ∧
          (t.shzPort p).replays = (s.shzPort p).replays + 1 ∧ State.SameMemory s t ∧
          t.rget (Reg.shzPReplayCount p) =
            satAdd (s.rget (Reg.shzPReplayCount p)) (min 256 (s.shzPort p).out.length) ∧
          State.SameRegsBut s t fun a => a = Reg.shzPReplayCount p))

/-- Port and flit of an end-to-end message. -/
def e2eOf : Instr → Option (Nat × Flit)
  | .shzWrite p f => some (p, { f with typ := 1 })
  | .shzRead p f => some (p, { f with typ := 2 })
  | .shzRdata p f => some (p, { f with typ := 3 })
  | .shzBkl p f => some (p, { f with typ := 4 })
  | .shzLinkReady p f => some (p, { f with typ := 6, op := 0 })
  | .shzLinkGo p f => some (p, { f with typ := 6, op := 1 })
  | .shzLinkAbort p f => some (p, { f with typ := 6, op := 2 })
  | .shzLinkAborted p f => some (p, { f with typ := 6, op := 3 })
  | .shzErr p f => some (p, { f with typ := 9 })
  | _ => none

/-- Flit f is for this node, of the epochs that it knows. -/
def ForThisNode (u : State) (f : Flit) : Prop :=
  u.numbered = true ∧ f.dst = u.ownNode ∧ f.src < 8 ∧ f.dstEpoch = u.epochOf u.ownNode ∧ f.srcEpoch = u.epochOf f.src

/-- Flit f is the next message of its sender (R573), and not yet the one that is acknowledged at once. -/
def NextMessage (u : State) (f : Flit) : Prop :=
  ForThisNode u f ∧ f.e2e = ((u.shzPeer f.src).accepted % 65536 + 1) % 65536 ∧ (u.shzPeer f.src).fresh < 31

/-- End-to-end messages and SHZ_E2E_ACK (R571 to R574): one for another node goes on through the other port; one of
another epoch, and one accepted before, only count; an acknowledgement releases what it covers. -/
def Claims.MessagesAreRoutedAndNumbered : Prop :=
  ∀ (s u : State) (p : Nat) (f : Flit),
    (∀ c, e2eOf c = some (p, f) → Accepted s u p f →
      (u.numbered = false ∨ f.dst ≠ u.ownNode → u.portUp (1 - p) = true →
        ∃ t, exec c s = .next t ∧ State.SameMemory u t ∧ State.SameRegsBut u t (fun _ => False) ∧
          Sent u t (1 - p) fun g => g.typ = f.typ ∧ g.dst = f.dst ∧ g.src = f.src ∧ g.e2e = f.e2e ∧ g.op = f.op ∧
            g.addr = f.addr ∧ g.payload = f.payload) ∧
      (u.numbered = true → f.dst = u.ownNode →
        (f.dstEpoch ≠ u.epochOf u.ownNode ∨ f.srcEpoch ≠ u.epochOf f.src →
          ∃ t, exec c s = .next t ∧ t.shz = u.shz ∧ t.rget Reg.shzStaleCount = satAdd (u.rget Reg.shzStaleCount) 1 ∧
            t.bit Reg.shzStatus 6 = true ∧ State.SameMemory u t ∧
            State.SameRegsBut u t fun a => a = Reg.shzStaleCount ∨ a = Reg.shzStatus)) ∧
      (ForThisNode u f → f.e2e = (u.shzPeer f.src).accepted % 65536 →
        ∃ t, exec c s = .next t ∧ t.shz = u.shz ∧ t.rget Reg.shzDupCount = satAdd (u.rget Reg.shzDupCount) 1 ∧
          State.SameMemory u t ∧ State.SameRegsBut u t fun a => a = Reg.shzDupCount) ∧
      (NextMessage u f → ∃ t, exec c s = .next t ∧ (t.shzPeer f.src).accepted = f.e2e)) ∧
    (Accepted s u p { f with typ := 5 } → u.numbered = true → f.dst = u.ownNode →
      ∃ t, exec (.shzE2eAck p f) s = .next t ∧ State.SameMemory u t ∧
        (t.shzPeer f.src).held = (u.shzPeer f.src).held.filter
          fun g => !decide ((f.e2e + 65535 - g.e2e % 65536) % 65536 < 32768))

/-- SHZ_WRITE, SHZ_READ, SHZ_RDATA, SHZ_BKL and SHZ_ERR (R575 to R577): a request does at this node what its sender may do,
or is refused; a refused write or signal is counted, and a refused read answered with OP 1. -/
def Obligations.RemoteAccessesAct : Prop :=
  ∀ (s u : State) (p : Nat) (f : Flit), NextMessage u f →
    (Accepted s u p { f with typ := 1 } →
      (requestShape f = true → (regionOf f.addr = .tierA ∨ regionOf f.addr = .tierB) →
        u.longDenied .shauz f.addr f.len = none → u.Clean f.addr f.len → f.payload.length = f.len →
        ∃ t, exec (.shzWrite p f) s = .next t ∧ t.readBytes f.addr f.len = f.payload ∧ t.regs = u.regs ∧
          ∀ a, ¬ (f.addr ≤ a ∧ a < f.addr + f.len) → t.readByte a = u.readByte a) ∧
      (requestShape f = false → u.nodeReachable f.src = true →
        ∃ t, exec (.shzWrite p f) s = .next t ∧ State.SameMemory u t ∧
          t.rget Reg.shzRefusedCount = satAdd (u.rget Reg.shzRefusedCount) 1 ∧
          ∃ g, (t.shzPeer f.src).held = (u.shzPeer f.src).held ++ [g] ∧ g.typ = 9 ∧ g.op = 1 ∧ g.tag = f.tag)) ∧
    (Accepted s u p { f with typ := 2 } → u.nodeReachable f.src = true →
      ∃ t g, exec (.shzRead p f) s = .next t ∧ State.SameMemory u t ∧
        (t.shzPeer f.src).held = (u.shzPeer f.src).held ++ [g] ∧ g.typ = 3 ∧ g.dst = f.src ∧ g.tag = f.tag ∧
        (requestShape f = true → readTarget f.addr = true → u.readable f.addr = true →
          u.readable (f.addr + (f.len - 1)) = true → u.Clean f.addr f.len →
          g.op = 0 ∧ g.payload = u.readBytes f.addr f.len) ∧
        (requestShape f = false ∨ readTarget f.addr = false → g.op = 1 ∧ g.payload = [] ∧ t.regs = u.regs)) ∧
    (Accepted s u p { f with typ := 3 } → ∀ r, r ∈ u.shz.reads → r.tag = f.tag → r.node = f.src →
      (∀ q ∈ u.shz.reads, q.tag = f.tag → q = r) →
      ∃ t, exec (.shzRdata p f) s = .next t ∧ r ∉ t.shz.reads ∧ State.SameMemory u t ∧ t.regs = u.regs ∧
        t.resp = if f.op = 0 then .data (bytesToNat ((f.payload.drop r.off).take r.len)) else .accessFault) ∧
    (Accepted s u p { f with typ := 4 } →
      let b := f.addr % 16384
      let v := toWord (bytesToNat (f.payload.take 4))
      ∃ t, exec (.shzBkl p f) s = .next t ∧ State.SameMemory u t ∧
        (isProtected b = false → u.mainOn = true → t.buckle b = if f.op = 0 then v else u.buckle b + v) ∧
        (isProtected b = true → t.buckle b = u.buckle b ∧
          t.rget Reg.shzRefusedCount = satAdd (u.rget Reg.shzRefusedCount) 1)) ∧
    (Accepted s u p { f with typ := 9 } →
      ∃ t, exec (.shzErr p f) s = .next t ∧ State.SameMemory u t ∧
        t.rget Reg.shzErrCount = satAdd (u.rget Reg.shzErrCount) 1 ∧ State.SameRegsBut u t fun a => a = Reg.shzErrCount)

/-- SHZ_READ_TIMEOUT and SHZ_E2E_ACK_TIMER (R573, R577). -/
def Claims.RemoteTimersExpire : Prop :=
  (∀ (s : State) (tag : Nat) (r : ShzRead), s.shz.reads.find? (fun q => q.tag = tag) = some r →
    (r.start + beatsPerUs * max 1 (s.fget Reg.shzRdTimeout 15 0) ≤ s.beat →
      ∃ t, exec (.shzReadTimeout tag) s = .next t ∧ t.resp = .accessFault ∧ r ∉ t.shz.reads ∧ t.regs = s.regs ∧
        State.SameMemory s t) ∧
    (s.beat < r.start + beatsPerUs * max 1 (s.fget Reg.shzRdTimeout 15 0) →
      exec (.shzReadTimeout tag) s = .next s)) ∧
  ∀ (s : State) (n : Nat), n < 8 →
    ((s.shzPeer n).fresh = 0 → exec (.shzE2eAckTimer n) s = .next s) ∧
    ((s.shzPeer n).fresh ≠ 0 → s.portUp (s.routePort n) = true →
      ∃ t, exec (.shzE2eAckTimer n) s = .next t ∧ (t.shzPeer n).fresh = 0 ∧ State.SameMemory s t ∧
        State.SameRegsBut s t (fun _ => False) ∧
        Sent s t (s.routePort n) fun g => g.typ = 5 ∧ g.dst = n ∧ g.e2e = ((s.shzPeer n).accepted + 1) % 65536)

/-- The transaction that link slot l names. -/
def slotTxn (s : State) (l : Nat) : Nat := s.fget (Reg.shzLinkCfg l) 7 2

/-- SHZ_LINK_READY, SHZ_LINK_GO, SHZ_LINK_ABORT, SHZ_LINK_ABORTED and SHZ_LINK_LEAD_EXPIRY (R579 to R581). -/
def Obligations.LinkedTransactionsCommitTogether : Prop :=
  (∀ (s u : State) (p l : Nat) (f : Flit), NextMessage u f →
    (Accepted s u p { f with typ := 6, op := 0 } → u.slotsOf false f.tag = [l] → u.TxnsFit →
      ∃ t, exec (.shzLinkReady p f) s = .next t ∧ t.bit (Reg.shzLinkStatus l) (4 + f.src) = true ∧
        (⟨l, f.src, bytesToNat (f.payload.take 8), bytesToNat ((f.payload.drop 8).take 4)⟩ : ShzReady) ∈ t.shz.ready ∧
        State.SameMemory u t) ∧
    (Accepted s u p { f with typ := 6, op := 1 } →
      ∃ t, exec (.shzLinkGo p f) s = .next t ∧ State.SameMemory u t ∧
        (∀ k ∈ u.slotsUnder f, t.fget (Reg.shzLinkStatus k) 2 0 = 3) ∧
        State.SameRegsBut u t fun a => ∃ k ∈ u.slotsUnder f, a = Reg.shzLinkStatus k) ∧
    (Accepted s u p { f with typ := 6, op := 2 } → u.slotsUnder f = [l] →
      (u.txnState (slotTxn u l) = 1 ∨ u.txnState (slotTxn u l) = 2) →
      ∃ t, exec (.shzLinkAbort p f) s = .next t ∧ t.txnState (slotTxn u l) = 4 ∧
        t.fget (Reg.txnStatus (slotTxn u l)) 7 4 = 1 ∧ State.SameMemory u t) ∧
    (Accepted s u p { f with typ := 6, op := 3 } → u.slotsOf false f.tag = [l] →
      (u.txnState (slotTxn u l) = 1 ∨ u.txnState (slotTxn u l) = 2) → u.TxnsFit →
      ∃ t, exec (.shzLinkAborted p f) s = .next t ∧ t.txnState (slotTxn u l) = 4 ∧
        t.fget (Reg.txnStatus (slotTxn u l)) 7 4 = 1 ∧ t.fget (Reg.shzLinkStatus l) 22 20 = f.src ∧
        t.fget (Reg.shzLinkStatus l) 19 12 = bytesToNat ((f.payload.drop 12).take 1) ∧ State.SameMemory u t)) ∧
  ∀ (s : State) (l : Nat), l < 8 →
    (s.leadReached l = false → exec (.shzLinkLeadExpiry l) s = .next s) ∧
    (s.leadReached l = true → s.bit (Reg.shzLinkCfg l) 0 = true → s.bit (Reg.shzLinkCfg l) 1 = false →
      s.fget (Reg.shzLinkStatus l) 2 0 < 3 → s.txnState (slotTxn s l) = 2 → s.linkMissing l ≠ [] →
      s.TxnsFit →
      ∃ t, exec (.shzLinkLeadExpiry l) s = .next t ∧ t.txnState (slotTxn s l) = 4 ∧
        t.fget (Reg.txnStatus (slotTxn s l)) 7 4 = 1 ∧ t.fget (Reg.shzLinkStatus l) 22 20 ∈ s.linkMissing l ∧
        State.SameMemory s t)

/-- SHZ_TIME and SHZ_TIME_EXCHANGE (R582, R583): a request is answered with its arrival; an answer gives DELAY and OFFSET
from the four stamps. -/
def Claims.TimeIsExchanged : Prop :=
  (∀ (s u : State) (p arrived : Nat) (f : Flit), Accepted s u p { f with typ := 7 } →
    (∃ t, exec (.shzTime p f arrived none) s = .next t ∧ State.SameMemory u t ∧
      State.SameRegsBut u t (fun _ => False) ∧
      Sent u t p fun g => g.typ = 7 ∧ g.op = 1 ∧ g.payload = natToBytes 8 arrived) ∧
    ∀ t1 t2 t3 : Nat, (u.shzPort p).t1 = some t1 →
      ∃ t, exec (.shzTime p f arrived (some (t2, t3))) s = .next t ∧ (t.shzPort p).t1 = none ∧ State.SameMemory u t ∧
        t.rget (Reg.shzPOffset p) = ofInt32 ((((t2 : Int) - t1) - ((arrived : Int) - t3)).tdiv 2 -
          sext 16 (u.fget (Reg.shzPAsym p) 15 0)) ∧
        t.fget (Reg.shzPDelay p) 15 0 =
          (ofInt32 ((((arrived : Int) - t1) - ((t3 : Int) - t2)).tdiv 2)).toNat % 65536 ∧
        State.SameRegsBut u t fun a => a = Reg.shzPOffset p ∨ a = Reg.shzPDelay p) ∧
  ∀ (s : State) (p sent : Nat),
    (s.bit Reg.shzSyncCfg 16 = true → s.portUp p = true → s.syncDue p = true →
      ∃ t, exec (.shzTimeExchange p sent) s = .next t ∧ (t.shzPort p).t1 = some sent ∧ State.SameMemory s t ∧
        State.SameRegsBut s t (fun _ => False) ∧ Sent s t p fun g => g.typ = 7 ∧ g.op = 0) ∧
    (s.bit Reg.shzSyncCfg 16 = false ∨ s.portUp p = false ∨ s.syncDue p = false → exec (.shzTimeExchange p sent) s = .next s)

/-- SHZ_ENUM, SHZ_ENUM_WALK, SHZ_ENUM_ASSIGN and SHZ_LEAVE (R567 to R570, R590): the head starts a walk, every node on the
way adds itself, the head that gets its walk back numbers the nodes, a node takes the number that the assignment
gives it, and a number that its holder leaves is free. -/
def Obligations.NodesAreNumbered : Prop :=
  (∀ (s : State) (who : Initiator) (v : Word), s.Takes who Reg.shzCtrl (v ||| 2) → bitOf v 0 = true → bitOf v 2 = false →
    (s.isHead = true → s.portUp 0 = true →
      ∃ t, exec (.shzEnum who v) s = .next t ∧ t.resp = .done ∧ t.bit Reg.shzStatus 3 = false ∧ t.shz.walk = some [] ∧
        State.SameMemory s t ∧ State.SameRegsBut s t (fun a => a = Reg.shzCtrl ∨ a = Reg.shzStatus) ∧
        Sent s t 0 fun g => g.typ = 8 ∧ g.op = 0 ∧ g.payload = walkPayload [s.ownEntry]) ∧
    (s.isHead = false →
      ∃ t, exec (.shzEnum who v) s = .next t ∧ t.resp = .done ∧ t.shz.walk = s.shz.walk ∧ State.SameMemory s t ∧
        State.SameRegsBut s t fun a => a = Reg.shzCtrl)) ∧
  (∀ (s u : State) (p : Nat) (f : Flit) (walk : List WalkEntry) (back : Bool), Accepted s u p { f with typ := 8 } →
    (u.isHead = false →
      let out := if back || u.portUp (1 - p) then 1 - p else p
      u.portUp out = true →
      ∃ t, exec (.shzEnumWalk p f walk back) s = .next t ∧ State.SameMemory u t ∧
        State.SameRegsBut u t (fun _ => False) ∧
        Sent u t out fun g => g.typ = 8 ∧ g.op = b2n (back || !u.portUp (1 - p)) ∧
          g.payload = walkPayload (if back then walk else walk ++ [u.ownEntry])) ∧
    (u.isHead = true → (walk.head?.map fun e => e.uid) ≠ some u.ownUid →
      ∃ t, exec (.shzEnumWalk p f walk back) s = .next t ∧ t.bit Reg.shzStatus 3 = true ∧ t.shz.walk = none ∧
        State.SameMemory u t ∧ State.SameRegsBut u t fun a => a = Reg.shzStatus) ∧
    (u.isHead = true → (walk.head?.map fun e => e.uid) = some u.ownUid → u.shz.walk = some [] →
      u.shz.secondWalk = false → p = 1 ∨ u.portUp 1 = false → u.TxnsFit →
      ∃ t, exec (.shzEnumWalk p f walk back) s = .next t ∧ t.shz.enumerated = true ∧ t.shz.walk = none ∧
        t.numbered = true ∧ t.ownNode = 0 ∧ t.shz.ring = decide (p = 1) ∧ State.SameMemory u t)) ∧
  (∀ (s u : State) (p : Nat) (f : Flit) (a : Assignment), Accepted s u p { f with typ := 8 } → u.isHead = false →
    u.fget Reg.shzStatus 1 0 ≠ 3 → u.TxnsFit →
    (∀ n, a.line.find? (fun g => g.1 = u.ownUid) = some (u.ownUid, n) → n < 8 → a.line.length ≤ 8 →
      ∃ t, exec (.shzEnumAssign p f a) s = .next t ∧ t.numbered = true ∧ t.ownNode = n ∧
        t.fget Reg.shzNode 7 4 = a.line.length ∧ t.bit Reg.shzStatus 7 = false ∧
        t.shz.order = (a.line.map fun g => g.2) ∧ t.shz.ring = a.ring ∧ State.SameMemory u t) ∧
    (a.line.find? (fun g => g.1 = u.ownUid) = none →
      ∃ t, exec (.shzEnumAssign p f a) s = .next t ∧ t.bit Reg.shzStatus 7 = true ∧
        t.numbered = false ∧ State.SameMemory u t)) ∧
  ∀ (s u : State) (p : Nat) (f : Flit), Accepted s u p { f with typ := 8 } → u.numbered = true → f.dst = u.ownNode →
    u.isHead = true → 0 < f.src → f.src < 8 → (∃ uid, (f.src, uid) ∈ u.shz.holders) →
    ∃ t, exec (.shzLeave p f) s = .next t ∧ (∀ uid, (f.src, uid) ∉ t.shz.holders) ∧
      t.epochOf f.src = (u.epochOf f.src + 1) % 65536 ∧ (t.shzPeer f.src).held = [] ∧ State.SameMemory u t ∧
      State.SameRegsBut u t fun a => a = Reg.shzEpoch f.src ∨ a = Reg.shzNode ∨ a = Reg.shzUnreachCount

/-- SHZ_BEACON, SHZ_BEACON_SEND and SHZ_ISOLATE_EXPIRY (R585 to R587): beacons pass the ports that are DOWN on; a node
without one for its time is ISOLATED, and where it is so set its loops go to SAFE. -/
def Claims.BeaconsKeepTheNodesTogether : Prop :=
  (∀ (s u : State) (p : Nat) (f : Flit) (down : List (Nat × Nat)), Accepted s u p { f with typ := 8 } →
    u.isHead = false →
    ∃ t, exec (.shzBeacon p f down) s = .next t ∧ t.shz.broken = down ∧ t.shz.beacon = u.beat ∧ State.SameMemory u t ∧
      (u.shz.broken = down → State.SameRegsBut u t (fun _ => False) ∧
        (u.portUp (1 - p) = true → Sent u t (1 - p) fun g => g.typ = 8 ∧ g.payload = f.payload))) ∧
  ∀ s : State,
    (s.isHead = true → s.numbered = true → s.shz.beaconSent + 10 * beatsPerUs ≤ s.beat →
      ∃ t, exec .shzBeaconSend s = .next t ∧ t.shz.beaconSent = s.beat ∧ State.SameMemory s t ∧
        State.SameRegsBut s t (fun _ => False) ∧
        ∀ p, s.portUp p = true → Sent s t p fun g => g.typ = 8 ∧ g.op = 3) ∧
    (s.isHead = false ∨ s.numbered = false ∨ s.beat < s.shz.beaconSent + 10 * beatsPerUs →
      exec .shzBeaconSend s = .next s) ∧
    (s.numbered = true → s.ownNode ≠ 0 → s.fget Reg.shzStatus 1 0 ≠ 3 → s.beaconLate = true → s.TxnsFit →
      ∃ t, exec .shzIsolateExpiry s = .next t ∧ t.fget Reg.shzStatus 1 0 = 3 ∧ t.bit Reg.shzStatus 5 = true ∧
        State.SameMemory s t ∧
        (s.bit Reg.shzCfg 2 = true → ∀ l < 128, s.loopState l = 1 → t.loopState l = 2) ∧
        (s.bit Reg.shzCfg 2 = false → ∀ l < 128, t.loopState l = s.loopState l)) ∧
    (s.beaconLate = false → exec .shzIsolateExpiry s = .next s)

/-- SHZ_PORT_UP, SHZ_PORT_DOWN, SHZ_PORT_RETRAIN, SHZ_CTRL_LEAVE, SHZ_DISABLE and SHZ_LEAVE_PORTS_DOWN (R561, R562,
R590). -/
def Claims.PortsComeAndGo : Prop :=
  ∀ s : State, s.TxnsFit →
    (∀ p width, p < 2 → width < 4 → s.mainOn = true → s.shz.stayDown = false → s.portUp p = false →
      (∃ t, exec (.shzPortUp p width false) s = .next t ∧ t.portUp p = true ∧
        t.fget (Reg.shzPStatus p) 3 2 = width ∧ t.bit (Reg.shzPStatus p) 5 = false ∧ State.SameMemory s t) ∧
      (∃ t, exec (.shzPortUp p width true) s = .next t ∧ t.portUp p = false ∧ t.bit (Reg.shzPStatus p) 5 = true ∧
        State.SameMemory s t ∧ State.SameRegsBut s t fun a => a = Reg.shzPStatus p) ∧
      ((∀ b, (s.shzPort p).trained = some b → b + 1000 * beatsPerUs ≤ s.beat) →
        ∃ t, exec (.shzPortRetrain p) s = .next t ∧ t.fget (Reg.shzPStatus p) 1 0 = 1 ∧ State.SameMemory s t ∧
          (t.shzPort p).trained = some s.beat ∧ State.SameRegsBut s t fun a => a = Reg.shzPStatus p) ∧
      (∀ b, (s.shzPort p).trained = some b → s.beat < b + 1000 * beatsPerUs →
        exec (.shzPortRetrain p) s = .next s)) ∧
    (∀ p lost, s.portUp p = true →
      (lost = true ∨ 8 ≤ (s.shzPort p).replays →
        ∃ t, exec (.shzPortDown p lost) s = .next t ∧ t.portUp p = false ∧ (t.shzPort p).out = [] ∧
          t.rget (Reg.shzPDownCount p) = satAdd (s.rget (Reg.shzPDownCount p)) 1 ∧ State.SameMemory s t) ∧
      (lost = false → (s.shzPort p).replays < 8 → exec (.shzPortDown p lost) s = .next s)) ∧
    (∀ (who : Initiator) (v : Word), s.Takes who Reg.shzCtrl (v ||| 4) → bitOf v 0 = true → bitOf v 1 = false →
      ∃ t, exec (.shzCtrlLeave who v) s = .next t ∧ t.resp = .done ∧ State.SameMemory s t ∧ t.shz.stayDown = false ∧
        State.SameRegsBut s t (fun a => a = Reg.shzCtrl) ∧
        (s.isHead = false → s.shz.leaving = none → t.shz.leaving = some s.beat) ∧
        (s.isHead = true → t.shz.leaving = s.shz.leaving)) ∧
    (∀ (who : Initiator) (v : Word), s.Takes who Reg.shzCtrl (v &&& ~~~ 1) → bitOf v 1 = false →
      ∃ t, exec (.shzDisable who v) s = .next t ∧ t.resp = .done ∧ State.SameMemory s t ∧ t.shz.stayDown = true ∧
        t.bit Reg.shzCtrl 0 = false ∧
        (s.isHead = true → t.portUp 0 = false ∧ t.portUp 1 = false) ∧
        (s.isHead = false → s.shz.leaving = none → t.shz.leaving = some s.beat)) ∧
    (s.shz.leaving = none → exec .shzLeavePortsDown s = .next s) ∧
    ∀ b, s.shz.leaving = some b →
      (s.nothingHeld = true ∨ b + 1000 * beatsPerUs ≤ s.beat →
        ∃ t, exec .shzLeavePortsDown s = .next t ∧ t.portUp 0 = false ∧ t.portUp 1 = false ∧ t.shz.leaving = none ∧
          State.SameMemory s t) ∧
      (s.nothingHeld = false → s.beat < b + 1000 * beatsPerUs → exec .shzLeavePortsDown s = .next s)

/-! ### Reset, power and temperature -/

/-- `t` is `s` after a source of a main reset, recorded in bit `cause` of SYS_RESET_CAUSE (R679): the registers of the main
domain are at their reset values, its units and transactions are empty, and the memories of the always-on domain keep
their contents. -/
def MainReset (s t : State) (cause : Nat) : Prop :=
  t.mainOn = false ∧ t.bit Reg.sysResetCause cause = true ∧
    (s.mainOn = true → s.TxnsFit → s.memPending = [] →
      (∀ a, mainAddress a = true → t.rget a = resetOf a) ∧ t.txns = [] ∧ t.snaps = [] ∧ t.tlb = [] ∧
      t.ten = Plane.idle ∧ t.reservations = [] ∧
      ∀ a, regionOf a = .reflexSram ∨ regionOf a = .cinchSram → t.readByte a = s.readByte a)

/-- The registers that a reset of the main domain alone changes. -/
def resetTouches (a : Nat) : Prop :=
  mainAddress a = true ∨ a = Reg.sysStatus ∨ a = Reg.sysResetCause ∨ blockIndex a = 0x20

/-- POWER_ON_RESET, RESET_N_ASSERT, POWER_FAULT, REF_LOSS, THERMAL_TRIP and SYS_RESET_MAIN (R677, R679, R684, R686, R688,
R691). A safe-state command of the beat takes effect before the reset (R686), and no event of the beat after it (R388, log entry 34). -/
def Obligations.ResetsClearTheMainDomain : Prop :=
  ∀ s : State,
    (∃ t, exec .powerOnReset s = .next t ∧ (∀ a, t.rget a = resetOf a) ∧ t.fuses = s.fuses ∧ t.flash = s.flash ∧
      t.txns = [] ∧ t.cin = Cinch.boot ∧ t.pending = s.pending) ∧
    (∃ t, exec .resetNAssert s = .next t ∧ MainReset s t 1 ∧ t.pwr.resetN = false ∧
      (s.TxnsFit → s.cin.command = false → State.SameRegsBut s t resetTouches) ∧
      (s.cin.command = true → t.cin.command = false ∧ ∀ l < 128, s.loopState l = 1 → t.loopState l = 2)) ∧
    (∀ rail < 8,
      (∃ t, exec (.powerFault rail false) s = .next t ∧ MainReset s t 2 ∧ t.bit Reg.sysRailStatus rail = false ∧
        t.fget Reg.sysRailStatus 11 8 = rail + 1 ∧ t.rget Reg.sysPwrFaultCount = s.rget Reg.sysPwrFaultCount + 1 ∧
        t.bit Reg.sysStatus 4 = true ∧ t.bit Reg.cinFault 20 = true ∧
        (s.TxnsFit → s.cin.command = false → State.SameRegsBut s t fun a =>
          resetTouches a ∨ a = Reg.sysRailStatus ∨ a = Reg.sysPwrFaultCount)) ∧
      (∃ t, exec (.powerFault rail true) s = .next t ∧ t.mainOn = s.mainOn ∧ t.bit Reg.sysRailStatus rail = false ∧
        t.bit Reg.cinFault 20 = true ∧ t.pwr.resetN = false ∧ State.SameMemory s t ∧
        State.SameRegsBut s t fun a => a = Reg.sysRailStatus ∨ blockIndex a = 0x20)) ∧
    (∃ t, exec .refLoss s = .next t ∧ MainReset s t 4 ∧ t.pwr.refLost = true ∧
      (s.cin.command = false → ∀ l < 128, s.loopState l = 1 → t.bit (Reg.loopReg l 0x84) 9 = true)) ∧
    (s.anyAt 17 s.tripC = true →
      ∃ t, exec .thermalTrip s = .next t ∧ MainReset s t 3 ∧ t.bit Reg.sysStatus 3 = true ∧
        t.bit Reg.sysRailStatus 7 = false ∧ t.pwr.tripLow = true) ∧
    (s.anyAt 17 s.tripC = false → exec .thermalTrip s = .next s) ∧
    ∀ (who : Initiator) (key : Nat), s.Takes who Reg.sysReset (toWord (1 + 65536 * key)) →
      ∃ t, exec (.sysResetMain who key) s = .next t ∧ t.resp = .done ∧ t.regs = s.regs ∧ State.SameMemory s t ∧
        t.pwr = if key % 65536 = 0xA5C3 then { s.pwr with asked := s.pwr.asked ++ [(s.beat + 1, 6)] } else s.pwr

/-- MAIN_RESET_END and RAIL_BACK_IN_TOLERANCE (R526, R593, R682, R683): once its conditions hold the main domain runs, the
fuses show and the buckles are restored; a rail that is back shows, and the last one ends the loss of VIN_MAIN. -/
def Claims.TheMainDomainComesBack : Prop :=
  ∀ s : State,
    (∀ e, s.resetMayEnd = false → exec (.mainResetEnd e) s = .next s) ∧
    (∀ e, s.resetMayEnd = true →
      ∃ t, exec (.mainResetEnd e) s = .next t ∧ t.mainOn = true ∧ t.stw.toBoot = true ∧ t.bit Reg.cfgStatus 6 = e ∧
        t.bit Reg.cfgFuse 0 = s.fuses.secureBoot ∧ t.fget Reg.cfgFuse 2 1 = s.fuses.keyRevoke % 4 ∧
        t.bit Reg.cfgFuse 3 = s.fuses.debugLock ∧ t.get64 Reg.cfgUidLo = s.fuses.uid % 2 ^ 64 ∧ State.SameMemory s t ∧
        (s.bit Reg.qdrPubCfg 2 = false →
          (∀ p < 8, bitsOf (s.readNat (reflexBase + s.fget (Reg.ssuPDesc p) 22 6 * 64 + 0x30) 4) 15 15 = 0) →
          t.buckle (s.fget Reg.qdrPubBkl 13 0) = s.qdr.pubSeq)) ∧
    ∀ rail < 8,
      (s.bit Reg.sysRailStatus rail = true → exec (.railBackInTolerance rail) s = .next s) ∧
      (s.bit Reg.sysRailStatus rail = false →
        ∃ t, exec (.railBackInTolerance rail) s = .next t ∧ t.bit Reg.sysRailStatus rail = true ∧ State.SameMemory s t ∧
          State.SameRegsBut s t (fun a => a = Reg.sysRailStatus) ∧
          (t.railsGood = true → t.pwr.goodSince = s.beat ∧ t.cin.vinLost = false) ∧
          (t.railsGood = false → t.pwr = s.pwr ∧ t.cin = s.cin))

/-- The tensor clock that the cap and the temperature allow, where it is not the one in use (R41, R690). -/
def clockAsked (s t : State) : Prop :=
  (t.ten.clockReq.map fun r => r.1) = if s.fget Reg.stwPower 26 16 = min t.pwr.capTen t.pwr.thermTen then none
    else some (min t.pwr.capTen t.pwr.thermTen)

/-- POWER_CAP_SELECT, POWER_EXCURSION, TEMP_SENSOR_UPDATE and THERMAL_THROTTLE_STEP (R39 to R42, R689, R690). Which clock the
Steward chooses under a cap is free; the readings of the DRAM stacks come in steps of 1 °C. -/
def Claims.PowerAndTemperatureAreHeld : Prop :=
  ∀ s : State,
    (∀ (who : Initiator) (cap : Nat), s.Takes who Reg.stwPower (toWord (cap % 8)) →
      ∃ t, exec (.powerCapSelect who cap) s = .next t ∧ t.resp = .done ∧ State.SameMemory s t ∧
        (4 < cap % 8 → t.regs = s.regs ∧ t.pwr = s.pwr) ∧
        (cap % 8 ≤ 4 → t.fget Reg.stwPower 2 0 = cap % 8 ∧
          t.fget Reg.stwPower 26 16 = s.fget Reg.stwPower 26 16 ∧
          State.SameRegsBut s t (fun a => a = Reg.stwPower ∨ a = Reg.sysStatus) ∧
          (s.stewardActs = true → 600 ≤ t.pwr.capTen ∧ t.pwr.capTen ≤ 1500 ∧ clockAsked s t ∧
            (cap % 8 < s.fget Reg.stwPower 2 0 →
              t.pwr.capTen ≤ tenRange s.pwr.capTen ∧ t.pwr.capApp ≤ s.pwr.capApp) ∧
            (s.fget Reg.stwPower 2 0 < cap % 8 →
              tenRange s.pwr.capTen ≤ t.pwr.capTen ∧ s.pwr.capApp ≤ t.pwr.capApp) ∧
            (cap % 8 = s.fget Reg.stwPower 2 0 →
              t.pwr.capTen = tenRange s.pwr.capTen ∧ t.pwr.capApp = s.pwr.capApp)) ∧
          (s.stewardActs = false → t.pwr = s.pwr))) ∧
    (s.mainOn = false → exec .powerExcursion s = .next s) ∧
    (s.mainOn = true →
      ∃ t, exec .powerExcursion s = .next t ∧ 600 ≤ t.pwr.capTen ∧ clockAsked s t ∧ State.SameMemory s t ∧
        State.SameRegsBut s t (fun a => a = Reg.sysStatus) ∧
        (s.stewardActs = true → 600 < s.pwr.capTen → t.pwr.capTen < s.pwr.capTen) ∧
        (s.stewardActs = true → 600 < s.fget Reg.stwPower 26 16 → t.pwr.capTen < s.fget Reg.stwPower 26 16) ∧
        (s.stewardActs = true → 0 < min s.pwr.capApp s.pwr.thermApp →
          t.pwr.capApp < min s.pwr.capApp s.pwr.thermApp) ∧
        (s.stewardActs = false → t.pwr.capTen = 600)) ∧
    (∀ (readings : List Nat) (r : Nat → Nat), (∀ n, r n =
        if 17 ≤ n then readings.getD n 0 % 4096 / 8 * 8 else readings.getD n 0 % 4096) →
      ∃ t, exec (.tempSensorUpdate readings) s = .next t ∧ State.SameMemory s t ∧
        (∀ n < 21, t.rget (Reg.sysTemp n) = toWord (r n + 2 ^ 31) ∧
          sext 12 (r n) ≤ sext 12 (t.fget Reg.sysThermStatus 11 0)) ∧
        t.fget Reg.sysThermStatus 20 16 < 21 ∧
        sext 12 (r (t.fget Reg.sysThermStatus 20 16)) = sext 12 (t.fget Reg.sysThermStatus 11 0) ∧
        (t.thermN = false → t.bit Reg.sysStatus 1 = true) ∧
        State.SameRegsBut s t fun a => a = Reg.sysStatus ∨ a = Reg.sysThermStatus ∨ ∃ n < 21, a = Reg.sysTemp n) ∧
    ((∃ b, s.pwr.stepBeat = some b ∧ s.beat < b + beatsPerMs) ∨ s.stewardActs = false →
      exec .thermalThrottleStep s = .next s) ∧
    ((∀ b, s.pwr.stepBeat = some b → b + beatsPerMs ≤ s.beat) → s.stewardActs = true →
      (s.hot = true →
        ∃ t, exec .thermalThrottleStep s = .next t ∧
          t.pwr.thermTen = max 600 (min s.pwr.thermTen s.pwr.capTen - 100) ∧ t.pwr.stepBeat = some s.beat ∧
          clockAsked s t ∧ State.SameMemory s t ∧ State.SameRegsBut s t fun a => a = Reg.sysStatus) ∧
      (s.hot = false → s.cooled = true →
        ∃ t, exec .thermalThrottleStep s = .next t ∧
          (t.pwr.thermTen = 1500 ∨ t.pwr.thermTen = s.pwr.thermTen + 100) ∧ t.pwr.stepBeat = some s.beat ∧
          clockAsked s t ∧ State.SameMemory s t ∧ State.SameRegsBut s t fun a => a = Reg.sysStatus) ∧
      (s.hot = false → s.cooled = false → exec .thermalThrottleStep s = .next s))

/-! ### The Steward -/

/-- Command `op` of the Steward is in progress with this code. -/
def InProgress (t : State) (op code : Nat) : Prop :=
  t.bit Reg.stwCmdStatus 0 = true ∧ ∃ c, t.stw.cmd = some c ∧ c.op = op ∧ c.code = some code

/-- A write of STW_CMD by `who` reaches a Steward that acts and has no command in progress. -/
def StewardFree (s : State) (who : Initiator) (op cls index : Nat) : Prop :=
  s.Takes who Reg.stwCmd (toWord (op + 256 * (cls % 16) + 4096 * (index % 16))) ∧ s.stewardActs = true ∧
    s.bit Reg.stwCmdStatus 0 = false

/-- The arguments in the registers. -/
def stwArg0 (s : State) : Nat := (s.rget Reg.stwArg0).toNat
def stwArg1 (s : State) : Nat := (s.rget Reg.stwArg1).toNat
def stwPkg (s : State) : Nat := (s.rget Reg.stwPkgLo).toNat + 2 ^ 32 * s.fget Reg.stwPkgHi 15 0

/-- May a command read its bytes at PKG (R611, R621). -/
def pkgOk (s : State) : Prop :=
  stwPkg s % 64 = 0 ∧ (regionOf (stwPkg s) = .tierB ∨ regionOf (stwPkg s) = .reflexSram)

/-- STW_LOAD, STW_ACTIVATE, STW_SET_BOOT, STW_SELFTEST and STW_FUSE (R604, R609, R611, R612, R618, R620). -/
def Obligations.StewardCommandsAct : Prop :=
  ∀ (s : State) (who : Initiator) (cls index : Nat),
    (StewardFree s who 1 cls index →
      (instanceOf (cls % 16) (index % 16) = none → isTrusted who = true →
        ∃ t, exec (.stwLoad who cls index) s = .next t ∧ t.resp = .done ∧ InProgress t 1 5 ∧ State.SameMemory s t ∧
          State.SameRegsBut s t fun a => a = Reg.stwCmdStatus) ∧
      (isTrusted who = false → cls % 16 = 3 →
        ∃ t, exec (.stwLoad who cls index) s = .next t ∧ InProgress t 1 9 ∧ t.stw.waiting = s.stw.waiting) ∧
      ∀ i img x, instanceOf (cls % 16) (index % 16) = some i → i ≠ 7 → pkgOk s → s.Clean (stwPkg s) (max 0x100 (imageLen img)) →
        s.readable (stwPkg s) = true → s.readable (stwPkg s + 0xFF) = true →
        s.readable (stwPkg s + (max 0x100 (imageLen img) - 1)) = true →
        s.readBytes (stwPkg s) (max 0x100 (imageLen img)) = img → imageLen (img.take 0x100) = imageLen img →
        imageLen img ≤ 33554432 → s.imageCode img true = 0 → (∀ y ∈ sectionsOf img, sectionClass y.typ = cls % 16) →
        (sectionsOf img).find? (fun y => y.typ ≠ 5) = some x →
        ∃ t, exec (.stwLoad who cls index) s = .next t ∧ t.resp = .done ∧ InProgress t 1 0 ∧
          t.pendingFw i = some (firmwareOf img x (s.otherSlot i)) ∧ t.firmware i = s.firmware i ∧ State.SameMemory s t) ∧
    (StewardFree s who 2 cls index → ∀ i, instanceOf (cls % 16) (index % 16) = some i →
      (isTrusted who = true ∨ i ≠ 7) →
      (s.pendingFw i = none → ∃ t, exec (.stwActivate who cls index) s = .next t ∧ InProgress t 2 6 ∧
        t.stw.active = s.stw.active ∧ State.SameRegsBut s t fun a => a = Reg.stwCmdStatus) ∧
      ∀ f, s.pendingFw i = some f →
        (i = 0 → ∃ t, exec (.stwActivate who cls index) s = .next t ∧ InProgress t 2 0 ∧ t.firmware 0 = some f ∧
          t.pendingFw 0 = none ∧ t.bit Reg.stwStatus 3 = true ∧
          t.fget Reg.stwStatus 15 8 = (s.fget Reg.stwStatus 15 8 + 1) % 256 ∧ State.SameMemory s t) ∧
        ((i = 1 ∨ i = 2) → ∃ t, exec (.stwActivate who cls index) s = .next t ∧
          (s.ringState (i - 1) = 0 ∨ s.ringState (i - 1) = 4 → InProgress t 2 0 ∧ t.firmware i = some f) ∧
          (s.ringState (i - 1) ≠ 0 → s.ringState (i - 1) ≠ 4 → InProgress t 2 6 ∧ t.firmware i = s.firmware i)) ∧
        (3 ≤ i → i ≤ 6 → s.bit Reg.stwRfxYield (i - 3) = true →
          ∃ t, exec (.stwActivate who cls index) s = .next t ∧ InProgress t 2 0 ∧ t.firmware i = some f ∧
            t.bit Reg.stwRfxYield (i - 3) = false)) ∧
    (StewardFree s who 3 cls 0 → isTrusted who = true →
      ∃ t, exec (.stwSetBoot who cls) s = .next t ∧ t.resp = .done ∧ State.SameMemory s t ∧
        (cls % 16 ≤ 4 → InProgress t 3 0 ∧ t.bit Reg.cfgBootSel (cls % 16) = decide (stwArg0 s % 2 = 1) ∧
          State.SameRegsBut s t fun a => a = Reg.stwCmdStatus ∨ a = Reg.cfgBootSel) ∧
        (4 < cls % 16 → InProgress t 3 5 ∧ State.SameRegsBut s t fun a => a = Reg.stwCmdStatus)) ∧
    (StewardFree s who 7 cls index →
      ∃ t, exec (.stwSelftest who cls index) s = .next t ∧ t.resp = .done ∧ State.SameMemory s t ∧
        State.SameRegsBut s t (fun a => a = Reg.stwCmdStatus) ∧
        (instanceOf (cls % 16) (index % 16) = none → InProgress t 7 5) ∧
        (instanceOf (cls % 16) (index % 16) ≠ none → cls % 16 = 0 ∨ cls % 16 = 2 → InProgress t 7 0) ∧
        (instanceOf (cls % 16) (index % 16) ≠ none → cls % 16 = 1 →
          (s.ten.run = none → InProgress t 7 0) ∧
          (s.ten.run ≠ none → t.bit Reg.stwCmdStatus 0 = true ∧ (t.stw.cmd.map fun c => c.code) = some none))) ∧
    (StewardFree s who 8 0 0 →
      ∃ t, exec (.stwFuse who) s = .next t ∧ t.resp = .done ∧ State.SameMemory s t ∧
        State.SameRegsBut s t (fun a => a = Reg.stwCmdStatus) ∧
        ((∀ b, s.stw.unlock = some b → b + beatsPerMs < s.beat) ∨ isTrusted who = false →
          InProgress t 8 9 ∧ t.fuses = s.fuses) ∧
        (∀ b, s.stw.unlock = some b → b ≤ s.beat → s.beat ≤ b + beatsPerMs → isTrusted who = true →
          (Config.fuseNamed (stwArg0 s) = 0 → InProgress t 8 0 ∧
            t.fuses = { s.fuses with secureBoot := s.fuses.secureBoot || decide (stwArg1 s % 2 = 1) }) ∧
          (Config.fuseNamed (stwArg0 s) = 4 → (s.rget Reg.cfgSecVer).toNat < stwArg1 s →
            InProgress t 8 9 ∧ t.fuses = s.fuses)))

/-- STW_FLASH_ERASE, STW_FLASH_WRITE and STW_FLASH_VERIFY (R621, R667): an erased range reads FFH, a written byte loses the
bits that are 0 in the data (log entry 23), a failing device gives 8, a range that is not allowed 10, and a verified
image is remembered. -/
def Obligations.TheFlashFollowsItsCommands : Prop :=
  ∀ (s : State) (who : Initiator),
    (StewardFree s who 4 0 0 →
      let a := stwArg0 s
      let n := stwArg1 s
      (a % 65536 ≠ 0 ∨ n % 65536 ≠ 0 ∨ s.flashAllowed a n = false →
        ∀ e, ∃ t, exec (.stwFlashErase who e) s = .next t ∧ InProgress t 4 10 ∧ t.flash = s.flash ∧
          State.SameRegsBut s t fun r => r = Reg.stwCmdStatus) ∧
      (a % 65536 = 0 → n % 65536 = 0 → s.flashAllowed a n = true →
        (∃ t, exec (.stwFlashErase who false) s = .next t ∧ t.resp = .done ∧ InProgress t 4 0 ∧ State.SameMemory s t ∧
          (∀ x, t.flash.byte x = if a ≤ x ∧ x < a + n then 0xFF else s.flash.byte x) ∧
          State.SameRegsBut s t fun r => r = Reg.stwCmdStatus) ∧
        (∃ t, exec (.stwFlashErase who true) s = .next t ∧ InProgress t 4 8 ∧ State.SameMemory s t ∧
          (∀ x, x / 65536 < a / 65536 ∨ a + n ≤ x → t.flash.byte x = s.flash.byte x)))) ∧
    (StewardFree s who 5 0 0 →
      let a := stwArg0 s
      let n := stwArg1 s
      (¬ pkgOk s ∨ s.flashAllowed a n = false →
        ∀ e, ∃ t, exec (.stwFlashWrite who e) s = .next t ∧ InProgress t 5 10 ∧ t.flash = s.flash ∧
          State.SameRegsBut s t fun r => r = Reg.stwCmdStatus) ∧
      (pkgOk s → s.flashAllowed a n = true → s.Clean (stwPkg s) n → s.readable (stwPkg s) = true →
        s.readable (stwPkg s + (n - 1)) = true →
        (∃ t, exec (.stwFlashWrite who false) s = .next t ∧ t.resp = .done ∧ InProgress t 5 0 ∧ State.SameMemory s t ∧
          (∀ i < n, t.flash.byte (a + i) = s.flash.byte (a + i) &&& s.readByte (stwPkg s + i)) ∧
          (∀ x, ¬ (a ≤ x ∧ x < a + n) → t.flash.byte x = s.flash.byte x)) ∧
        (∃ t, exec (.stwFlashWrite who true) s = .next t ∧ InProgress t 5 8))) ∧
    (StewardFree s who 6 0 0 →
      let a := stwArg0 s
      (a ≠ 0 → a ≠ 0x2000000 →
        ∀ e, ∃ t, exec (.stwFlashVerify who e) s = .next t ∧ InProgress t 6 10 ∧ t.flash = s.flash) ∧
      (a = 0 ∨ a = 0x2000000 →
        (∃ t, exec (.stwFlashVerify who true) s = .next t ∧ InProgress t 6 8 ∧ t.flash = s.flash) ∧
        (∃ t, exec (.stwFlashVerify who false) s = .next t ∧ t.resp = .done ∧
          InProgress t 6 (s.imageCode (s.flash.image a) false) ∧ t.flash.cells = s.flash.cells ∧
          (s.imageCode (s.flash.image a) false = 0 → a / 0x2000000 ∈ t.flash.verified) ∧
          (s.imageCode (s.flash.image a) false ≠ 0 → t.flash.verified = s.flash.verified))))

/-- STW_COMMAND_DONE, ACTIVATE_TIMEOUT, RFX_YIELD_WRITE and FUSE_UNLOCK_WRITE (R609, R612, R614, R615, R618, R620), and a
command written while another is in progress, which is refused with 1 (R614). -/
def Claims.StewardCommandsEnd : Prop :=
  ∀ s : State,
    (∀ c code, s.stw.cmd = some c → c.code = some code → code < 16 → c.op < 256 → s.stw.queue = [] →
      0x10 ∉ s.tlg.halted → s.mainOn = true →
      ∃ t, exec (.stwCommandDone false) s = .next t ∧ t.bit Reg.stwCmdStatus 0 = false ∧
        t.bit Reg.stwCmdStatus 1 = true ∧ t.fget Reg.stwCmdStatus 7 4 = code ∧ t.fget Reg.stwCmdStatus 15 8 = c.op ∧
        t.bit Reg.stwStatus 3 = false ∧ t.stw.cmd = none ∧ State.SameMemory s t ∧
        State.SameRegsBut s t fun a => a = Reg.stwCmdStatus ∨ a = Reg.stwStatus) ∧
    (s.stw.cmd = none → exec (.stwCommandDone false) s = .next s ∧ exec .activateTimeout s = .next s) ∧
    (∀ c, s.stw.cmd = some c → c.code = none → c.op = 2 ∨ c.op = 7 → s.stewardActs = true → s.stw.queue = [] →
      (s.beat ≤ c.beat + (if c.op = 2 then tenMs else c.arg0 * beatsPerMs) → exec .activateTimeout s = .next s) ∧
      (c.beat + (if c.op = 2 then tenMs else c.arg0 * beatsPerMs) < s.beat →
        ∃ t, exec .activateTimeout s = .next t ∧ t.bit Reg.stwCmdStatus 0 = false ∧
          t.bit Reg.stwCmdStatus 1 = true ∧ t.fget Reg.stwCmdStatus 7 4 = 7 ∧ t.stw.cmd = none ∧ State.SameMemory s t ∧
          State.SameRegsBut s t fun a => a = Reg.stwCmdStatus ∨ a = Reg.stwStatus ∨ a = Reg.stwRfxYield)) ∧
    (∀ (n : Nat) (v : Word), s.Takes (.reflex n) Reg.stwRfxYield v → s.stw.cmd = none →
      ∃ t, exec (.rfxYieldWrite (.reflex n) v) s = .next t ∧ t.resp = .done ∧ State.OnlyRegs s t ∧
        (∀ i < 4, t.bit Reg.stwRfxYield i = (s.bit Reg.stwRfxYield i || (decide (i = n % 4) && bitOf v i))) ∧
        State.SameRegsBut s t fun a => a = Reg.stwRfxYield) ∧
    (∀ (who : Initiator) (key : Word), s.Takes who Reg.cfgFuseUnlock key →
      ∃ t, exec (.fuseUnlockWrite who key) s = .next t ∧ t.resp = .done ∧ t.regs = s.regs ∧ State.SameMemory s t ∧
        t.stw = if key = 0x0000F05E then { s.stw with unlock := some s.beat } else s.stw) ∧
    ∀ (who : Initiator) (cls index : Nat),
      s.Takes who Reg.stwCmd (toWord (1 + 256 * (cls % 16) + 4096 * (index % 16))) → s.bit Reg.stwStatus 3 = false →
      s.bit Reg.stwCmdStatus 0 = true →
      ∃ t, exec (.stwLoad who cls index) s = .next t ∧ t.resp = .done ∧ t.stw = s.stw ∧
        t.bit Reg.stwCmdStatus 1 = true ∧ t.fget Reg.stwCmdStatus 7 4 = 1 ∧ t.fget Reg.stwCmdStatus 15 8 = 1 ∧
        State.SameRegsBut s t fun a => a = Reg.stwCmdStatus

/-- STEWARD_BOOT (R594, R603): before the Steward leaves reset, or without a main stage to boot, nothing happens; an image that passes runs, with BOOT_DONE and
its region; where neither passes the part is in service mode with factory defaults and both codes. -/
def Claims.TheStewardBoots : Prop :=
  ∀ (s : State) (e0 e1 : Bool),
    (s.stewardOut = false ∨ s.stw.toBoot = false → exec (.stewardBoot e0 e1) s = .next s) ∧
    (s.stewardOut = true → s.stw.toBoot = true →
      let s0 := (s.fset Reg.stwStatus 1 0 1).bootClocks
      ((s0.bootImage 0 e0).2 = 0 →
        ∃ t, exec (.stewardBoot e0 e1) s = .next t ∧ t.bit Reg.cfgStatus 0 = true ∧ t.fget Reg.cfgStatus 2 1 = 0 ∧
          t.fget Reg.stwStatus 1 0 = 2 ∧ t.stw.toBoot = false ∧ t.stw.training = true ∧
          t.rget Reg.cfgSecVer = toWord (descWord (s.flash.image 0) 0x10)) ∧
      (e0 = true → e1 = true →
        ∃ t, exec (.stewardBoot true true) s = .next t ∧ t.bit Reg.cfgStatus 3 = true ∧ t.bit Reg.cfgStatus 4 = true ∧
          t.fget Reg.cfgStatus 2 1 = 2 ∧ t.fget Reg.cfgStatus 19 16 = 8 ∧ t.fget Reg.cfgStatus 23 20 = 8 ∧
          t.fget Reg.stwStatus 1 0 = 3 ∧ t.stw.toBoot = false ∧ t.stw.bootHart = none))

/-! ### Tooling -/

/-- DEBUG_HALT_REQUEST, DEBUG_RESUME_REQUEST, DEBUG_ACCESS_REGISTER, DEBUG_PROGBUF_EXEC and DEBUG_NDMRESET (R622, R624, R625, R626,
R627, R668, R686): the test port takes the scans that bring the command; with DEBUG_LOCK blown it takes up the instructions of R626
only (a refused one acts as BYPASS: log entry 48), and the safety pins keep their levels whatever is loaded. Unless the port stands at
DMI and debug access is open nothing else happens; else a hart halts and resumes, or halts on its reset, a halted hart shows and takes
register values, and makes accesses as the hart itself does. What a hart left in a register is free. -/
def Obligations.HartsAreDebugged : Prop :=
  (∀ (s : State) (i : TapInstr) (v : Nat),
    (s.tapScan (.reset false)).tlg.tap.ir = .idcode ∧ (s.tapScan (.reset true)).tlg.tap.twoPin = true ∧
    (s.fuses.debugLock = false → (s.tapScan (.ir i)).tlg.tap.ir = i) ∧
    (s.fuses.debugLock = true → (s.tapScan (.ir i)).tlg.tap.ir ∈ [.bypass, .idcode, .samplePreload, .dtmcs, .dmi]) ∧
    (s.tlg.tap.ir = .idcode → (s.tapScan (.dr v)).tlg.tap.out = 0x00960A3D) ∧
    ∀ cell own, s.tlg.tap.pin true cell own = some own) ∧
  ∀ (s u : State) (scans : List TapScan) (h : Nat), u = s.tapScans scans →
    (u.regs = s.regs ∧ State.SameMemory s u ∧ u.tlg.halted = s.tlg.halted ∧ u.debugOpen = s.debugOpen) ∧
    (s.debugOpen = false ∨ u.tlg.tap.ir ≠ .dmi →
      (∀ r, exec (.debugHaltRequest scans h r) s = .next u) ∧ exec (.debugResumeRequest scans h) s = .next u ∧
      (∀ r w, exec (.debugAccessRegister scans h r w) s = .next u) ∧
      (∀ xs, exec (.debugProgbufExec scans h xs) s = .next u) ∧ exec (.debugNdmreset scans) s = .next u) ∧
    (s.debugOpen = true → u.tlg.tap.ir = .dmi →
      (h ∈ harts → h ∉ s.tlg.halted →
        ∃ t, exec (.debugHaltRequest scans h none) s = .next t ∧ t.tlg.halted = h :: s.tlg.halted ∧ State.SameMemory s t ∧
          State.SameRegsBut s t (fun a => a = Reg.tlgStatus) ∧
          (h = 0x18 ∨ h = 0x19 → s.bit Reg.tlgEngCtrl 1 = true → t.bit Reg.tlgStatus 3 = true)) ∧
      (h ∈ harts → ∀ on, ∃ t, exec (.debugHaltRequest scans h (some on)) s = .next t ∧ (h ∈ t.tlg.resetHalt ↔ on = true) ∧
        t.tlg.halted = s.tlg.halted ∧ t.regs = s.regs ∧ State.SameMemory s t) ∧
      (h ∈ s.tlg.halted →
        ∃ t, exec (.debugResumeRequest scans h) s = .next t ∧ h ∉ t.tlg.halted ∧ State.SameMemory s t ∧
          State.SameRegsBut s t fun a => a = Reg.tlgStatus) ∧
      (h ∉ s.tlg.halted → ∀ r w, ∃ t, exec (.debugAccessRegister scans h r w) s = .next t ∧ t.tlg.cmderr = 4 ∧
        t.tlg.written = s.tlg.written ∧ t.regs = s.regs) ∧
      (h ∈ s.tlg.halted → ∀ r,
        (hasReg h r = false → ∀ w, ∃ t, exec (.debugAccessRegister scans h r w) s = .next t ∧ t.tlg.cmderr = 2 ∧
          t.tlg.written = s.tlg.written ∧ t.regs = s.regs) ∧
        (hasReg h r = true →
          (∃ t, exec (.debugAccessRegister scans h r none) s = .next t ∧ t.tlg.cmderr = 0 ∧
            t.tlg.data = s.hartReg h r ∧ (r = .gpr 0 → t.tlg.data = 0) ∧ t.regs = s.regs ∧ State.SameMemory s t) ∧
          ∀ v, ∃ t, exec (.debugAccessRegister scans h r (some v)) s = .next t ∧ t.tlg.cmderr = 0 ∧
            t.regs = s.regs ∧ State.SameMemory s t ∧
            (∀ n, r = .gpr n ∨ r = .fpr n ∨ r = .vec n → r ≠ .gpr 0 → t.hartReg h r = v % 2 ^ regWidth r) ∧
            ∀ q, q ≠ r → t.hartReg h q = s.hartReg h q)) ∧
      (h ∉ s.tlg.halted → ∀ xs, ∃ t, exec (.debugProgbufExec scans h xs) s = .next t ∧ t.tlg.cmderr = 4 ∧
        t.regs = s.regs ∧ State.SameMemory s t) ∧
      (h ∈ s.tlg.halted →
        (∃ t, exec (.debugProgbufExec scans h []) s = .next t ∧ t.tlg.cmderr = 0 ∧ t.regs = s.regs ∧ State.SameMemory s t) ∧
        ∀ x c w xs, ((∃ a n v, x = DebugAccess.store a n v ∧ inMemory a ∧ c = .processorStore (initOf h) .data a n v []) ∨
            (∃ a n, x = DebugAccess.load a n ∧ inMemory a ∧ c = .processorLoad (initOf h) a n [])) → exec c u = .next w →
          (w.resp ≠ .accessFault →
            exec (.debugProgbufExec scans h (x :: xs)) s = exec (.debugProgbufExec [] h xs) w) ∧
          (w.resp = .accessFault → exec (.debugProgbufExec scans h (x :: xs)) s =
            .next { w with tlg := { w.tlg with cmderr := 3 } })) ∧
      ∃ t, exec (.debugNdmreset scans) s = .next t ∧ t.regs = s.regs ∧ State.SameMemory s t ∧
        t.pwr = { s.pwr with asked := s.pwr.asked ++ [(s.beat + 1, 5)] })

/-- TLG_AUTH_WRITE, ENGINE_HALT_WRITE, OBP_FIRED_CLEAR, TLG_CNT_SEL_WRITE, TLG_CNT_CLR and TLG_SAMPLE (R625, R628, R630,
R633 to R636, R642). -/
def Obligations.ToolingFollowsItsRegisters : Prop :=
  ∀ (s : State) (who : Initiator) (v : Word),
    (s.Takes who Reg.tlgAuth v →
      ∃ t, exec (.tlgAuthWrite who v) s = .next t ∧ t.resp = .done ∧ t.bit Reg.tlgAuth 0 = bitOf v 0 ∧
        State.OnlyRegs s t ∧ State.SameRegsBut s t fun a => a = Reg.tlgAuth ∨ a = Reg.tlgStatus) ∧
    (s.Takes who Reg.tlgEngCtrl v →
      ∃ t, exec (.engineHaltWrite who v) s = .next t ∧ t.resp = .done ∧ t.bit Reg.tlgEngCtrl 0 = bitOf v 0 ∧
        t.bit Reg.tlgEngCtrl 1 = bitOf v 1 ∧ t.bit Reg.tlgStatus 2 = bitOf v 0 ∧
        (bitOf v 0 = true → s.ten.run = none → s.ten.goldRun = none → t.fget Reg.tlgStatus 1 0 = 2) ∧
        State.OnlyRegs s t ∧ State.SameRegsBut s t fun a => a = Reg.tlgEngCtrl ∨ a = Reg.tlgStatus) ∧
    (∀ k < 4, s.Takes who (Reg.tlgObpStatus k) 1 →
      ∃ t, exec (.obpFiredClear who k) s = .next t ∧ t.resp = .done ∧ t.bit (Reg.tlgObpStatus k) 0 = false ∧
        State.OnlyRegs s t ∧ State.SameRegsBut s t fun a => a = Reg.tlgObpStatus k ∨ a = Reg.tlgStatus) ∧
    (∀ c < 512, s.Takes who (Reg.tlgCntSel c) v →
      ∃ t, exec (.tlgCntSelWrite who c v) s = .next t ∧ t.resp = .done ∧ State.OnlyRegs s t ∧
        (selValid v = true → t.fget (Reg.tlgCntSel c) 9 0 = fieldOf v 9 0 ∧
          t.fget (Reg.tlgCntSel c) 21 16 = fieldOf v 21 16 ∧ t.get64 (Reg.tlgCntLo c) = 0 ∧
          State.SameRegsBut s t fun a => a = Reg.tlgCntSel c) ∧
        (selValid v = false → t.bit Reg.tlgStatus 6 = true ∧ (∀ k < 512, t.get64 (Reg.tlgCntLo k) = s.get64 (Reg.tlgCntLo k)) ∧
          State.SameRegsBut s t fun a => a = Reg.tlgStatus)) ∧
    (s.Takes who Reg.tlgCntClr 1 →
      ∃ t, exec (.tlgCntClr who) s = .next t ∧ t.resp = .done ∧ (∀ c < 512, t.get64 (Reg.tlgCntLo c) = 0) ∧
        State.OnlyRegs s t ∧ State.SameRegsBut s t fun _ => False) ∧
    (s.mainOn = false ∨ s.bit Reg.tlgSmpCfg 0 = false → exec .tlgSample s = .next s) ∧
    (s.mainOn = true → s.bit Reg.tlgSmpCfg 0 = true →
      s.beat % max 1 (s.fget Reg.tlgSmpInterval 26 0) = s.fget Reg.tlgSmpPhase 26 0 →
      let rec_ := s.stampRecord (s.fget Reg.tlgSmpCfg 15 7 + 1)
      let len := 4096 * max 1 (s.fget Reg.tlgSmpSize 19 0)
      let base := (s.rget Reg.tlgSmpBaseLo).toNat / 4096 * 4096 + 2 ^ 32 * s.fget Reg.tlgSmpBaseHi 15 0
      ∃ t, exec .tlgSample s = .next t ∧ t.tlg.smpSeq = s.tlg.smpSeq + 1 ∧
        ∀ o, ringRoom (s.rget Reg.tlgSmpWr).toNat (s.rget Reg.tlgSmpRd).toNat len rec_.length (s.bit Reg.tlgSmpCfg 1) = some o →
          regionOf (base + o) = .tierB → s.longDenied .tooling (base + o) rec_.length = none →
          s.Clean (base + o) rec_.length →
          t.readBytes (base + o) rec_.length = rec_ ∧ t.tlg.smpLost = 0 ∧
            (∀ a, ¬ (base + o ≤ a ∧ a < base + o + rec_.length) → t.readByte a = s.readByte a) ∧
            State.SameRegsBut s t fun a => a = Reg.tlgSmpWr)

/-! ### PCIe -/

/-- PCIE_INBOUND_WRITE, PCIE_INBOUND_READ and PCIE_MSI_WRITE (R647, R648): a request inside an aperture reaches memory, one
outside is an Unsupported Request and counts; an MSI pends its identity. -/
def Obligations.InboundRequestsUseApertures : Prop :=
  ∀ (s : State) (p a : Nat), p < 2 → s.mainOn = true →
    (∀ bs : List Byte, bs ≠ [] → ¬ (bs.length = 4 ∧ a = s.msiAddr p) →
      (s.inAperture p a bs.length = true → s.longDenied .pcie a bs.length = none → s.Clean a bs.length →
        ∃ t, exec (.pcieInboundWrite p a bs []) s = .next t ∧ t.resp = .done ∧ t.readBytes a bs.length = bs ∧
          (∀ b, ¬ (a ≤ b ∧ b < a + bs.length) → t.readByte b = s.readByte b) ∧ t.regs = s.regs) ∧
      (s.inAperture p a bs.length = false →
        ∃ t, exec (.pcieInboundWrite p a bs []) s = .next t ∧ t.resp = .unsupported ∧ State.SameMemory s t ∧
          t.rget (Reg.pciPUrCount p) = satAdd (s.rget (Reg.pciPUrCount p)) 1 ∧ State.OnlyRegs s t ∧
          State.SameRegsBut s t fun r => r = Reg.pciPUrCount p)) ∧
    (∀ n, n ≠ 0 →
      (s.inAperture p a n = true → s.readable a = true → s.readable (a + (n - 1)) = true → s.Clean a n →
        exec (.pcieInboundRead p a n []) s = .next (s.respond (.data (s.readNat a n)))) ∧
      (s.inAperture p a n = false →
        ∃ t, exec (.pcieInboundRead p a n []) s = .next t ∧ t.resp = .unsupported ∧
          t.rget (Reg.pciPUrCount p) = satAdd (s.rget (Reg.pciPUrCount p)) 1 ∧ State.OnlyRegs s t ∧
          State.SameRegsBut s t fun r => r = Reg.pciPUrCount p)) ∧
    ∀ v, v < 2 ^ 32 →
      (0 < v → v ≤ Config.imsicIdentities → s.fget (Reg.pciPMsi p) 3 0 < 12 →
        ∃ t, exec (.pcieMsiWrite p v) s = .next t ∧ t.resp = .done ∧ (s.fget (Reg.pciPMsi p) 3 0, v) ∈ t.pcie.imsic ∧
          (∀ x ∈ t.pcie.imsic, x = (s.fget (Reg.pciPMsi p) 3 0, v) ∨ x ∈ s.pcie.imsic) ∧ t.regs = s.regs ∧
          State.SameMemory s t) ∧
      (Config.imsicIdentities < v →
        ∃ t, exec (.pcieMsiWrite p v) s = .next t ∧ t.pcie.imsic = s.pcie.imsic ∧
          t.rget (Reg.pciPUrCount p) = satAdd (s.rget (Reg.pciPUrCount p)) 1 ∧ State.SameMemory s t ∧
          State.SameRegsBut s t fun r => r = Reg.pciPUrCount p)

/-- PCIE_COMPLETION, PCIE_COMPLETION_TIMEOUT and PCIE_ERROR_MESSAGE (R646, R649, R650): the access that waits gets its data
or its fault; a configuration read that no function answers gives all ones; a retry goes on waiting. -/
def Claims.RequestsComplete : Prop :=
  ∀ (s : State) (p tag data : Nat),
    (s.requestOf p tag = none →
      (∀ st, exec (.pcieCompletion p tag st data) s = .next s) ∧ exec (.pcieCompletionTimeout p tag) s = .next s) ∧
    (∀ r, s.requestOf p tag = some r →
      (∃ t, exec (.pcieCompletion p tag .success data) s = .next t ∧ r ∉ t.pcie.reqs ∧ t.regs = s.regs ∧
        State.SameMemory s t ∧
        t.resp = if r.kind = .cfgWrite then .done else .data (data % 2 ^ (8 * r.size))) ∧
      (r.kind = .cfgRead →
        (∃ t, exec (.pcieCompletion p tag .unsupported data) s = .next t ∧ r ∉ t.pcie.reqs ∧ t.regs = s.regs ∧
          t.resp = .data (0xFFFFFFFF % 2 ^ (8 * r.size))) ∧
        exec (.pcieCompletion p tag .retry data) s = .next s) ∧
      (r.kind = .memRead → ∀ st, st ≠ .success →
        ∃ t, exec (.pcieCompletion p tag st data) s = .next t ∧ r ∉ t.pcie.reqs ∧ t.resp = .accessFault ∧
          t.rget (Reg.pciPCplErrCount p) = satAdd (s.rget (Reg.pciPCplErrCount p)) 1 ∧ State.SameMemory s t ∧
          State.SameRegsBut s t fun a => a = Reg.pciPCplErrCount p) ∧
      (s.beat < r.beat + 50 * beatsPerMs → exec (.pcieCompletionTimeout p tag) s = .next s) ∧
      (r.beat + 50 * beatsPerMs ≤ s.beat →
        ∃ t, exec (.pcieCompletionTimeout p tag) s = .next t ∧ r ∉ t.pcie.reqs ∧ t.resp = .accessFault ∧
          t.rget (Reg.pciPTimeoutCount p) = satAdd (s.rget (Reg.pciPTimeoutCount p)) 1 ∧ State.SameMemory s t ∧
          State.SameRegsBut s t fun a => a = Reg.pciPTimeoutCount p)) ∧
    ∀ severity, p < 2 → s.mainOn = true →
      exec (.pcieErrorMessage p severity) s = .next { s with pcie := { s.pcie with aer := (p, severity) :: s.pcie.aer } }

/-- PCIE_LINK_UP, PCIE_LINK_DOWN, PCIE_RETRAIN and PCIE_PERST_WRITE (R644, R649, R651, R669): a link comes up at most at
MAX_SPEED and over at most the lanes of its port; one that falls fails what waits for it. -/
def Claims.PcieLinksComeAndGo : Prop :=
  ∀ (s : State) (p : Nat), p < 2 →
    (∀ speed width, speed < 8 → width < 16 → s.mainOn = true → s.bit Reg.pciCtrl 0 = true → s.portExists p = true →
      ∃ t, exec (.pcieLinkUp p speed width) s = .next t ∧ t.linkIsUp p = true ∧
        t.fget (Reg.pciPLink p) 3 1 = min speed (s.fget (Reg.pciPCtrl p) 4 2) ∧ t.fget (Reg.pciPLink p) 7 4 = min width (s.pcieLanes p).length ∧
        p ∉ t.pcie.retrain ∧ (s.linkIsUp p = false → t.bit Reg.pciStatus (1 + p) = true) ∧ State.SameMemory s t ∧
        State.SameRegsBut s t fun a => a = Reg.pciPLink p ∨ a = Reg.pciStatus) ∧
    (s.linkIsUp p = false → ∀ n, exec (.pcieLinkDown p n) s = .next s) ∧
    (s.linkIsUp p = true → ∀ n,
      ∃ t, exec (.pcieLinkDown p n) s = .next t ∧ t.linkIsUp p = false ∧ t.bit Reg.pciStatus (1 + p) = true ∧
        t.rget (Reg.pciPDownCount p) = satAdd (s.rget (Reg.pciPDownCount p)) 1 ∧
        t.rget (Reg.pciPDropCount p) = satAdd (s.rget (Reg.pciPDropCount p)) n ∧
        (∀ r ∈ t.pcie.reqs, r.port ≠ p) ∧ ((∃ r ∈ s.pcie.reqs, r.port = p) → t.resp = .accessFault) ∧
        State.SameMemory s t ∧
        State.SameRegsBut s t fun a => a = Reg.pciPLink p ∨ a = Reg.pciStatus ∨ a = Reg.pciPDownCount p ∨
          a = Reg.pciPDropCount p) ∧
    ∀ (who : Initiator) (v : Word),
      let kept (w : Word) : Bool := s.bit Reg.pciCtrl 0 && decide (fieldOf w 4 2 ≠ s.fget (Reg.pciPCtrl p) 4 2)
      (s.Takes who (Reg.pciPCtrl p) (v ||| 2) →
        ∃ t, exec (.pcieRetrain who p v) s = .next t ∧ t.resp = .done ∧ State.SameMemory s t ∧
          (kept v = true → t.pcie = s.pcie ∧ t.bit Reg.pciStatus 0 = true ∧
            State.SameRegsBut s t fun a => a = Reg.pciStatus) ∧
          (kept v = false → p ∈ t.pcie.retrain ∧ State.SameRegsBut s t fun a => a = Reg.pciPCtrl p)) ∧
      (s.Takes who (Reg.pciPCtrl p) v →
        ∃ t, exec (.pciePerstWrite who p v) s = .next t ∧ t.resp = .done ∧ State.SameMemory s t ∧
          (kept v = true → t.pcie = s.pcie ∧ t.bit Reg.pciStatus 0 = true ∧
            State.SameRegsBut s t fun a => a = Reg.pciStatus) ∧
          (kept v = false → t.bit (Reg.pciPCtrl p) 0 = bitOf v 0 ∧ t.fget (Reg.pciPCtrl p) 4 2 = fieldOf v 4 2 ∧
            (s.mainOn = true → s.bifurcated = true → t.perstN p = bitOf v 0) ∧
            State.SameRegsBut s t fun a => a = Reg.pciPCtrl p))

/-! ### Ethernet and the field ports -/

/-- May port p receive this frame. -/
def portReceives (s : State) (p : Nat) (f : List Byte) : Prop :=
  p < 4 ∧ s.mainOn = true ∧ s.bit (Reg.ethPCfg p) 0 = true ∧ s.bit (Reg.ethPStatus p) 0 = true ∧ 60 ≤ f.length ∧
    f.length ≤ 9212

/-- The buffer and the descriptor of a queue can be reached and lie apart, and no error code fails on them. -/
def queueReady (s : State) (r : QueueRegs) (a n : Nat) : Prop :=
  s.longDenied .ethernet a n = none ∧ s.longDenied .ethernet (s.descAddr r) 32 = none ∧ s.Clean a n ∧
    s.Clean (s.descAddr r) 32 ∧ (a + n ≤ s.descAddr r ∨ s.descAddr r + 32 ≤ a)

/-- The bytes of the descriptor at HEAD of a queue can be read, and no error code fails on them. -/
def descReads (s : State) (r : QueueRegs) : Prop :=
  s.Clean (s.descAddr r) 32 ∧ s.readable (s.descAddr r) = true ∧ s.readable (s.descAddr r + 31) = true

/-- The queue has no descriptor for a frame (R654): it is disabled, its HEAD has reached its TAIL, or software still owns
the descriptor. -/
def noDesc (s : State) (r : QueueRegs) : Prop :=
  s.bit r.cfg 5 = false ∨ isAfter (s.rget r.tail) (s.rget r.head) = false ∨
    (descReads s r ∧ descField (s.readBytes (s.descAddr r) 32) 8 0 0 = 0)

/-- The port owns the descriptor at HEAD of an enabled queue, and these are its bytes (R654). -/
def hasDesc (s : State) (r : QueueRegs) (d : List Byte) : Prop :=
  s.bit r.cfg 5 = true ∧ isAfter (s.rget r.tail) (s.rget r.head) = true ∧ descReads s r ∧
    s.readBytes (s.descAddr r) 32 = d ∧ descField d 8 0 0 = 1

/-- ETH_FRAME_RECEIVE, ETH_TX_FRAME_DONE, ETH_QUEUE_TAIL_WRITE and ETH_LINK_CHANGE (R652 to R657): a bad check sequence
counts; a frame of no stream fills the next descriptor of its queue, or is dropped without one; a frame that its gates let go
is sent and gives its descriptor back, one that they hold waits, and one that they discard gives it back with status 4. -/
def Obligations.EthernetQueuesMoveFrames : Prop :=
  ∀ s : State,
    (∀ p f sec ns, portReceives s p f →
      (∃ t, exec (.ethFrameReceive p f false sec ns) s = .next t ∧
        t.rget (Reg.ethFcsCount p) = satAdd (s.rget (Reg.ethFcsCount p)) 1 ∧ State.OnlyRegs s t ∧
        State.SameRegsBut s t fun a => a = Reg.ethFcsCount p) ∧
      ((headOf f).rtag = none → isPtp f (headOf f) = false → s.frameStreams p f (headOf f) = [] →
        let q := ((headOf f).vlan.map fun x => x.1).getD 0
        let r := queueRegs false p q
        q < 8 →
        (noDesc s r →
          ∃ t, exec (.ethFrameReceive p f true sec ns) s = .next t ∧
            t.rget (Reg.ethRxFrames p) = satAdd (s.rget (Reg.ethRxFrames p)) 1 ∧
            t.rget (Reg.ethRxDrop p) = satAdd (s.rget (Reg.ethRxDrop p)) 1 ∧ State.SameMemory s t ∧
            State.SameRegsBut s t fun a => a = Reg.ethRxFrames p ∨ a = Reg.ethRxDrop p) ∧
        ∀ d, hasDesc s r d → f.length ≤ bytesToNat ((d.drop 6).take 2) →
          queueReady s r (bytesToNat (d.take 6)) f.length → s.bit r.cfg 4 = false →
          ∃ t, exec (.ethFrameReceive p f true sec ns) s = .next t ∧
            t.rget (Reg.ethRxFrames p) = satAdd (s.rget (Reg.ethRxFrames p)) 1 ∧
            t.rget r.head = s.rget r.head + 1 ∧ t.readBytes (bytesToNat (d.take 6)) f.length = f ∧
            t.readBytes (s.descAddr r) 32 = descBack d f.length 0 none ∧
            (∀ a, ¬ (bytesToNat (d.take 6) ≤ a ∧ a < bytesToNat (d.take 6) + f.length) →
              ¬ (s.descAddr r ≤ a ∧ a < s.descAddr r + 32) → t.readByte a = s.readByte a) ∧
            State.SameRegsBut s t fun a => a = Reg.ethRxFrames p ∨ a = r.head)) ∧
    (∀ p q sec ns, p < 4 → q < 8 → s.mainOn = true → s.bit (Reg.ethPCfg p) 0 = true →
      let r := queueRegs true p q
      (noDesc s r → ∀ x, exec (.ethTxFrameDone p q sec ns x) s = .next s) ∧
      ∀ d, hasDesc s r d →
        (s.mayDiscard p q = false → exec (.ethTxFrameDone p q sec ns true) s = .next s) ∧
        (s.mayDiscard p q = true → s.longDenied .ethernet (s.descAddr r) 32 = none → s.bit r.cfg 4 = false →
          ∃ t, exec (.ethTxFrameDone p q sec ns true) s = .next t ∧ t.rget r.head = s.rget r.head + 1 ∧
            t.readBytes (s.descAddr r) 32 = descBack d (bytesToNat ((d.drop 6).take 2)) 4 none ∧
            (∀ a, ¬ (s.descAddr r ≤ a ∧ a < s.descAddr r + 32) → t.readByte a = s.readByte a) ∧
            t.field.sent = s.field.sent ∧ State.SameRegsBut s t fun a => a = r.head) ∧
        ∀ f, bytesToNat ((d.drop 6).take 2) = f.length →
          (s.maySend p q (sec * 1000000000 + ns) f.length = false →
            exec (.ethTxFrameDone p q sec ns false) s = .next s) ∧
          (let out := oneStep f (headOf f)
            (withLatency (sec * 1000000000 + ns) (s.rget (Reg.ethPTsLatTx p)).toInt)
          f ≠ [] → s.maySend p q (sec * 1000000000 + ns) f.length = true →
          s.readable (bytesToNat (d.take 6)) = true → s.readable (bytesToNat (d.take 6) + (f.length - 1)) = true →
          s.readBytes (bytesToNat (d.take 6)) f.length = f → queueReady s r (bytesToNat (d.take 6)) f.length →
          s.bit r.cfg 4 = false → s.frerEntry p (headOf out) Config.frerGenerates = none → descField d 8 1 1 = 0 →
          ∃ t, exec (.ethTxFrameDone p q sec ns false) s = .next t ∧ (p, out) ∈ t.field.sent ∧
            t.rget (Reg.ethTxFrames p) = satAdd (s.rget (Reg.ethTxFrames p)) 1 ∧ t.rget r.head = s.rget r.head + 1 ∧
            t.readBytes (s.descAddr r) 32 = descBack d f.length 0 none ∧
            (∀ a, ¬ (s.descAddr r ≤ a ∧ a < s.descAddr r + 32) → t.readByte a = s.readByte a) ∧
            State.SameRegsBut s t fun a => a = Reg.ethTxFrames p ∨ a = r.head)) ∧
    (∀ (who : Initiator) (p q : Nat) (tx : Bool) (v : Word), p < 4 → q < 8 → s.Takes who (queueRegs tx p q).tail v →
      ∃ t, exec (.ethQueueTailWrite who p tx q v) s = .next t ∧ t.resp = .done ∧ t.rget (queueRegs tx p q).tail = v ∧
        State.OnlyRegs s t ∧ State.SameRegsBut s t fun a => a = (queueRegs tx p q).tail) ∧
    ∀ p up, p < 4 → s.mainOn = true →
      ∃ t, exec (.ethLinkChange p up) s = .next t ∧ t.bit (Reg.ethPStatus p) 0 = up ∧ State.OnlyRegs s t ∧
        State.SameRegsBut s t fun a => a = Reg.ethPStatus p

/-- GCL_GO, GCL_SWAP and GATE_TRANSITION (R656): a list that waits becomes operational at the start of a cycle, its entries
govern in turn, and the cycle repeats. -/
def Claims.GateListsRun : Prop :=
  ∀ (s : State) (p : Nat), p < 4 →
    (∀ (who : Initiator) (v : Word), s.Takes who (Reg.ethGclCtrl p) (v ||| 1) →
      (s.bit (Reg.ethGclStatus p) 1 = true →
        ∃ t, exec (.gclGo who p v) s = .next t ∧ t.resp = .done ∧ t.bit (Reg.ethPStatus p) 1 = true ∧
          t.gates p = s.gates p ∧ State.OnlyRegs s t ∧ State.SameRegsBut s t fun a => a = Reg.ethPStatus p) ∧
      (s.bit (Reg.ethGclStatus p) 1 = false →
        ∃ t start, exec (.gclGo who p v) s = .next t ∧ t.resp = .done ∧ t.bit (Reg.ethGclStatus p) 1 = true ∧
          t.gates p = { s.gates p with swap := some (start, s.fget (Reg.ethGclCycle p) 29 0, fieldOf v 9 2 + 1) } ∧
          (s.fget (Reg.ethGclCycle p) 29 0 ≠ 0 → s.timeNs ≤ start) ∧ State.SameMemory s t ∧
          State.SameRegsBut s t fun a => a = Reg.ethGclCtrl p ∨ a = Reg.ethGclStatus p)) ∧
    ((s.gates p).swap = none → exec (.gclSwap p) s = .next s) ∧
    (∀ start cycle len, (s.gates p).swap = some (start, cycle, len) →
      (s.timeNs < start → exec (.gclSwap p) s = .next s) ∧
      (start ≤ s.timeNs →
        ∃ t, exec (.gclSwap p) s = .next t ∧ t.bit (Reg.ethGclStatus p) 0 = (!s.bit (Reg.ethGclStatus p) 0) ∧
          t.bit (Reg.ethGclStatus p) 1 = false ∧ (t.gates p).start = start ∧ (t.gates p).cycle = cycle ∧
          (t.gates p).len = len ∧ (t.gates p).entry = 0 ∧ (t.gates p).swap = none ∧
          (t.gates p).until_ ≤ start + cycle ∧ State.SameMemory s t ∧
          State.SameRegsBut s t fun a => a = Reg.ethGclStatus p)) ∧
    ((s.gates p).cycle = 0 ∨ s.timeNs < (s.gates p).until_ → exec (.gateTransition p) s = .next s) ∧
    ((s.gates p).cycle ≠ 0 → (s.gates p).until_ ≤ s.timeNs →
      ∃ t, exec (.gateTransition p) s = .next t ∧ t.regs = s.regs ∧ State.SameMemory s t ∧
        (t.gates p).until_ ≤ (t.gates p).start + (t.gates p).cycle ∧ (t.gates p).cycle = (s.gates p).cycle ∧
        ((s.gates p).until_ < (s.gates p).start + (s.gates p).cycle →
          (t.gates p).entry = (s.gates p).entry + 1 ∧ (t.gates p).start = (s.gates p).start) ∧
        ((s.gates p).start + (s.gates p).cycle ≤ (s.gates p).until_ →
          (t.gates p).entry = 0 ∧ (t.gates p).start = (s.gates p).start + (s.gates p).cycle))

/-- CAN_FRAME_RECEIVE, CAN_FRAME_TRANSMIT, SPI_GO, SPI_TRANSFER_DONE, I2C_TRANSFER, I2C_RECOVER and CSI_NO_CLOCK (R659,
R662 to R666): a frame that a filter takes joins its FIFO; the frame of the highest priority is sent; a port that is bus-off does neither until it is back (when that is, is
free, log entry 10); a transfer gives
its data and ends. -/
def Claims.FieldPortsTransfer : Prop :=
  ∀ s : State,
    (∀ p f time, p < 2 → (s.canPort p).busOff = false →
      let hit := (List.range 64).findSome? fun i =>
        Config.canFilter (s.rget (Reg.ethCanFilter p i)).toNat f.id f.extended
      ∃ t, exec (.canFrameReceive p f time) s = .next t ∧ t.regs = s.regs ∧ State.SameMemory s t ∧
        (t.canPort p).tx = (s.canPort p).tx ∧ (t.canPort p).tec = (s.canPort p).tec ∧
        (t.canPort p).rec_ = (s.canPort p).received.rec_ ∧
        (hit = none → (t.canPort p).fifo0 = (s.canPort p).fifo0 ∧ (t.canPort p).fifo1 = (s.canPort p).fifo1) ∧
        (hit = some false → (t.canPort p).fifo1 = (s.canPort p).fifo1 ∧
          ((s.canPort p).fifo0.length < 64 →
            (t.canPort p).fifo0 = (s.canPort p).fifo0 ++ [(f, time / 8 * 8)])) ∧
        (hit = some true → (t.canPort p).fifo0 = (s.canPort p).fifo0 ∧
          ((s.canPort p).fifo1.length < 64 →
            (t.canPort p).fifo1 = (s.canPort p).fifo1 ++ [(f, time / 8 * 8)]))) ∧
    (∀ p requests acked, p < 2 → (s.canPort p).busOff = false → (s.canPort p).tx ++ requests ≠ [] →
      let tx := ((s.canPort p).tx ++ requests).take 32
      ∃ t f, exec (.canFrameTransmit p requests acked) s = .next t ∧ f ∈ tx ∧ (∀ g ∈ tx, canRank f ≤ canRank g) ∧
        t.regs = s.regs ∧ State.SameMemory s t ∧
        (acked = true → (t.canPort p).tx = tx.erase f ∧ (t.canPort p).tec = (s.canPort p).tec - 1) ∧
        (acked = false → (t.canPort p).tx = tx ∧
          ((t.canPort p).tec = (s.canPort p).tec + 8 ∨
            (127 < (s.canPort p).tec ∧ (t.canPort p).tec = (s.canPort p).tec)))) ∧
    (∀ p f time requests acked, p < 2 → (s.canPort p).busOff = true →
      let back := s.drawBit.2.putCan p { s.canPort p with tec := 0, rec_ := 0 }
      (exec (.canFrameReceive p f time) s = .next s.drawBit.2 ∨
        exec (.canFrameReceive p f time) s = exec (.canFrameReceive p f time) back) ∧
      (exec (.canFrameTransmit p requests acked) s =
          .next (s.drawBit.2.putCan p { s.canPort p with tx := ((s.canPort p).tx ++ requests).take 32 }) ∨
        exec (.canFrameTransmit p requests acked) s = exec (.canFrameTransmit p requests acked) back)) ∧
    (∀ (who : Initiator) (m : Nat) (v : Word), m < 6 → s.Takes who (Reg.ethSpiGo m) v →
      ∃ t, exec (.spiGo who m v) s = .next t ∧ t.resp = .done ∧ State.SameMemory s t ∧
        (s.spiStreaming m = true → t.field = s.field ∧ t.bit Reg.ethStatus 0 = true ∧
          State.SameRegsBut s t fun a => a = Reg.ethStatus) ∧
        (s.spiStreaming m = false → (∀ x ∈ s.field.spi, x.1 ≠ m) →
          t.field = { s.field with spi := (m, v) :: s.field.spi } ∧ t.bit (Reg.ethSpiStatus m) 0 = true ∧
          State.SameRegsBut s t fun a => a = Reg.ethSpiStatus m)) ∧
    (∀ m w, m < 6 → (∃ v, (m, v) ∈ s.field.spi) →
      ∃ t, exec (.spiTransferDone m w) s = .next t ∧ t.rget (Reg.ethSpiData m) = w ∧
        t.bit (Reg.ethSpiStatus m) 0 = false ∧ t.bit (Reg.ethSpiStatus m) 2 = true ∧ (∀ x ∈ t.field.spi, x.1 ≠ m) ∧
        State.SameMemory s t ∧ State.SameRegsBut s t fun a => a = Reg.ethSpiData m ∨ a = Reg.ethSpiStatus m) ∧
    (∀ m w, (∀ x ∈ s.field.spi, x.1 ≠ m) → exec (.spiTransferDone m w) s = .next s) ∧
    (∀ c r data, c < 4 →
      ∃ t, exec (.i2cTransfer c r data) s = .next t ∧ (t.i2c c).status = i2cStatus r ∧
        (t.i2c c).data = (if r = .success then data else []) ∧ t.regs = s.regs ∧ State.SameMemory s t) ∧
    (∀ (who : Initiator) (c : Nat), c < 4 → s.Takes who (Reg.ethI2c c 0) 0 →
      ∃ t, exec (.i2cRecover who c) s = .next t ∧ t.resp = .done ∧ (t.i2c c).recoveries = (s.i2c c).recoveries + 1 ∧
        t.regs = s.regs ∧ State.SameMemory s t) ∧
    ∀ p < 8,
      (s.bit (Reg.ethCsiCfg p) 8 = false → exec (.csiNoClock p) s = .next s) ∧
      (s.bit (Reg.ethCsiCfg p) 8 = true →
        ∃ t, exec (.csiNoClock p) s = .next t ∧ t.bit (Reg.ethCsiStatus p) 0 = true ∧ State.OnlyRegs s t ∧
          State.SameRegsBut s t fun a => a = Reg.ethCsiStatus p)

/-! ### Reset, and every step -/

/-- The state right after a power-on reset (R13, R95, R124, R381, R524, R679; the main domain is still in reset, log entry
6, and the queue is the model's, log entry 1): every field of every register holds its reset value, Cinch is in BOOT
with the safe-state command in force and its outputs low, SYS_RESET_CAUSE reads 1, the beat count is 0, every
transaction, ring and loop is idle, and registers and memory are in their canonical form. -/
def Obligations.ResetLeavesTheStatedValues : Prop :=
  (∀ (a : Nat) (r : RegRow), regRow a = some r → r.FieldsApart →
    ∀ f ∈ r.flds, State.reset.fget a f.hi f.lo = f.reset % 2 ^ (f.hi + 1 - f.lo)) ∧
  State.reset.mainOn = false ∧ State.reset.cinState = 0 ∧ State.reset.safeCommand = true ∧
  State.reset.fget Reg.cinOutStatus 3 0 = 0 ∧ State.reset.rget Reg.sysResetCause = 1 ∧ State.reset.beat = 0 ∧
  (∀ n, State.reset.txnState n = 0 ∧ (State.reset.txn n).entries = []) ∧
  (∀ n, n < 2 → State.reset.ringState n = 0 ∧ State.reset.ringQ n = []) ∧
  (∀ l, l < 128 → State.reset.loopState l = 0) ∧ State.reset.pending = [] ∧
  State.reset.RegsOk ∧ State.reset.MemOk ∧ State.reset.TxnsFit

/-- Every step answers a next state, and a step from a state whose registers and memory are in canonical form, whose
transactions hold at most 256 entries (R113) and seal ranges 0 to 15 only (R537), leads to such a state: no bit of a
register and no byte of memory has two values, whatever command comes. -/
def Obligations.StepsKeepTheStateSound : Prop :=
  ∀ s : State, s.Runs ∧
    ∀ t, s.RegsOk → s.MemOk → s.TxnsFit → step s = .next t → t.RegsOk ∧ t.MemOk ∧ t.TxnsFit

/-! ### Statements of several claims -/

/-- Register writes and clearing reads follow the access types of the fields, and no event is lost. -/
def Obligations.RegistersFollowTheirFieldTypes : Prop :=
  Claims.RegisterWriteFollowsFieldTypes ∧ Claims.ReadClearsRcFields

/-- Processor stores and loads of memory, the cache-block instructions, and words that cannot be corrected. -/
def Obligations.ProcessorsAccessMemory : Prop :=
  Claims.ProcessorAccessesMemory ∧ Claims.CacheBlocksAreManaged ∧ Claims.UncorrectableWordsAreNotDelivered

/-- Buckle sets and adds of one cycle, and protected buckles. -/
def Obligations.BucklesTakeTheirSignals : Prop :=
Claims.BuckleSetTakesTheLastSetAndEveryAdd ∧ Claims.BuckleAddsAreNeverLost ∧
    Claims.ProtectedBucklesRefuseUntrustedSignals

/-- Wait slots are evaluated when armed, at signals and at a new TARGET; ARM = 0 disarms (R104). -/
def Obligations.WaitSlotsAreEvaluated : Prop :=
  Claims.SignalsEvaluateTheWaits ∧ Claims.WaitSlotsFollowTheirWrites

/-- A valid shadow set takes effect whole; clearing writes zero their bank of counters and nothing else. -/
def Obligations.PocketsCommitAndBanksClear : Prop :=
  Claims.PocketCommitAppliesAValidShadowSet ∧ Claims.ClearsZeroTheirBanks

/-- Scrub passes, imbalance windows, throttled and trained stacks of Tiers A and B. -/
def Obligations.MemoriesAreScrubbedAndWatched : Prop :=
  Claims.ScrubbersCountWhatTheyCorrect ∧ Claims.ImbalanceWindowsAreFlagged ∧ Claims.StacksThrottleAndTrain

/-- The commands of the IOMMU queue invalidate what they name; IOFENCE stores its word (layout PRESUMED, log entry
16). -/
def Obligations.IommuFollowsItsQueue : Prop :=
  Claims.IommuCommandsInvalidateWhatTheyName ∧ Claims.IofenceStoresItsWord

/-- Walks fill the IOTLB unless they fault; a root swap replaces the root. -/
def Obligations.IommuWalksAndSwaps : Prop :=
  Claims.WalksFillTheIotlbUnlessTheyFault ∧ Claims.RootSwapsReplaceTheRoot

/-- Open, stage, arm, abort, release and timeout of transactions. -/
def Obligations.TransactionsCollectTheirEntries : Prop :=
  Claims.TransactionsFollowTheirCommands ∧ Claims.TransactionsAbort ∧ Claims.StagingCollectsEntries

/-- TAIL, HEAD, CFG and CTRL of a ring. -/
def Obligations.RingsFollowTheirRegisters : Prop :=
  Claims.RingIndicesFollowTheirWrites ∧ Claims.RingStatesFollowTheirCommands

/-- Descriptors are read in order; NOP, FENCE and rejected ops end. -/
def Obligations.DescriptorsReadAndQuickOpsEnd : Prop :=
  Claims.DescriptorsAreReadInOrder ∧ Claims.QuickAndRejectedOpsEnd

/-- Tiles pass and drain; an op ends when nothing is left of it. -/
def Obligations.OpsPassDrainAndEnd : Prop :=
  Claims.TilesPassAndDrain ∧ Claims.OpsEndWhenNothingIsLeft

/-- Golden runs take the issue slot; the tensor clock changes between ops. -/
def Obligations.GoldenRunsAndClockChanges : Prop :=
  Claims.GoldenRunsTakeTheSlot ∧ Claims.TensorClockChangesBetweenOps

/-- Rate, steps, beats, lock and PPS of the time base. -/
def Obligations.TheTimeBaseAdvances : Prop :=
  Claims.TimeStepsAndRate ∧ Claims.BeatsAdvanceTheTime ∧ Claims.PpsPulsesAndStamps

/-- Triggers arm and match; captures queue their edges. -/
def Obligations.TriggersAndCaptures : Prop :=
  Claims.TriggersArmUnderTheirConditions ∧ Claims.TriggersMatchTheirTarget ∧ Claims.CapturesQueueTheirEdges

/-- Camera, Ethernet, audio and SPI streams collect their frames (CSI-2 packing PRESUMED, log entry 17). -/
def Obligations.StreamsCollectTheirFrames : Prop :=
  Claims.CameraFramesCollectTheirLines ∧ Claims.UnitStreamsCollectTheirFrames

/-- Frames are conditioned and delivered; streams start and stop. -/
def Obligations.StreamsDeliverAndStop : Prop :=
  Claims.FramesAreConditionedAndDelivered ∧ Claims.StreamsStartAndStop

/-- Quadrille starts the job at HEAD and ends it with its status word. -/
def Obligations.QuadrilleRunsItsJobs : Prop :=
  Claims.QuadrilleStartsItsJobs ∧ Claims.QuadrilleEndsItsJobs

/-- A loop samples in its beat and its output takes effect 100 beats later. -/
def Obligations.LoopsSampleAndApply : Prop :=
  Claims.LoopsSampleInTheirBeat ∧ Claims.LoopOutputsTakeEffect

/-- Encoders count their legal changes; absolute frames are checked. -/
def Obligations.PositionsAreCounted : Prop :=
  Claims.EncodersCountTheirEdges ∧ Claims.AbsoluteFramesAreChecked

/-- PWM pairs keep their dead time; limit inputs are debounced. -/
def Obligations.PwmAndLimitInputs : Prop :=
  Claims.PwmPairsKeepTheirDeadTime ∧ Claims.LimitInputsAreDebounced

/-- Homing starts and aborts; UARTs queue their bytes. -/
def Obligations.HomingAndUarts : Prop :=
  Claims.HomingStartsAndAborts ∧ Claims.UartsQueueTheirBytes

/-- The sparse solver takes its problems and ends them with their status. -/
def Obligations.SolverRunsItsProblems : Prop :=
  Claims.SolverTakesItsProblems ∧ Claims.SolvesEndWithTheirStatus

/-- Every fault event takes Cinch to the safe state with its cause; the watchdog and the beat are watched. -/
def Obligations.FaultsReachTheSafeState : Prop :=
  Claims.FaultsReachTheSafeState ∧ Claims.WatchdogAndBeatAreWatched

/-- RUN, STOP, REARM and requests of Cinch, and how it enters RUN. -/
def Obligations.CinchFollowsItsCommands : Prop :=
  Claims.CinchFollowsItsCommands ∧ Claims.CinchEntersRun

/-- Shauz ports take flits in order, come up and go down. -/
def Obligations.PortsCarryFlits : Prop :=
  Claims.PortsTakeFlitsInOrder ∧ Claims.PortsComeAndGo

/-- End-to-end messages are routed and numbered; their timers expire. -/
def Obligations.MessagesAreNumberedAndExpire : Prop :=
  Claims.MessagesAreRoutedAndNumbered ∧ Claims.RemoteTimersExpire

/-- Time exchange, beacons and isolation. -/
def Obligations.TimeAndBeaconsKeepTheNodes : Prop :=
  Claims.TimeIsExchanged ∧ Claims.BeaconsKeepTheNodesTogether

/-- The main domain comes back; power caps and temperature are held (the clock under a cap is free). -/
def Obligations.PowerAndTemperature : Prop :=
  Claims.TheMainDomainComesBack ∧ Claims.PowerAndTemperatureAreHeld

/-- Commands of the Steward end with their code; the Steward boots an image that passes. -/
def Obligations.TheStewardBootsAndAnswers : Prop :=
  Claims.StewardCommandsEnd ∧ Claims.TheStewardBoots

/-- Outbound PCIe requests complete, time out or fail with their link. -/
def Obligations.RequestsCompleteOnTheirLinks : Prop :=
  Claims.RequestsComplete ∧ Claims.PcieLinksComeAndGo

/-- Gate lists run; CAN, SPI, I2C and CSI ports transfer. -/
def Obligations.GatesAndFieldPorts : Prop :=
  Claims.GateListsRun ∧ Claims.FieldPortsTransfer
end

