-- ==== Sys2Proof/Laws/Bits.lean ====
section
/-!
SUPPORT. Laws/Bits.lean: fields and bits of a register after a field is replaced.
-/

namespace Sys2Proof.Machine

theorem testBit_fieldOf (w : Word) (hi lo j : Nat) :
    (fieldOf w hi lo).testBit j = (decide (j < hi + 1 - lo) && bitOf w (lo + j)) := by
  unfold fieldOf bitOf
  rw [Nat.testBit_mod_two_pow, Nat.testBit_div_two_pow, Nat.add_comm lo j]

theorem bitOf_eq_getLsbD (w : Word) (i : Nat) : bitOf w i = w.getLsbD i := rfl

theorem getLsbD_maskOf (hi lo i : Nat) (h : hi < 32) :
    (maskOf hi lo).getLsbD i = decide (lo ≤ i ∧ i ≤ hi) := by
  unfold maskOf
  rw [BitVec.getLsbD_ofNat, Nat.testBit_mul_two_pow]
  by_cases h1 : lo ≤ i
  · simp only [h1, decide_true, Bool.true_and, true_and, Nat.testBit_two_pow_sub_one]
    by_cases h2 : i ≤ hi
    · have : i < 32 := by omega
      have : i - lo < hi + 1 - lo := by omega
      simp [*]
    · have : ¬ i - lo < hi + 1 - lo := by omega
      simp [*]
  · simp [h1]

theorem bitOf_withField (w : Word) (hi lo v i : Nat) (h : hi < 32) :
    bitOf (withField w hi lo v) i = if lo ≤ i ∧ i ≤ hi then v.testBit (i - lo) else bitOf w i := by
  rw [bitOf_eq_getLsbD, bitOf_eq_getLsbD]
  unfold withField
  rw [BitVec.getLsbD_or, BitVec.getLsbD_and, BitVec.getLsbD_not, getLsbD_maskOf _ _ _ h, BitVec.getLsbD_ofNat,
    Nat.testBit_mul_two_pow, Nat.testBit_mod_two_pow]
  by_cases h1 : lo ≤ i ∧ i ≤ hi
  · obtain ⟨ha, hb⟩ := h1
    have h3 : i - lo < hi + 1 - lo := by omega
    have h4 : i < 32 := by omega
    simp [ha, hb, h3, h4]
  · by_cases ha : lo ≤ i
    · have hb : ¬ i ≤ hi := fun hb => h1 ⟨ha, hb⟩
      have h3 : ¬ i - lo < hi + 1 - lo := by omega
      rw [if_neg h1]
      simp only [hb, h3, decide_false, Bool.false_and, Bool.and_false, Bool.or_false, and_false, Bool.not_false,
        Bool.and_true]
      by_cases h4 : i < 32
      · simp [h4]
      · simp [h4, BitVec.getLsbD_of_ge w i (by omega)]
    · rw [if_neg h1]
      by_cases h4 : i < 32
      · simp [ha, h4]
      · simp [ha, h4, BitVec.getLsbD_of_ge w i (by omega)]

theorem fieldOf_congr {w x : Word} {hi lo : Nat} (h : ∀ i, lo ≤ i → i ≤ hi → bitOf w i = bitOf x i) :
    fieldOf w hi lo = fieldOf x hi lo := by
  apply Nat.eq_of_testBit_eq
  intro j
  rw [testBit_fieldOf, testBit_fieldOf]
  by_cases hj : j < hi + 1 - lo
  · rw [h (lo + j) (by omega) (by omega)]
  · simp [hj]

theorem fieldOf_lt (w : Word) (hi lo : Nat) : fieldOf w hi lo < 2 ^ (hi + 1 - lo) :=
  Nat.mod_lt _ (Nat.two_pow_pos _)

theorem fieldOf_withField_same (w : Word) (hi lo v : Nat) (h : hi < 32) :
    fieldOf (withField w hi lo v) hi lo = v % 2 ^ (hi + 1 - lo) := by
  apply Nat.eq_of_testBit_eq
  intro j
  rw [testBit_fieldOf, bitOf_withField _ _ _ _ _ h, Nat.testBit_mod_two_pow]
  by_cases hj : j < hi + 1 - lo
  · have h1 : lo ≤ lo + j ∧ lo + j ≤ hi := by omega
    rw [if_pos h1, Nat.add_sub_cancel_left]
  · simp [hj]

theorem fieldOf_withField_ne (w : Word) (hi lo v hi' lo' : Nat) (h : hi < 32) (hd : hi < lo' ∨ hi' < lo) :
    fieldOf (withField w hi lo v) hi' lo' = fieldOf w hi' lo' := by
  apply fieldOf_congr
  intro i h1 h2
  rw [bitOf_withField _ _ _ _ _ h, if_neg (by omega)]

theorem b2n_testBit (b : Bool) : (b2n b).testBit 0 = b := by cases b <;> rfl

theorem fieldOf_bit (w : Word) (i : Nat) : fieldOf w i i = b2n (bitOf w i) := by
  apply Nat.eq_of_testBit_eq
  intro j
  rw [testBit_fieldOf]
  by_cases hj : j = 0
  · subst hj; rw [Nat.add_zero, b2n_testBit]; simp
  · have h1 : ¬ j < i + 1 - i := by omega
    rw [decide_eq_false h1, Bool.false_and]
    symm
    apply Nat.testBit_lt_two_pow
    have : b2n (bitOf w i) ≤ 1 := by cases bitOf w i <;> decide
    exact lt_of_le_of_lt this (Nat.one_lt_two_pow hj)

/-- Two words with the same bits are the same. -/
theorem word_ext {w x : Word} (h : ∀ i, i < 32 → bitOf w i = bitOf x i) : w = x :=
  BitVec.eq_of_getLsbD_eq fun i hi => h i hi

theorem toWord_toNat (w : Word) : toWord w.toNat = w := by
  simp [toWord]

end Sys2Proof.Machine
end

