-- ==== Sys2Proof/Laws/Sparse.lean ====
section
/-!
SUPPORT. Laws/Sparse.lean: reading sparse data after a write, and its canonical form under every operation.
-/

namespace Sys2Proof.Machine

variable {β : Type}

theorem spGet_spPut_same (d : Nat → β) (m : List (Nat × β)) (a : Nat) (v : β) : spGet d (spPut m a v) a = v := by
  induction m with
  | nil => simp [spPut, spGet]
  | cons p m ih =>
    obtain ⟨k, w⟩ := p
    unfold spPut
    split
    · simp [spGet]
    · split
      · simp [spGet]
      · next h1 h2 => simp [spGet, Ne.symm h2, ih]

theorem spGet_spPut_ne (d : Nat → β) (m : List (Nat × β)) {a b : Nat} (v : β) (h : a ≠ b) :
    spGet d (spPut m a v) b = spGet d m b := by
  induction m with
  | nil => simp [spPut, spGet, h]
  | cons p m ih =>
    obtain ⟨k, w⟩ := p
    unfold spPut
    split
    · simp [spGet, h]
    · split
      · next h1 h2 => subst h2; simp [spGet, h]
      · simp only [spGet, ih]

theorem spGet_filter (d : Nat → β) (m : List (Nat × β)) (f : Nat → Bool) (a : Nat) :
    spGet d (m.filter fun p => f p.1) a = if f a then spGet d m a else d a := by
  induction m with
  | nil => simp [spGet]
  | cons p m ih =>
    obtain ⟨k, w⟩ := p
    by_cases hk : k = a
    · subst hk
      by_cases hf : f k
      · simp [List.filter, hf, spGet]
      · simp only [List.filter, hf]
        simpa [hf] using ih
    · by_cases hf : f k <;> simp [List.filter, hf, spGet, hk, ih]

theorem spGet_spDel (d : Nat → β) (m : List (Nat × β)) (a b : Nat) :
    spGet d (spDel m a) b = if b = a then d b else spGet d m b := by
  have h := spGet_filter d m (fun k => decide (k ≠ a)) b
  unfold spDel
  rw [h]
  by_cases hb : b = a <;> simp [hb]

/-- A write removes the pair of an unlisted value, else puts the pair. -/
theorem spSet_eq [DecidableEq β] (d : Nat → β) (m : List (Nat × β)) (a : Nat) (v : β) :
    spSet d m a v = if v = d a then spDel m a else spPut m a v := by
  cases m <;> rfl

theorem spGet_spSet_same [DecidableEq β] (d : Nat → β) (m : List (Nat × β)) (a : Nat) (v : β) :
    spGet d (spSet d m a v) a = v := by
  rw [spSet_eq]
  split
  · next h => rw [spGet_spDel]; simp [h]
  · exact spGet_spPut_same d m a v

theorem spGet_spSet_ne [DecidableEq β] (d : Nat → β) (m : List (Nat × β)) {a b : Nat} (v : β) (h : a ≠ b) :
    spGet d (spSet d m a v) b = spGet d m b := by
  rw [spSet_eq]
  split
  · rw [spGet_spDel]; simp [Ne.symm h]
  · exact spGet_spPut_ne d m v h

theorem spGet_spSet [DecidableEq β] (d : Nat → β) (m : List (Nat × β)) (a b : Nat) (v : β) :
    spGet d (spSet d m a v) b = if a = b then v else spGet d m b := by
  split
  · next h => subst h; exact spGet_spSet_same d m a v
  · next h => exact spGet_spSet_ne d m v h

theorem mem_spPut {m : List (Nat × β)} {a : Nat} {v : β} {p : Nat × β} (h : p ∈ spPut m a v) : p = (a, v) ∨ p ∈ m := by
  induction m with
  | nil => simp [spPut] at h; exact .inl h
  | cons q m ih =>
    obtain ⟨k, w⟩ := q
    unfold spPut at h
    split at h
    · simp only [List.mem_cons] at h ⊢; tauto
    · split at h
      · simp only [List.mem_cons] at h ⊢; tauto
      · rcases List.mem_cons.mp h with h | h
        · exact .inr (List.mem_cons.mpr (.inl h))
        · exact (ih h).imp id fun h => List.mem_cons.mpr (.inr h)

theorem spPut_sorted {m : List (Nat × β)} (a : Nat) (v : β) (h : m.Pairwise (fun p q => p.1 < q.1)) :
    (spPut m a v).Pairwise (fun p q => p.1 < q.1) := by
  induction m with
  | nil => simp [spPut]
  | cons q m ih =>
    obtain ⟨k, w⟩ := q
    obtain ⟨hq, hm⟩ := List.pairwise_cons.mp h
    unfold spPut
    split
    · next hk =>
      refine List.pairwise_cons.mpr ⟨fun p hp => ?_, h⟩
      rcases List.mem_cons.mp hp with rfl | hp
      · exact hk
      · exact Nat.lt_trans hk (hq p hp)
    · split
      · next h2 => subst h2; exact List.pairwise_cons.mpr ⟨hq, hm⟩
      · refine List.pairwise_cons.mpr ⟨fun p hp => ?_, ih hm⟩
        rcases mem_spPut hp with rfl | hp
        · show k < a; omega
        · exact hq p hp

theorem spDel_wf {d : Nat → β} {m : List (Nat × β)} (a : Nat) (h : SpWf d m) : SpWf d (spDel m a) :=
  ⟨h.1.filter _, fun p hp => h.2 p (List.mem_filter.mp hp).1⟩

/-- A write keeps the canonical form. -/
theorem spSet_wf [DecidableEq β] {d : Nat → β} {m : List (Nat × β)} (a : Nat) (v : β) (h : SpWf d m) :
    SpWf d (spSet d m a v) := by
  rw [spSet_eq]
  split
  · exact spDel_wf a h
  · next hv =>
    refine ⟨spPut_sorted a v h.1, fun p hp => ?_⟩
    rcases mem_spPut hp with rfl | hp
    · exact hv
    · exact h.2 p hp

theorem spWf_nil (d : Nat → β) : SpWf d [] := ⟨List.Pairwise.nil, fun _ h => absurd h List.not_mem_nil⟩

/-- Dropping keys keeps the canonical form. -/
theorem filter_wf {d : Nat → β} {m : List (Nat × β)} (f : Nat × β → Bool) (h : SpWf d m) : SpWf d (m.filter f) :=
  ⟨h.1.filter _, fun p hp => h.2 p (List.mem_filter.mp hp).1⟩

/-- A change of what unlisted keys read as keeps the canonical form where no listed key is concerned. -/
theorem spWf_congr {d e : Nat → β} {m : List (Nat × β)} (h : SpWf d m) (he : ∀ p ∈ m, e p.1 = d p.1) : SpWf e m :=
  ⟨h.1, fun p hp => by rw [he p hp]; exact h.2 p hp⟩

end Sys2Proof.Machine
end

