-- ==== Sys2Proof/Laws/State.lean ====
section
/-!
SUPPORT. Laws/State.lean: every field of the state after every plain update: what the update writes, and that all else is
as before.
-/

namespace Sys2Proof.Machine

/-! ### rset -/

@[simp] theorem State.rset_pending (s : State) (a : Nat) (v : Word) : (s.rset a v).pending = s.pending := rfl
@[simp] theorem State.rset_freeCtr (s : State) (a : Nat) (v : Word) : (s.rset a v).freeCtr = s.freeCtr := rfl
@[simp] theorem State.rset_resp (s : State) (a : Nat) (v : Word) : (s.rset a v).resp = s.resp := rfl
@[simp] theorem State.rset_regs (s : State) (a : Nat) (v : Word) : (s.rset a v).regs = spSet resetOf s.regs a v := rfl
@[simp] theorem State.rset_mem (s : State) (a : Nat) (v : Word) : (s.rset a v).mem = s.mem := rfl
@[simp] theorem State.rset_lost (s : State) (a : Nat) (v : Word) : (s.rset a v).lost = s.lost := rfl
@[simp] theorem State.rset_bad (s : State) (a : Nat) (v : Word) : (s.rset a v).bad = s.bad := rfl
@[simp] theorem State.rset_touched (s : State) (a : Nat) (v : Word) : (s.rset a v).touched = s.touched := rfl
@[simp] theorem State.rset_committed (s : State) (a : Nat) (v : Word) : (s.rset a v).committed = s.committed := rfl
@[simp] theorem State.rset_upsets (s : State) (a : Nat) (v : Word) : (s.rset a v).upsets = s.upsets := rfl
@[simp] theorem State.rset_order (s : State) (a : Nat) (v : Word) : (s.rset a v).order = s.order := rfl
@[simp] theorem State.rset_landed (s : State) (a : Nat) (v : Word) : (s.rset a v).landed = s.landed := rfl
@[simp] theorem State.rset_reservations (s : State) (a : Nat) (v : Word) : (s.rset a v).reservations = s.reservations := rfl
@[simp] theorem State.rset_buffers (s : State) (a : Nat) (v : Word) : (s.rset a v).buffers = s.buffers := rfl
@[simp] theorem State.rset_cache (s : State) (a : Nat) (v : Word) : (s.rset a v).cache = s.cache := rfl
@[simp] theorem State.rset_busErrors (s : State) (a : Nat) (v : Word) : (s.rset a v).busErrors = s.busErrors := rfl
@[simp] theorem State.rset_txns (s : State) (a : Nat) (v : Word) : (s.rset a v).txns = s.txns := rfl
@[simp] theorem State.rset_armCount (s : State) (a : Nat) (v : Word) : (s.rset a v).armCount = s.armCount := rfl
@[simp] theorem State.rset_memPending (s : State) (a : Nat) (v : Word) : (s.rset a v).memPending = s.memPending := rfl
@[simp] theorem State.rset_snaps (s : State) (a : Nat) (v : Word) : (s.rset a v).snaps = s.snaps := rfl
@[simp] theorem State.rset_tlb (s : State) (a : Nat) (v : Word) : (s.rset a v).tlb = s.tlb := rfl
@[simp] theorem State.rset_dirs (s : State) (a : Nat) (v : Word) : (s.rset a v).dirs = s.dirs := rfl
@[simp] theorem State.rset_devCtxs (s : State) (a : Nat) (v : Word) : (s.rset a v).devCtxs = s.devCtxs := rfl
@[simp] theorem State.rset_procCtxs (s : State) (a : Nat) (v : Word) : (s.rset a v).procCtxs = s.procCtxs := rfl
@[simp] theorem State.rset_iomHeld (s : State) (a : Nat) (v : Word) : (s.rset a v).iomHeld = s.iomHeld := rfl
@[simp] theorem State.rset_swapRuns (s : State) (a : Nat) (v : Word) : (s.rset a v).swapRuns = s.swapRuns := rfl
@[simp] theorem State.rset_throttles (s : State) (a : Nat) (v : Word) : (s.rset a v).throttles = s.throttles := rfl
@[simp] theorem State.rset_throttleIrq (s : State) (a : Nat) (v : Word) : (s.rset a v).throttleIrq = s.throttleIrq := rfl
@[simp] theorem State.rset_tmb (s : State) (a : Nat) (v : Word) : (s.rset a v).tmb = s.tmb := rfl
@[simp] theorem State.rset_ing (s : State) (a : Nat) (v : Word) : (s.rset a v).ing = s.ing := rfl
@[simp] theorem State.rset_cin (s : State) (a : Nat) (v : Word) : (s.rset a v).cin = s.cin := rfl
@[simp] theorem State.rset_shz (s : State) (a : Nat) (v : Word) : (s.rset a v).shz = s.shz := rfl
@[simp] theorem State.rset_stp (s : State) (a : Nat) (v : Word) : (s.rset a v).stp = s.stp := rfl
@[simp] theorem State.rset_mio (s : State) (a : Nat) (v : Word) : (s.rset a v).mio = s.mio := rfl
@[simp] theorem State.rset_ssu (s : State) (a : Nat) (v : Word) : (s.rset a v).ssu = s.ssu := rfl
@[simp] theorem State.rset_qdr (s : State) (a : Nat) (v : Word) : (s.rset a v).qdr = s.qdr := rfl
@[simp] theorem State.rset_ten (s : State) (a : Nat) (v : Word) : (s.rset a v).ten = s.ten := rfl
@[simp] theorem State.rset_tlg (s : State) (a : Nat) (v : Word) : (s.rset a v).tlg = s.tlg := rfl
@[simp] theorem State.rset_pcie (s : State) (a : Nat) (v : Word) : (s.rset a v).pcie = s.pcie := rfl
@[simp] theorem State.rset_field (s : State) (a : Nat) (v : Word) : (s.rset a v).field = s.field := rfl
@[simp] theorem State.rset_stw (s : State) (a : Nat) (v : Word) : (s.rset a v).stw = s.stw := rfl
@[simp] theorem State.rset_fuses (s : State) (a : Nat) (v : Word) : (s.rset a v).fuses = s.fuses := rfl
@[simp] theorem State.rset_flash (s : State) (a : Nat) (v : Word) : (s.rset a v).flash = s.flash := rfl
@[simp] theorem State.rset_pwr (s : State) (a : Nat) (v : Word) : (s.rset a v).pwr = s.pwr := rfl

/-! ### respond -/

@[simp] theorem State.respond_pending (s : State) (r : Resp) : (s.respond r).pending = s.pending := rfl
@[simp] theorem State.respond_freeCtr (s : State) (r : Resp) : (s.respond r).freeCtr = s.freeCtr := rfl
@[simp] theorem State.respond_resp (s : State) (r : Resp) : (s.respond r).resp = r := rfl
@[simp] theorem State.respond_regs (s : State) (r : Resp) : (s.respond r).regs = s.regs := rfl
@[simp] theorem State.respond_mem (s : State) (r : Resp) : (s.respond r).mem = s.mem := rfl
@[simp] theorem State.respond_lost (s : State) (r : Resp) : (s.respond r).lost = s.lost := rfl
@[simp] theorem State.respond_bad (s : State) (r : Resp) : (s.respond r).bad = s.bad := rfl
@[simp] theorem State.respond_touched (s : State) (r : Resp) : (s.respond r).touched = s.touched := rfl
@[simp] theorem State.respond_committed (s : State) (r : Resp) : (s.respond r).committed = s.committed := rfl
@[simp] theorem State.respond_upsets (s : State) (r : Resp) : (s.respond r).upsets = s.upsets := rfl
@[simp] theorem State.respond_order (s : State) (r : Resp) : (s.respond r).order = s.order := rfl
@[simp] theorem State.respond_landed (s : State) (r : Resp) : (s.respond r).landed = s.landed := rfl
@[simp] theorem State.respond_reservations (s : State) (r : Resp) : (s.respond r).reservations = s.reservations := rfl
@[simp] theorem State.respond_buffers (s : State) (r : Resp) : (s.respond r).buffers = s.buffers := rfl
@[simp] theorem State.respond_cache (s : State) (r : Resp) : (s.respond r).cache = s.cache := rfl
@[simp] theorem State.respond_busErrors (s : State) (r : Resp) : (s.respond r).busErrors = s.busErrors := rfl
@[simp] theorem State.respond_txns (s : State) (r : Resp) : (s.respond r).txns = s.txns := rfl
@[simp] theorem State.respond_armCount (s : State) (r : Resp) : (s.respond r).armCount = s.armCount := rfl
@[simp] theorem State.respond_memPending (s : State) (r : Resp) : (s.respond r).memPending = s.memPending := rfl
@[simp] theorem State.respond_snaps (s : State) (r : Resp) : (s.respond r).snaps = s.snaps := rfl
@[simp] theorem State.respond_tlb (s : State) (r : Resp) : (s.respond r).tlb = s.tlb := rfl
@[simp] theorem State.respond_dirs (s : State) (r : Resp) : (s.respond r).dirs = s.dirs := rfl
@[simp] theorem State.respond_devCtxs (s : State) (r : Resp) : (s.respond r).devCtxs = s.devCtxs := rfl
@[simp] theorem State.respond_procCtxs (s : State) (r : Resp) : (s.respond r).procCtxs = s.procCtxs := rfl
@[simp] theorem State.respond_iomHeld (s : State) (r : Resp) : (s.respond r).iomHeld = s.iomHeld := rfl
@[simp] theorem State.respond_swapRuns (s : State) (r : Resp) : (s.respond r).swapRuns = s.swapRuns := rfl
@[simp] theorem State.respond_throttles (s : State) (r : Resp) : (s.respond r).throttles = s.throttles := rfl
@[simp] theorem State.respond_throttleIrq (s : State) (r : Resp) : (s.respond r).throttleIrq = s.throttleIrq := rfl
@[simp] theorem State.respond_tmb (s : State) (r : Resp) : (s.respond r).tmb = s.tmb := rfl
@[simp] theorem State.respond_ing (s : State) (r : Resp) : (s.respond r).ing = s.ing := rfl
@[simp] theorem State.respond_cin (s : State) (r : Resp) : (s.respond r).cin = s.cin := rfl
@[simp] theorem State.respond_shz (s : State) (r : Resp) : (s.respond r).shz = s.shz := rfl
@[simp] theorem State.respond_stp (s : State) (r : Resp) : (s.respond r).stp = s.stp := rfl
@[simp] theorem State.respond_mio (s : State) (r : Resp) : (s.respond r).mio = s.mio := rfl
@[simp] theorem State.respond_ssu (s : State) (r : Resp) : (s.respond r).ssu = s.ssu := rfl
@[simp] theorem State.respond_qdr (s : State) (r : Resp) : (s.respond r).qdr = s.qdr := rfl
@[simp] theorem State.respond_ten (s : State) (r : Resp) : (s.respond r).ten = s.ten := rfl
@[simp] theorem State.respond_tlg (s : State) (r : Resp) : (s.respond r).tlg = s.tlg := rfl
@[simp] theorem State.respond_pcie (s : State) (r : Resp) : (s.respond r).pcie = s.pcie := rfl
@[simp] theorem State.respond_field (s : State) (r : Resp) : (s.respond r).field = s.field := rfl
@[simp] theorem State.respond_stw (s : State) (r : Resp) : (s.respond r).stw = s.stw := rfl
@[simp] theorem State.respond_fuses (s : State) (r : Resp) : (s.respond r).fuses = s.fuses := rfl
@[simp] theorem State.respond_flash (s : State) (r : Resp) : (s.respond r).flash = s.flash := rfl
@[simp] theorem State.respond_pwr (s : State) (r : Resp) : (s.respond r).pwr = s.pwr := rfl

/-! ### fset -/

@[simp] theorem State.fset_pending (s : State) (a hi lo v : Nat) : (s.fset a hi lo v).pending = s.pending := rfl
@[simp] theorem State.fset_freeCtr (s : State) (a hi lo v : Nat) : (s.fset a hi lo v).freeCtr = s.freeCtr := rfl
@[simp] theorem State.fset_resp (s : State) (a hi lo v : Nat) : (s.fset a hi lo v).resp = s.resp := rfl
@[simp] theorem State.fset_mem (s : State) (a hi lo v : Nat) : (s.fset a hi lo v).mem = s.mem := rfl
@[simp] theorem State.fset_lost (s : State) (a hi lo v : Nat) : (s.fset a hi lo v).lost = s.lost := rfl
@[simp] theorem State.fset_bad (s : State) (a hi lo v : Nat) : (s.fset a hi lo v).bad = s.bad := rfl
@[simp] theorem State.fset_touched (s : State) (a hi lo v : Nat) : (s.fset a hi lo v).touched = s.touched := rfl
@[simp] theorem State.fset_committed (s : State) (a hi lo v : Nat) : (s.fset a hi lo v).committed = s.committed := rfl
@[simp] theorem State.fset_upsets (s : State) (a hi lo v : Nat) : (s.fset a hi lo v).upsets = s.upsets := rfl
@[simp] theorem State.fset_order (s : State) (a hi lo v : Nat) : (s.fset a hi lo v).order = s.order := rfl
@[simp] theorem State.fset_landed (s : State) (a hi lo v : Nat) : (s.fset a hi lo v).landed = s.landed := rfl
@[simp] theorem State.fset_reservations (s : State) (a hi lo v : Nat) : (s.fset a hi lo v).reservations = s.reservations := rfl
@[simp] theorem State.fset_buffers (s : State) (a hi lo v : Nat) : (s.fset a hi lo v).buffers = s.buffers := rfl
@[simp] theorem State.fset_cache (s : State) (a hi lo v : Nat) : (s.fset a hi lo v).cache = s.cache := rfl
@[simp] theorem State.fset_busErrors (s : State) (a hi lo v : Nat) : (s.fset a hi lo v).busErrors = s.busErrors := rfl
@[simp] theorem State.fset_txns (s : State) (a hi lo v : Nat) : (s.fset a hi lo v).txns = s.txns := rfl
@[simp] theorem State.fset_armCount (s : State) (a hi lo v : Nat) : (s.fset a hi lo v).armCount = s.armCount := rfl
@[simp] theorem State.fset_memPending (s : State) (a hi lo v : Nat) : (s.fset a hi lo v).memPending = s.memPending := rfl
@[simp] theorem State.fset_snaps (s : State) (a hi lo v : Nat) : (s.fset a hi lo v).snaps = s.snaps := rfl
@[simp] theorem State.fset_tlb (s : State) (a hi lo v : Nat) : (s.fset a hi lo v).tlb = s.tlb := rfl
@[simp] theorem State.fset_dirs (s : State) (a hi lo v : Nat) : (s.fset a hi lo v).dirs = s.dirs := rfl
@[simp] theorem State.fset_devCtxs (s : State) (a hi lo v : Nat) : (s.fset a hi lo v).devCtxs = s.devCtxs := rfl
@[simp] theorem State.fset_procCtxs (s : State) (a hi lo v : Nat) : (s.fset a hi lo v).procCtxs = s.procCtxs := rfl
@[simp] theorem State.fset_iomHeld (s : State) (a hi lo v : Nat) : (s.fset a hi lo v).iomHeld = s.iomHeld := rfl
@[simp] theorem State.fset_swapRuns (s : State) (a hi lo v : Nat) : (s.fset a hi lo v).swapRuns = s.swapRuns := rfl
@[simp] theorem State.fset_throttles (s : State) (a hi lo v : Nat) : (s.fset a hi lo v).throttles = s.throttles := rfl
@[simp] theorem State.fset_throttleIrq (s : State) (a hi lo v : Nat) : (s.fset a hi lo v).throttleIrq = s.throttleIrq := rfl
@[simp] theorem State.fset_tmb (s : State) (a hi lo v : Nat) : (s.fset a hi lo v).tmb = s.tmb := rfl
@[simp] theorem State.fset_ing (s : State) (a hi lo v : Nat) : (s.fset a hi lo v).ing = s.ing := rfl
@[simp] theorem State.fset_cin (s : State) (a hi lo v : Nat) : (s.fset a hi lo v).cin = s.cin := rfl
@[simp] theorem State.fset_shz (s : State) (a hi lo v : Nat) : (s.fset a hi lo v).shz = s.shz := rfl
@[simp] theorem State.fset_stp (s : State) (a hi lo v : Nat) : (s.fset a hi lo v).stp = s.stp := rfl
@[simp] theorem State.fset_mio (s : State) (a hi lo v : Nat) : (s.fset a hi lo v).mio = s.mio := rfl
@[simp] theorem State.fset_ssu (s : State) (a hi lo v : Nat) : (s.fset a hi lo v).ssu = s.ssu := rfl
@[simp] theorem State.fset_qdr (s : State) (a hi lo v : Nat) : (s.fset a hi lo v).qdr = s.qdr := rfl
@[simp] theorem State.fset_ten (s : State) (a hi lo v : Nat) : (s.fset a hi lo v).ten = s.ten := rfl
@[simp] theorem State.fset_tlg (s : State) (a hi lo v : Nat) : (s.fset a hi lo v).tlg = s.tlg := rfl
@[simp] theorem State.fset_pcie (s : State) (a hi lo v : Nat) : (s.fset a hi lo v).pcie = s.pcie := rfl
@[simp] theorem State.fset_field (s : State) (a hi lo v : Nat) : (s.fset a hi lo v).field = s.field := rfl
@[simp] theorem State.fset_stw (s : State) (a hi lo v : Nat) : (s.fset a hi lo v).stw = s.stw := rfl
@[simp] theorem State.fset_fuses (s : State) (a hi lo v : Nat) : (s.fset a hi lo v).fuses = s.fuses := rfl
@[simp] theorem State.fset_flash (s : State) (a hi lo v : Nat) : (s.fset a hi lo v).flash = s.flash := rfl
@[simp] theorem State.fset_pwr (s : State) (a hi lo v : Nat) : (s.fset a hi lo v).pwr = s.pwr := rfl

/-! ### bput -/

@[simp] theorem State.bput_pending (s : State) (a i : Nat) (b : Bool) : (s.bput a i b).pending = s.pending := rfl
@[simp] theorem State.bput_freeCtr (s : State) (a i : Nat) (b : Bool) : (s.bput a i b).freeCtr = s.freeCtr := rfl
@[simp] theorem State.bput_resp (s : State) (a i : Nat) (b : Bool) : (s.bput a i b).resp = s.resp := rfl
@[simp] theorem State.bput_mem (s : State) (a i : Nat) (b : Bool) : (s.bput a i b).mem = s.mem := rfl
@[simp] theorem State.bput_lost (s : State) (a i : Nat) (b : Bool) : (s.bput a i b).lost = s.lost := rfl
@[simp] theorem State.bput_bad (s : State) (a i : Nat) (b : Bool) : (s.bput a i b).bad = s.bad := rfl
@[simp] theorem State.bput_touched (s : State) (a i : Nat) (b : Bool) : (s.bput a i b).touched = s.touched := rfl
@[simp] theorem State.bput_committed (s : State) (a i : Nat) (b : Bool) : (s.bput a i b).committed = s.committed := rfl
@[simp] theorem State.bput_upsets (s : State) (a i : Nat) (b : Bool) : (s.bput a i b).upsets = s.upsets := rfl
@[simp] theorem State.bput_order (s : State) (a i : Nat) (b : Bool) : (s.bput a i b).order = s.order := rfl
@[simp] theorem State.bput_landed (s : State) (a i : Nat) (b : Bool) : (s.bput a i b).landed = s.landed := rfl
@[simp] theorem State.bput_reservations (s : State) (a i : Nat) (b : Bool) : (s.bput a i b).reservations = s.reservations := rfl
@[simp] theorem State.bput_buffers (s : State) (a i : Nat) (b : Bool) : (s.bput a i b).buffers = s.buffers := rfl
@[simp] theorem State.bput_cache (s : State) (a i : Nat) (b : Bool) : (s.bput a i b).cache = s.cache := rfl
@[simp] theorem State.bput_busErrors (s : State) (a i : Nat) (b : Bool) : (s.bput a i b).busErrors = s.busErrors := rfl
@[simp] theorem State.bput_txns (s : State) (a i : Nat) (b : Bool) : (s.bput a i b).txns = s.txns := rfl
@[simp] theorem State.bput_armCount (s : State) (a i : Nat) (b : Bool) : (s.bput a i b).armCount = s.armCount := rfl
@[simp] theorem State.bput_memPending (s : State) (a i : Nat) (b : Bool) : (s.bput a i b).memPending = s.memPending := rfl
@[simp] theorem State.bput_snaps (s : State) (a i : Nat) (b : Bool) : (s.bput a i b).snaps = s.snaps := rfl
@[simp] theorem State.bput_tlb (s : State) (a i : Nat) (b : Bool) : (s.bput a i b).tlb = s.tlb := rfl
@[simp] theorem State.bput_dirs (s : State) (a i : Nat) (b : Bool) : (s.bput a i b).dirs = s.dirs := rfl
@[simp] theorem State.bput_devCtxs (s : State) (a i : Nat) (b : Bool) : (s.bput a i b).devCtxs = s.devCtxs := rfl
@[simp] theorem State.bput_procCtxs (s : State) (a i : Nat) (b : Bool) : (s.bput a i b).procCtxs = s.procCtxs := rfl
@[simp] theorem State.bput_iomHeld (s : State) (a i : Nat) (b : Bool) : (s.bput a i b).iomHeld = s.iomHeld := rfl
@[simp] theorem State.bput_swapRuns (s : State) (a i : Nat) (b : Bool) : (s.bput a i b).swapRuns = s.swapRuns := rfl
@[simp] theorem State.bput_throttles (s : State) (a i : Nat) (b : Bool) : (s.bput a i b).throttles = s.throttles := rfl
@[simp] theorem State.bput_throttleIrq (s : State) (a i : Nat) (b : Bool) : (s.bput a i b).throttleIrq = s.throttleIrq := rfl
@[simp] theorem State.bput_tmb (s : State) (a i : Nat) (b : Bool) : (s.bput a i b).tmb = s.tmb := rfl
@[simp] theorem State.bput_ing (s : State) (a i : Nat) (b : Bool) : (s.bput a i b).ing = s.ing := rfl
@[simp] theorem State.bput_cin (s : State) (a i : Nat) (b : Bool) : (s.bput a i b).cin = s.cin := rfl
@[simp] theorem State.bput_shz (s : State) (a i : Nat) (b : Bool) : (s.bput a i b).shz = s.shz := rfl
@[simp] theorem State.bput_stp (s : State) (a i : Nat) (b : Bool) : (s.bput a i b).stp = s.stp := rfl
@[simp] theorem State.bput_mio (s : State) (a i : Nat) (b : Bool) : (s.bput a i b).mio = s.mio := rfl
@[simp] theorem State.bput_ssu (s : State) (a i : Nat) (b : Bool) : (s.bput a i b).ssu = s.ssu := rfl
@[simp] theorem State.bput_qdr (s : State) (a i : Nat) (b : Bool) : (s.bput a i b).qdr = s.qdr := rfl
@[simp] theorem State.bput_ten (s : State) (a i : Nat) (b : Bool) : (s.bput a i b).ten = s.ten := rfl
@[simp] theorem State.bput_tlg (s : State) (a i : Nat) (b : Bool) : (s.bput a i b).tlg = s.tlg := rfl
@[simp] theorem State.bput_pcie (s : State) (a i : Nat) (b : Bool) : (s.bput a i b).pcie = s.pcie := rfl
@[simp] theorem State.bput_field (s : State) (a i : Nat) (b : Bool) : (s.bput a i b).field = s.field := rfl
@[simp] theorem State.bput_stw (s : State) (a i : Nat) (b : Bool) : (s.bput a i b).stw = s.stw := rfl
@[simp] theorem State.bput_fuses (s : State) (a i : Nat) (b : Bool) : (s.bput a i b).fuses = s.fuses := rfl
@[simp] theorem State.bput_flash (s : State) (a i : Nat) (b : Bool) : (s.bput a i b).flash = s.flash := rfl
@[simp] theorem State.bput_pwr (s : State) (a i : Nat) (b : Bool) : (s.bput a i b).pwr = s.pwr := rfl

/-! ### flag -/

@[simp] theorem State.flag_pending (s : State) (a i : Nat) : (s.flag a i).pending = s.pending := rfl
@[simp] theorem State.flag_freeCtr (s : State) (a i : Nat) : (s.flag a i).freeCtr = s.freeCtr := rfl
@[simp] theorem State.flag_resp (s : State) (a i : Nat) : (s.flag a i).resp = s.resp := rfl
@[simp] theorem State.flag_mem (s : State) (a i : Nat) : (s.flag a i).mem = s.mem := rfl
@[simp] theorem State.flag_lost (s : State) (a i : Nat) : (s.flag a i).lost = s.lost := rfl
@[simp] theorem State.flag_bad (s : State) (a i : Nat) : (s.flag a i).bad = s.bad := rfl
@[simp] theorem State.flag_touched (s : State) (a i : Nat) : (s.flag a i).touched = s.touched := rfl
@[simp] theorem State.flag_committed (s : State) (a i : Nat) : (s.flag a i).committed = s.committed := rfl
@[simp] theorem State.flag_upsets (s : State) (a i : Nat) : (s.flag a i).upsets = s.upsets := rfl
@[simp] theorem State.flag_order (s : State) (a i : Nat) : (s.flag a i).order = s.order := rfl
@[simp] theorem State.flag_landed (s : State) (a i : Nat) : (s.flag a i).landed = s.landed := rfl
@[simp] theorem State.flag_reservations (s : State) (a i : Nat) : (s.flag a i).reservations = s.reservations := rfl
@[simp] theorem State.flag_buffers (s : State) (a i : Nat) : (s.flag a i).buffers = s.buffers := rfl
@[simp] theorem State.flag_cache (s : State) (a i : Nat) : (s.flag a i).cache = s.cache := rfl
@[simp] theorem State.flag_busErrors (s : State) (a i : Nat) : (s.flag a i).busErrors = s.busErrors := rfl
@[simp] theorem State.flag_txns (s : State) (a i : Nat) : (s.flag a i).txns = s.txns := rfl
@[simp] theorem State.flag_armCount (s : State) (a i : Nat) : (s.flag a i).armCount = s.armCount := rfl
@[simp] theorem State.flag_memPending (s : State) (a i : Nat) : (s.flag a i).memPending = s.memPending := rfl
@[simp] theorem State.flag_snaps (s : State) (a i : Nat) : (s.flag a i).snaps = s.snaps := rfl
@[simp] theorem State.flag_tlb (s : State) (a i : Nat) : (s.flag a i).tlb = s.tlb := rfl
@[simp] theorem State.flag_dirs (s : State) (a i : Nat) : (s.flag a i).dirs = s.dirs := rfl
@[simp] theorem State.flag_devCtxs (s : State) (a i : Nat) : (s.flag a i).devCtxs = s.devCtxs := rfl
@[simp] theorem State.flag_procCtxs (s : State) (a i : Nat) : (s.flag a i).procCtxs = s.procCtxs := rfl
@[simp] theorem State.flag_iomHeld (s : State) (a i : Nat) : (s.flag a i).iomHeld = s.iomHeld := rfl
@[simp] theorem State.flag_swapRuns (s : State) (a i : Nat) : (s.flag a i).swapRuns = s.swapRuns := rfl
@[simp] theorem State.flag_throttles (s : State) (a i : Nat) : (s.flag a i).throttles = s.throttles := rfl
@[simp] theorem State.flag_throttleIrq (s : State) (a i : Nat) : (s.flag a i).throttleIrq = s.throttleIrq := rfl
@[simp] theorem State.flag_tmb (s : State) (a i : Nat) : (s.flag a i).tmb = s.tmb := rfl
@[simp] theorem State.flag_ing (s : State) (a i : Nat) : (s.flag a i).ing = s.ing := rfl
@[simp] theorem State.flag_cin (s : State) (a i : Nat) : (s.flag a i).cin = s.cin := rfl
@[simp] theorem State.flag_shz (s : State) (a i : Nat) : (s.flag a i).shz = s.shz := rfl
@[simp] theorem State.flag_stp (s : State) (a i : Nat) : (s.flag a i).stp = s.stp := rfl
@[simp] theorem State.flag_mio (s : State) (a i : Nat) : (s.flag a i).mio = s.mio := rfl
@[simp] theorem State.flag_ssu (s : State) (a i : Nat) : (s.flag a i).ssu = s.ssu := rfl
@[simp] theorem State.flag_qdr (s : State) (a i : Nat) : (s.flag a i).qdr = s.qdr := rfl
@[simp] theorem State.flag_ten (s : State) (a i : Nat) : (s.flag a i).ten = s.ten := rfl
@[simp] theorem State.flag_tlg (s : State) (a i : Nat) : (s.flag a i).tlg = s.tlg := rfl
@[simp] theorem State.flag_pcie (s : State) (a i : Nat) : (s.flag a i).pcie = s.pcie := rfl
@[simp] theorem State.flag_field (s : State) (a i : Nat) : (s.flag a i).field = s.field := rfl
@[simp] theorem State.flag_stw (s : State) (a i : Nat) : (s.flag a i).stw = s.stw := rfl
@[simp] theorem State.flag_fuses (s : State) (a i : Nat) : (s.flag a i).fuses = s.fuses := rfl
@[simp] theorem State.flag_flash (s : State) (a i : Nat) : (s.flag a i).flash = s.flash := rfl
@[simp] theorem State.flag_pwr (s : State) (a i : Nat) : (s.flag a i).pwr = s.pwr := rfl

/-! ### set64 -/

@[simp] theorem State.set64_pending (s : State) (a v : Nat) : (s.set64 a v).pending = s.pending := rfl
@[simp] theorem State.set64_freeCtr (s : State) (a v : Nat) : (s.set64 a v).freeCtr = s.freeCtr := rfl
@[simp] theorem State.set64_resp (s : State) (a v : Nat) : (s.set64 a v).resp = s.resp := rfl
@[simp] theorem State.set64_mem (s : State) (a v : Nat) : (s.set64 a v).mem = s.mem := rfl
@[simp] theorem State.set64_lost (s : State) (a v : Nat) : (s.set64 a v).lost = s.lost := rfl
@[simp] theorem State.set64_bad (s : State) (a v : Nat) : (s.set64 a v).bad = s.bad := rfl
@[simp] theorem State.set64_touched (s : State) (a v : Nat) : (s.set64 a v).touched = s.touched := rfl
@[simp] theorem State.set64_committed (s : State) (a v : Nat) : (s.set64 a v).committed = s.committed := rfl
@[simp] theorem State.set64_upsets (s : State) (a v : Nat) : (s.set64 a v).upsets = s.upsets := rfl
@[simp] theorem State.set64_order (s : State) (a v : Nat) : (s.set64 a v).order = s.order := rfl
@[simp] theorem State.set64_landed (s : State) (a v : Nat) : (s.set64 a v).landed = s.landed := rfl
@[simp] theorem State.set64_reservations (s : State) (a v : Nat) : (s.set64 a v).reservations = s.reservations := rfl
@[simp] theorem State.set64_buffers (s : State) (a v : Nat) : (s.set64 a v).buffers = s.buffers := rfl
@[simp] theorem State.set64_cache (s : State) (a v : Nat) : (s.set64 a v).cache = s.cache := rfl
@[simp] theorem State.set64_busErrors (s : State) (a v : Nat) : (s.set64 a v).busErrors = s.busErrors := rfl
@[simp] theorem State.set64_txns (s : State) (a v : Nat) : (s.set64 a v).txns = s.txns := rfl
@[simp] theorem State.set64_armCount (s : State) (a v : Nat) : (s.set64 a v).armCount = s.armCount := rfl
@[simp] theorem State.set64_memPending (s : State) (a v : Nat) : (s.set64 a v).memPending = s.memPending := rfl
@[simp] theorem State.set64_snaps (s : State) (a v : Nat) : (s.set64 a v).snaps = s.snaps := rfl
@[simp] theorem State.set64_tlb (s : State) (a v : Nat) : (s.set64 a v).tlb = s.tlb := rfl
@[simp] theorem State.set64_dirs (s : State) (a v : Nat) : (s.set64 a v).dirs = s.dirs := rfl
@[simp] theorem State.set64_devCtxs (s : State) (a v : Nat) : (s.set64 a v).devCtxs = s.devCtxs := rfl
@[simp] theorem State.set64_procCtxs (s : State) (a v : Nat) : (s.set64 a v).procCtxs = s.procCtxs := rfl
@[simp] theorem State.set64_iomHeld (s : State) (a v : Nat) : (s.set64 a v).iomHeld = s.iomHeld := rfl
@[simp] theorem State.set64_swapRuns (s : State) (a v : Nat) : (s.set64 a v).swapRuns = s.swapRuns := rfl
@[simp] theorem State.set64_throttles (s : State) (a v : Nat) : (s.set64 a v).throttles = s.throttles := rfl
@[simp] theorem State.set64_throttleIrq (s : State) (a v : Nat) : (s.set64 a v).throttleIrq = s.throttleIrq := rfl
@[simp] theorem State.set64_tmb (s : State) (a v : Nat) : (s.set64 a v).tmb = s.tmb := rfl
@[simp] theorem State.set64_ing (s : State) (a v : Nat) : (s.set64 a v).ing = s.ing := rfl
@[simp] theorem State.set64_cin (s : State) (a v : Nat) : (s.set64 a v).cin = s.cin := rfl
@[simp] theorem State.set64_shz (s : State) (a v : Nat) : (s.set64 a v).shz = s.shz := rfl
@[simp] theorem State.set64_stp (s : State) (a v : Nat) : (s.set64 a v).stp = s.stp := rfl
@[simp] theorem State.set64_mio (s : State) (a v : Nat) : (s.set64 a v).mio = s.mio := rfl
@[simp] theorem State.set64_ssu (s : State) (a v : Nat) : (s.set64 a v).ssu = s.ssu := rfl
@[simp] theorem State.set64_qdr (s : State) (a v : Nat) : (s.set64 a v).qdr = s.qdr := rfl
@[simp] theorem State.set64_ten (s : State) (a v : Nat) : (s.set64 a v).ten = s.ten := rfl
@[simp] theorem State.set64_tlg (s : State) (a v : Nat) : (s.set64 a v).tlg = s.tlg := rfl
@[simp] theorem State.set64_pcie (s : State) (a v : Nat) : (s.set64 a v).pcie = s.pcie := rfl
@[simp] theorem State.set64_field (s : State) (a v : Nat) : (s.set64 a v).field = s.field := rfl
@[simp] theorem State.set64_stw (s : State) (a v : Nat) : (s.set64 a v).stw = s.stw := rfl
@[simp] theorem State.set64_fuses (s : State) (a v : Nat) : (s.set64 a v).fuses = s.fuses := rfl
@[simp] theorem State.set64_flash (s : State) (a v : Nat) : (s.set64 a v).flash = s.flash := rfl
@[simp] theorem State.set64_pwr (s : State) (a v : Nat) : (s.set64 a v).pwr = s.pwr := rfl

/-! ### putTxn -/

@[simp] theorem State.putTxn_pending (s : State) (n : Nat) (x : Txn) : (s.putTxn n x).pending = s.pending := rfl
@[simp] theorem State.putTxn_freeCtr (s : State) (n : Nat) (x : Txn) : (s.putTxn n x).freeCtr = s.freeCtr := rfl
@[simp] theorem State.putTxn_resp (s : State) (n : Nat) (x : Txn) : (s.putTxn n x).resp = s.resp := rfl
@[simp] theorem State.putTxn_regs (s : State) (n : Nat) (x : Txn) : (s.putTxn n x).regs = s.regs := rfl
@[simp] theorem State.putTxn_mem (s : State) (n : Nat) (x : Txn) : (s.putTxn n x).mem = s.mem := rfl
@[simp] theorem State.putTxn_lost (s : State) (n : Nat) (x : Txn) : (s.putTxn n x).lost = s.lost := rfl
@[simp] theorem State.putTxn_bad (s : State) (n : Nat) (x : Txn) : (s.putTxn n x).bad = s.bad := rfl
@[simp] theorem State.putTxn_touched (s : State) (n : Nat) (x : Txn) : (s.putTxn n x).touched = s.touched := rfl
@[simp] theorem State.putTxn_committed (s : State) (n : Nat) (x : Txn) : (s.putTxn n x).committed = s.committed := rfl
@[simp] theorem State.putTxn_upsets (s : State) (n : Nat) (x : Txn) : (s.putTxn n x).upsets = s.upsets := rfl
@[simp] theorem State.putTxn_order (s : State) (n : Nat) (x : Txn) : (s.putTxn n x).order = s.order := rfl
@[simp] theorem State.putTxn_landed (s : State) (n : Nat) (x : Txn) : (s.putTxn n x).landed = s.landed := rfl
@[simp] theorem State.putTxn_reservations (s : State) (n : Nat) (x : Txn) : (s.putTxn n x).reservations = s.reservations := rfl
@[simp] theorem State.putTxn_buffers (s : State) (n : Nat) (x : Txn) : (s.putTxn n x).buffers = s.buffers := rfl
@[simp] theorem State.putTxn_cache (s : State) (n : Nat) (x : Txn) : (s.putTxn n x).cache = s.cache := rfl
@[simp] theorem State.putTxn_busErrors (s : State) (n : Nat) (x : Txn) : (s.putTxn n x).busErrors = s.busErrors := rfl
@[simp] theorem State.putTxn_txns (s : State) (n : Nat) (x : Txn) : (s.putTxn n x).txns = spSet (fun _ => Txn.idle) s.txns n x := rfl
@[simp] theorem State.putTxn_armCount (s : State) (n : Nat) (x : Txn) : (s.putTxn n x).armCount = s.armCount := rfl
@[simp] theorem State.putTxn_memPending (s : State) (n : Nat) (x : Txn) : (s.putTxn n x).memPending = s.memPending := rfl
@[simp] theorem State.putTxn_snaps (s : State) (n : Nat) (x : Txn) : (s.putTxn n x).snaps = s.snaps := rfl
@[simp] theorem State.putTxn_tlb (s : State) (n : Nat) (x : Txn) : (s.putTxn n x).tlb = s.tlb := rfl
@[simp] theorem State.putTxn_dirs (s : State) (n : Nat) (x : Txn) : (s.putTxn n x).dirs = s.dirs := rfl
@[simp] theorem State.putTxn_devCtxs (s : State) (n : Nat) (x : Txn) : (s.putTxn n x).devCtxs = s.devCtxs := rfl
@[simp] theorem State.putTxn_procCtxs (s : State) (n : Nat) (x : Txn) : (s.putTxn n x).procCtxs = s.procCtxs := rfl
@[simp] theorem State.putTxn_iomHeld (s : State) (n : Nat) (x : Txn) : (s.putTxn n x).iomHeld = s.iomHeld := rfl
@[simp] theorem State.putTxn_swapRuns (s : State) (n : Nat) (x : Txn) : (s.putTxn n x).swapRuns = s.swapRuns := rfl
@[simp] theorem State.putTxn_throttles (s : State) (n : Nat) (x : Txn) : (s.putTxn n x).throttles = s.throttles := rfl
@[simp] theorem State.putTxn_throttleIrq (s : State) (n : Nat) (x : Txn) : (s.putTxn n x).throttleIrq = s.throttleIrq := rfl
@[simp] theorem State.putTxn_tmb (s : State) (n : Nat) (x : Txn) : (s.putTxn n x).tmb = s.tmb := rfl
@[simp] theorem State.putTxn_ing (s : State) (n : Nat) (x : Txn) : (s.putTxn n x).ing = s.ing := rfl
@[simp] theorem State.putTxn_cin (s : State) (n : Nat) (x : Txn) : (s.putTxn n x).cin = s.cin := rfl
@[simp] theorem State.putTxn_shz (s : State) (n : Nat) (x : Txn) : (s.putTxn n x).shz = s.shz := rfl
@[simp] theorem State.putTxn_stp (s : State) (n : Nat) (x : Txn) : (s.putTxn n x).stp = s.stp := rfl
@[simp] theorem State.putTxn_mio (s : State) (n : Nat) (x : Txn) : (s.putTxn n x).mio = s.mio := rfl
@[simp] theorem State.putTxn_ssu (s : State) (n : Nat) (x : Txn) : (s.putTxn n x).ssu = s.ssu := rfl
@[simp] theorem State.putTxn_qdr (s : State) (n : Nat) (x : Txn) : (s.putTxn n x).qdr = s.qdr := rfl
@[simp] theorem State.putTxn_ten (s : State) (n : Nat) (x : Txn) : (s.putTxn n x).ten = s.ten := rfl
@[simp] theorem State.putTxn_tlg (s : State) (n : Nat) (x : Txn) : (s.putTxn n x).tlg = s.tlg := rfl
@[simp] theorem State.putTxn_pcie (s : State) (n : Nat) (x : Txn) : (s.putTxn n x).pcie = s.pcie := rfl
@[simp] theorem State.putTxn_field (s : State) (n : Nat) (x : Txn) : (s.putTxn n x).field = s.field := rfl
@[simp] theorem State.putTxn_stw (s : State) (n : Nat) (x : Txn) : (s.putTxn n x).stw = s.stw := rfl
@[simp] theorem State.putTxn_fuses (s : State) (n : Nat) (x : Txn) : (s.putTxn n x).fuses = s.fuses := rfl
@[simp] theorem State.putTxn_flash (s : State) (n : Nat) (x : Txn) : (s.putTxn n x).flash = s.flash := rfl
@[simp] theorem State.putTxn_pwr (s : State) (n : Nat) (x : Txn) : (s.putTxn n x).pwr = s.pwr := rfl

/-! ### putTrig -/

@[simp] theorem State.putTrig_pending (s : State) (n : Nat) (x : Trig) : (s.putTrig n x).pending = s.pending := rfl
@[simp] theorem State.putTrig_freeCtr (s : State) (n : Nat) (x : Trig) : (s.putTrig n x).freeCtr = s.freeCtr := rfl
@[simp] theorem State.putTrig_resp (s : State) (n : Nat) (x : Trig) : (s.putTrig n x).resp = s.resp := rfl
@[simp] theorem State.putTrig_regs (s : State) (n : Nat) (x : Trig) : (s.putTrig n x).regs = s.regs := rfl
@[simp] theorem State.putTrig_mem (s : State) (n : Nat) (x : Trig) : (s.putTrig n x).mem = s.mem := rfl
@[simp] theorem State.putTrig_lost (s : State) (n : Nat) (x : Trig) : (s.putTrig n x).lost = s.lost := rfl
@[simp] theorem State.putTrig_bad (s : State) (n : Nat) (x : Trig) : (s.putTrig n x).bad = s.bad := rfl
@[simp] theorem State.putTrig_touched (s : State) (n : Nat) (x : Trig) : (s.putTrig n x).touched = s.touched := rfl
@[simp] theorem State.putTrig_committed (s : State) (n : Nat) (x : Trig) : (s.putTrig n x).committed = s.committed := rfl
@[simp] theorem State.putTrig_upsets (s : State) (n : Nat) (x : Trig) : (s.putTrig n x).upsets = s.upsets := rfl
@[simp] theorem State.putTrig_order (s : State) (n : Nat) (x : Trig) : (s.putTrig n x).order = s.order := rfl
@[simp] theorem State.putTrig_landed (s : State) (n : Nat) (x : Trig) : (s.putTrig n x).landed = s.landed := rfl
@[simp] theorem State.putTrig_reservations (s : State) (n : Nat) (x : Trig) : (s.putTrig n x).reservations = s.reservations := rfl
@[simp] theorem State.putTrig_buffers (s : State) (n : Nat) (x : Trig) : (s.putTrig n x).buffers = s.buffers := rfl
@[simp] theorem State.putTrig_cache (s : State) (n : Nat) (x : Trig) : (s.putTrig n x).cache = s.cache := rfl
@[simp] theorem State.putTrig_busErrors (s : State) (n : Nat) (x : Trig) : (s.putTrig n x).busErrors = s.busErrors := rfl
@[simp] theorem State.putTrig_txns (s : State) (n : Nat) (x : Trig) : (s.putTrig n x).txns = s.txns := rfl
@[simp] theorem State.putTrig_armCount (s : State) (n : Nat) (x : Trig) : (s.putTrig n x).armCount = s.armCount := rfl
@[simp] theorem State.putTrig_memPending (s : State) (n : Nat) (x : Trig) : (s.putTrig n x).memPending = s.memPending := rfl
@[simp] theorem State.putTrig_snaps (s : State) (n : Nat) (x : Trig) : (s.putTrig n x).snaps = s.snaps := rfl
@[simp] theorem State.putTrig_tlb (s : State) (n : Nat) (x : Trig) : (s.putTrig n x).tlb = s.tlb := rfl
@[simp] theorem State.putTrig_dirs (s : State) (n : Nat) (x : Trig) : (s.putTrig n x).dirs = s.dirs := rfl
@[simp] theorem State.putTrig_devCtxs (s : State) (n : Nat) (x : Trig) : (s.putTrig n x).devCtxs = s.devCtxs := rfl
@[simp] theorem State.putTrig_procCtxs (s : State) (n : Nat) (x : Trig) : (s.putTrig n x).procCtxs = s.procCtxs := rfl
@[simp] theorem State.putTrig_iomHeld (s : State) (n : Nat) (x : Trig) : (s.putTrig n x).iomHeld = s.iomHeld := rfl
@[simp] theorem State.putTrig_swapRuns (s : State) (n : Nat) (x : Trig) : (s.putTrig n x).swapRuns = s.swapRuns := rfl
@[simp] theorem State.putTrig_throttles (s : State) (n : Nat) (x : Trig) : (s.putTrig n x).throttles = s.throttles := rfl
@[simp] theorem State.putTrig_throttleIrq (s : State) (n : Nat) (x : Trig) : (s.putTrig n x).throttleIrq = s.throttleIrq := rfl
@[simp] theorem State.putTrig_ing (s : State) (n : Nat) (x : Trig) : (s.putTrig n x).ing = s.ing := rfl
@[simp] theorem State.putTrig_cin (s : State) (n : Nat) (x : Trig) : (s.putTrig n x).cin = s.cin := rfl
@[simp] theorem State.putTrig_shz (s : State) (n : Nat) (x : Trig) : (s.putTrig n x).shz = s.shz := rfl
@[simp] theorem State.putTrig_stp (s : State) (n : Nat) (x : Trig) : (s.putTrig n x).stp = s.stp := rfl
@[simp] theorem State.putTrig_mio (s : State) (n : Nat) (x : Trig) : (s.putTrig n x).mio = s.mio := rfl
@[simp] theorem State.putTrig_ssu (s : State) (n : Nat) (x : Trig) : (s.putTrig n x).ssu = s.ssu := rfl
@[simp] theorem State.putTrig_qdr (s : State) (n : Nat) (x : Trig) : (s.putTrig n x).qdr = s.qdr := rfl
@[simp] theorem State.putTrig_ten (s : State) (n : Nat) (x : Trig) : (s.putTrig n x).ten = s.ten := rfl
@[simp] theorem State.putTrig_tlg (s : State) (n : Nat) (x : Trig) : (s.putTrig n x).tlg = s.tlg := rfl
@[simp] theorem State.putTrig_pcie (s : State) (n : Nat) (x : Trig) : (s.putTrig n x).pcie = s.pcie := rfl
@[simp] theorem State.putTrig_field (s : State) (n : Nat) (x : Trig) : (s.putTrig n x).field = s.field := rfl
@[simp] theorem State.putTrig_stw (s : State) (n : Nat) (x : Trig) : (s.putTrig n x).stw = s.stw := rfl
@[simp] theorem State.putTrig_fuses (s : State) (n : Nat) (x : Trig) : (s.putTrig n x).fuses = s.fuses := rfl
@[simp] theorem State.putTrig_flash (s : State) (n : Nat) (x : Trig) : (s.putTrig n x).flash = s.flash := rfl
@[simp] theorem State.putTrig_pwr (s : State) (n : Nat) (x : Trig) : (s.putTrig n x).pwr = s.pwr := rfl

/-! ### putCapture -/

@[simp] theorem State.putCapture_pending (s : State) (n : Nat) (x : Capture) : (s.putCapture n x).pending = s.pending := rfl
@[simp] theorem State.putCapture_freeCtr (s : State) (n : Nat) (x : Capture) : (s.putCapture n x).freeCtr = s.freeCtr := rfl
@[simp] theorem State.putCapture_resp (s : State) (n : Nat) (x : Capture) : (s.putCapture n x).resp = s.resp := rfl
@[simp] theorem State.putCapture_regs (s : State) (n : Nat) (x : Capture) : (s.putCapture n x).regs = s.regs := rfl
@[simp] theorem State.putCapture_mem (s : State) (n : Nat) (x : Capture) : (s.putCapture n x).mem = s.mem := rfl
@[simp] theorem State.putCapture_lost (s : State) (n : Nat) (x : Capture) : (s.putCapture n x).lost = s.lost := rfl
@[simp] theorem State.putCapture_bad (s : State) (n : Nat) (x : Capture) : (s.putCapture n x).bad = s.bad := rfl
@[simp] theorem State.putCapture_touched (s : State) (n : Nat) (x : Capture) : (s.putCapture n x).touched = s.touched := rfl
@[simp] theorem State.putCapture_committed (s : State) (n : Nat) (x : Capture) : (s.putCapture n x).committed = s.committed := rfl
@[simp] theorem State.putCapture_upsets (s : State) (n : Nat) (x : Capture) : (s.putCapture n x).upsets = s.upsets := rfl
@[simp] theorem State.putCapture_order (s : State) (n : Nat) (x : Capture) : (s.putCapture n x).order = s.order := rfl
@[simp] theorem State.putCapture_landed (s : State) (n : Nat) (x : Capture) : (s.putCapture n x).landed = s.landed := rfl
@[simp] theorem State.putCapture_reservations (s : State) (n : Nat) (x : Capture) : (s.putCapture n x).reservations = s.reservations := rfl
@[simp] theorem State.putCapture_buffers (s : State) (n : Nat) (x : Capture) : (s.putCapture n x).buffers = s.buffers := rfl
@[simp] theorem State.putCapture_cache (s : State) (n : Nat) (x : Capture) : (s.putCapture n x).cache = s.cache := rfl
@[simp] theorem State.putCapture_busErrors (s : State) (n : Nat) (x : Capture) : (s.putCapture n x).busErrors = s.busErrors := rfl
@[simp] theorem State.putCapture_txns (s : State) (n : Nat) (x : Capture) : (s.putCapture n x).txns = s.txns := rfl
@[simp] theorem State.putCapture_armCount (s : State) (n : Nat) (x : Capture) : (s.putCapture n x).armCount = s.armCount := rfl
@[simp] theorem State.putCapture_memPending (s : State) (n : Nat) (x : Capture) : (s.putCapture n x).memPending = s.memPending := rfl
@[simp] theorem State.putCapture_snaps (s : State) (n : Nat) (x : Capture) : (s.putCapture n x).snaps = s.snaps := rfl
@[simp] theorem State.putCapture_tlb (s : State) (n : Nat) (x : Capture) : (s.putCapture n x).tlb = s.tlb := rfl
@[simp] theorem State.putCapture_dirs (s : State) (n : Nat) (x : Capture) : (s.putCapture n x).dirs = s.dirs := rfl
@[simp] theorem State.putCapture_devCtxs (s : State) (n : Nat) (x : Capture) : (s.putCapture n x).devCtxs = s.devCtxs := rfl
@[simp] theorem State.putCapture_procCtxs (s : State) (n : Nat) (x : Capture) : (s.putCapture n x).procCtxs = s.procCtxs := rfl
@[simp] theorem State.putCapture_iomHeld (s : State) (n : Nat) (x : Capture) : (s.putCapture n x).iomHeld = s.iomHeld := rfl
@[simp] theorem State.putCapture_swapRuns (s : State) (n : Nat) (x : Capture) : (s.putCapture n x).swapRuns = s.swapRuns := rfl
@[simp] theorem State.putCapture_throttles (s : State) (n : Nat) (x : Capture) : (s.putCapture n x).throttles = s.throttles := rfl
@[simp] theorem State.putCapture_throttleIrq (s : State) (n : Nat) (x : Capture) : (s.putCapture n x).throttleIrq = s.throttleIrq := rfl
@[simp] theorem State.putCapture_ing (s : State) (n : Nat) (x : Capture) : (s.putCapture n x).ing = s.ing := rfl
@[simp] theorem State.putCapture_cin (s : State) (n : Nat) (x : Capture) : (s.putCapture n x).cin = s.cin := rfl
@[simp] theorem State.putCapture_shz (s : State) (n : Nat) (x : Capture) : (s.putCapture n x).shz = s.shz := rfl
@[simp] theorem State.putCapture_stp (s : State) (n : Nat) (x : Capture) : (s.putCapture n x).stp = s.stp := rfl
@[simp] theorem State.putCapture_mio (s : State) (n : Nat) (x : Capture) : (s.putCapture n x).mio = s.mio := rfl
@[simp] theorem State.putCapture_ssu (s : State) (n : Nat) (x : Capture) : (s.putCapture n x).ssu = s.ssu := rfl
@[simp] theorem State.putCapture_qdr (s : State) (n : Nat) (x : Capture) : (s.putCapture n x).qdr = s.qdr := rfl
@[simp] theorem State.putCapture_ten (s : State) (n : Nat) (x : Capture) : (s.putCapture n x).ten = s.ten := rfl
@[simp] theorem State.putCapture_tlg (s : State) (n : Nat) (x : Capture) : (s.putCapture n x).tlg = s.tlg := rfl
@[simp] theorem State.putCapture_pcie (s : State) (n : Nat) (x : Capture) : (s.putCapture n x).pcie = s.pcie := rfl
@[simp] theorem State.putCapture_field (s : State) (n : Nat) (x : Capture) : (s.putCapture n x).field = s.field := rfl
@[simp] theorem State.putCapture_stw (s : State) (n : Nat) (x : Capture) : (s.putCapture n x).stw = s.stw := rfl
@[simp] theorem State.putCapture_fuses (s : State) (n : Nat) (x : Capture) : (s.putCapture n x).fuses = s.fuses := rfl
@[simp] theorem State.putCapture_flash (s : State) (n : Nat) (x : Capture) : (s.putCapture n x).flash = s.flash := rfl
@[simp] theorem State.putCapture_pwr (s : State) (n : Nat) (x : Capture) : (s.putCapture n x).pwr = s.pwr := rfl

/-! ### putLoop -/

@[simp] theorem State.putLoop_pending (s : State) (n : Nat) (x : LoopRun) : (s.putLoop n x).pending = s.pending := rfl
@[simp] theorem State.putLoop_freeCtr (s : State) (n : Nat) (x : LoopRun) : (s.putLoop n x).freeCtr = s.freeCtr := rfl
@[simp] theorem State.putLoop_resp (s : State) (n : Nat) (x : LoopRun) : (s.putLoop n x).resp = s.resp := rfl
@[simp] theorem State.putLoop_regs (s : State) (n : Nat) (x : LoopRun) : (s.putLoop n x).regs = s.regs := rfl
@[simp] theorem State.putLoop_mem (s : State) (n : Nat) (x : LoopRun) : (s.putLoop n x).mem = s.mem := rfl
@[simp] theorem State.putLoop_lost (s : State) (n : Nat) (x : LoopRun) : (s.putLoop n x).lost = s.lost := rfl
@[simp] theorem State.putLoop_bad (s : State) (n : Nat) (x : LoopRun) : (s.putLoop n x).bad = s.bad := rfl
@[simp] theorem State.putLoop_touched (s : State) (n : Nat) (x : LoopRun) : (s.putLoop n x).touched = s.touched := rfl
@[simp] theorem State.putLoop_committed (s : State) (n : Nat) (x : LoopRun) : (s.putLoop n x).committed = s.committed := rfl
@[simp] theorem State.putLoop_upsets (s : State) (n : Nat) (x : LoopRun) : (s.putLoop n x).upsets = s.upsets := rfl
@[simp] theorem State.putLoop_order (s : State) (n : Nat) (x : LoopRun) : (s.putLoop n x).order = s.order := rfl
@[simp] theorem State.putLoop_landed (s : State) (n : Nat) (x : LoopRun) : (s.putLoop n x).landed = s.landed := rfl
@[simp] theorem State.putLoop_reservations (s : State) (n : Nat) (x : LoopRun) : (s.putLoop n x).reservations = s.reservations := rfl
@[simp] theorem State.putLoop_buffers (s : State) (n : Nat) (x : LoopRun) : (s.putLoop n x).buffers = s.buffers := rfl
@[simp] theorem State.putLoop_cache (s : State) (n : Nat) (x : LoopRun) : (s.putLoop n x).cache = s.cache := rfl
@[simp] theorem State.putLoop_busErrors (s : State) (n : Nat) (x : LoopRun) : (s.putLoop n x).busErrors = s.busErrors := rfl
@[simp] theorem State.putLoop_txns (s : State) (n : Nat) (x : LoopRun) : (s.putLoop n x).txns = s.txns := rfl
@[simp] theorem State.putLoop_armCount (s : State) (n : Nat) (x : LoopRun) : (s.putLoop n x).armCount = s.armCount := rfl
@[simp] theorem State.putLoop_memPending (s : State) (n : Nat) (x : LoopRun) : (s.putLoop n x).memPending = s.memPending := rfl
@[simp] theorem State.putLoop_snaps (s : State) (n : Nat) (x : LoopRun) : (s.putLoop n x).snaps = s.snaps := rfl
@[simp] theorem State.putLoop_tlb (s : State) (n : Nat) (x : LoopRun) : (s.putLoop n x).tlb = s.tlb := rfl
@[simp] theorem State.putLoop_dirs (s : State) (n : Nat) (x : LoopRun) : (s.putLoop n x).dirs = s.dirs := rfl
@[simp] theorem State.putLoop_devCtxs (s : State) (n : Nat) (x : LoopRun) : (s.putLoop n x).devCtxs = s.devCtxs := rfl
@[simp] theorem State.putLoop_procCtxs (s : State) (n : Nat) (x : LoopRun) : (s.putLoop n x).procCtxs = s.procCtxs := rfl
@[simp] theorem State.putLoop_iomHeld (s : State) (n : Nat) (x : LoopRun) : (s.putLoop n x).iomHeld = s.iomHeld := rfl
@[simp] theorem State.putLoop_swapRuns (s : State) (n : Nat) (x : LoopRun) : (s.putLoop n x).swapRuns = s.swapRuns := rfl
@[simp] theorem State.putLoop_throttles (s : State) (n : Nat) (x : LoopRun) : (s.putLoop n x).throttles = s.throttles := rfl
@[simp] theorem State.putLoop_throttleIrq (s : State) (n : Nat) (x : LoopRun) : (s.putLoop n x).throttleIrq = s.throttleIrq := rfl
@[simp] theorem State.putLoop_tmb (s : State) (n : Nat) (x : LoopRun) : (s.putLoop n x).tmb = s.tmb := rfl
@[simp] theorem State.putLoop_ing (s : State) (n : Nat) (x : LoopRun) : (s.putLoop n x).ing = s.ing := rfl
@[simp] theorem State.putLoop_cin (s : State) (n : Nat) (x : LoopRun) : (s.putLoop n x).cin = s.cin := rfl
@[simp] theorem State.putLoop_shz (s : State) (n : Nat) (x : LoopRun) : (s.putLoop n x).shz = s.shz := rfl
@[simp] theorem State.putLoop_mio (s : State) (n : Nat) (x : LoopRun) : (s.putLoop n x).mio = s.mio := rfl
@[simp] theorem State.putLoop_ssu (s : State) (n : Nat) (x : LoopRun) : (s.putLoop n x).ssu = s.ssu := rfl
@[simp] theorem State.putLoop_qdr (s : State) (n : Nat) (x : LoopRun) : (s.putLoop n x).qdr = s.qdr := rfl
@[simp] theorem State.putLoop_ten (s : State) (n : Nat) (x : LoopRun) : (s.putLoop n x).ten = s.ten := rfl
@[simp] theorem State.putLoop_tlg (s : State) (n : Nat) (x : LoopRun) : (s.putLoop n x).tlg = s.tlg := rfl
@[simp] theorem State.putLoop_pcie (s : State) (n : Nat) (x : LoopRun) : (s.putLoop n x).pcie = s.pcie := rfl
@[simp] theorem State.putLoop_field (s : State) (n : Nat) (x : LoopRun) : (s.putLoop n x).field = s.field := rfl
@[simp] theorem State.putLoop_stw (s : State) (n : Nat) (x : LoopRun) : (s.putLoop n x).stw = s.stw := rfl
@[simp] theorem State.putLoop_fuses (s : State) (n : Nat) (x : LoopRun) : (s.putLoop n x).fuses = s.fuses := rfl
@[simp] theorem State.putLoop_flash (s : State) (n : Nat) (x : LoopRun) : (s.putLoop n x).flash = s.flash := rfl
@[simp] theorem State.putLoop_pwr (s : State) (n : Nat) (x : LoopRun) : (s.putLoop n x).pwr = s.pwr := rfl

/-! ### putStream -/

@[simp] theorem State.putStream_pending (s : State) (n : Nat) (x : StreamRun) : (s.putStream n x).pending = s.pending := rfl
@[simp] theorem State.putStream_freeCtr (s : State) (n : Nat) (x : StreamRun) : (s.putStream n x).freeCtr = s.freeCtr := rfl
@[simp] theorem State.putStream_resp (s : State) (n : Nat) (x : StreamRun) : (s.putStream n x).resp = s.resp := rfl
@[simp] theorem State.putStream_regs (s : State) (n : Nat) (x : StreamRun) : (s.putStream n x).regs = s.regs := rfl
@[simp] theorem State.putStream_mem (s : State) (n : Nat) (x : StreamRun) : (s.putStream n x).mem = s.mem := rfl
@[simp] theorem State.putStream_lost (s : State) (n : Nat) (x : StreamRun) : (s.putStream n x).lost = s.lost := rfl
@[simp] theorem State.putStream_bad (s : State) (n : Nat) (x : StreamRun) : (s.putStream n x).bad = s.bad := rfl
@[simp] theorem State.putStream_touched (s : State) (n : Nat) (x : StreamRun) : (s.putStream n x).touched = s.touched := rfl
@[simp] theorem State.putStream_committed (s : State) (n : Nat) (x : StreamRun) : (s.putStream n x).committed = s.committed := rfl
@[simp] theorem State.putStream_upsets (s : State) (n : Nat) (x : StreamRun) : (s.putStream n x).upsets = s.upsets := rfl
@[simp] theorem State.putStream_order (s : State) (n : Nat) (x : StreamRun) : (s.putStream n x).order = s.order := rfl
@[simp] theorem State.putStream_landed (s : State) (n : Nat) (x : StreamRun) : (s.putStream n x).landed = s.landed := rfl
@[simp] theorem State.putStream_reservations (s : State) (n : Nat) (x : StreamRun) : (s.putStream n x).reservations = s.reservations := rfl
@[simp] theorem State.putStream_buffers (s : State) (n : Nat) (x : StreamRun) : (s.putStream n x).buffers = s.buffers := rfl
@[simp] theorem State.putStream_cache (s : State) (n : Nat) (x : StreamRun) : (s.putStream n x).cache = s.cache := rfl
@[simp] theorem State.putStream_busErrors (s : State) (n : Nat) (x : StreamRun) : (s.putStream n x).busErrors = s.busErrors := rfl
@[simp] theorem State.putStream_txns (s : State) (n : Nat) (x : StreamRun) : (s.putStream n x).txns = s.txns := rfl
@[simp] theorem State.putStream_armCount (s : State) (n : Nat) (x : StreamRun) : (s.putStream n x).armCount = s.armCount := rfl
@[simp] theorem State.putStream_memPending (s : State) (n : Nat) (x : StreamRun) : (s.putStream n x).memPending = s.memPending := rfl
@[simp] theorem State.putStream_snaps (s : State) (n : Nat) (x : StreamRun) : (s.putStream n x).snaps = s.snaps := rfl
@[simp] theorem State.putStream_tlb (s : State) (n : Nat) (x : StreamRun) : (s.putStream n x).tlb = s.tlb := rfl
@[simp] theorem State.putStream_dirs (s : State) (n : Nat) (x : StreamRun) : (s.putStream n x).dirs = s.dirs := rfl
@[simp] theorem State.putStream_devCtxs (s : State) (n : Nat) (x : StreamRun) : (s.putStream n x).devCtxs = s.devCtxs := rfl
@[simp] theorem State.putStream_procCtxs (s : State) (n : Nat) (x : StreamRun) : (s.putStream n x).procCtxs = s.procCtxs := rfl
@[simp] theorem State.putStream_iomHeld (s : State) (n : Nat) (x : StreamRun) : (s.putStream n x).iomHeld = s.iomHeld := rfl
@[simp] theorem State.putStream_swapRuns (s : State) (n : Nat) (x : StreamRun) : (s.putStream n x).swapRuns = s.swapRuns := rfl
@[simp] theorem State.putStream_throttles (s : State) (n : Nat) (x : StreamRun) : (s.putStream n x).throttles = s.throttles := rfl
@[simp] theorem State.putStream_throttleIrq (s : State) (n : Nat) (x : StreamRun) : (s.putStream n x).throttleIrq = s.throttleIrq := rfl
@[simp] theorem State.putStream_tmb (s : State) (n : Nat) (x : StreamRun) : (s.putStream n x).tmb = s.tmb := rfl
@[simp] theorem State.putStream_cin (s : State) (n : Nat) (x : StreamRun) : (s.putStream n x).cin = s.cin := rfl
@[simp] theorem State.putStream_shz (s : State) (n : Nat) (x : StreamRun) : (s.putStream n x).shz = s.shz := rfl
@[simp] theorem State.putStream_stp (s : State) (n : Nat) (x : StreamRun) : (s.putStream n x).stp = s.stp := rfl
@[simp] theorem State.putStream_mio (s : State) (n : Nat) (x : StreamRun) : (s.putStream n x).mio = s.mio := rfl
@[simp] theorem State.putStream_ssu (s : State) (n : Nat) (x : StreamRun) : (s.putStream n x).ssu = s.ssu := rfl
@[simp] theorem State.putStream_qdr (s : State) (n : Nat) (x : StreamRun) : (s.putStream n x).qdr = s.qdr := rfl
@[simp] theorem State.putStream_ten (s : State) (n : Nat) (x : StreamRun) : (s.putStream n x).ten = s.ten := rfl
@[simp] theorem State.putStream_tlg (s : State) (n : Nat) (x : StreamRun) : (s.putStream n x).tlg = s.tlg := rfl
@[simp] theorem State.putStream_pcie (s : State) (n : Nat) (x : StreamRun) : (s.putStream n x).pcie = s.pcie := rfl
@[simp] theorem State.putStream_field (s : State) (n : Nat) (x : StreamRun) : (s.putStream n x).field = s.field := rfl
@[simp] theorem State.putStream_stw (s : State) (n : Nat) (x : StreamRun) : (s.putStream n x).stw = s.stw := rfl
@[simp] theorem State.putStream_fuses (s : State) (n : Nat) (x : StreamRun) : (s.putStream n x).fuses = s.fuses := rfl
@[simp] theorem State.putStream_flash (s : State) (n : Nat) (x : StreamRun) : (s.putStream n x).flash = s.flash := rfl
@[simp] theorem State.putStream_pwr (s : State) (n : Nat) (x : StreamRun) : (s.putStream n x).pwr = s.pwr := rfl

/-! ### putShzPort -/

@[simp] theorem State.putShzPort_pending (s : State) (n : Nat) (x : ShzPort) : (s.putShzPort n x).pending = s.pending := rfl
@[simp] theorem State.putShzPort_freeCtr (s : State) (n : Nat) (x : ShzPort) : (s.putShzPort n x).freeCtr = s.freeCtr := rfl
@[simp] theorem State.putShzPort_resp (s : State) (n : Nat) (x : ShzPort) : (s.putShzPort n x).resp = s.resp := rfl
@[simp] theorem State.putShzPort_regs (s : State) (n : Nat) (x : ShzPort) : (s.putShzPort n x).regs = s.regs := rfl
@[simp] theorem State.putShzPort_mem (s : State) (n : Nat) (x : ShzPort) : (s.putShzPort n x).mem = s.mem := rfl
@[simp] theorem State.putShzPort_lost (s : State) (n : Nat) (x : ShzPort) : (s.putShzPort n x).lost = s.lost := rfl
@[simp] theorem State.putShzPort_bad (s : State) (n : Nat) (x : ShzPort) : (s.putShzPort n x).bad = s.bad := rfl
@[simp] theorem State.putShzPort_touched (s : State) (n : Nat) (x : ShzPort) : (s.putShzPort n x).touched = s.touched := rfl
@[simp] theorem State.putShzPort_committed (s : State) (n : Nat) (x : ShzPort) : (s.putShzPort n x).committed = s.committed := rfl
@[simp] theorem State.putShzPort_upsets (s : State) (n : Nat) (x : ShzPort) : (s.putShzPort n x).upsets = s.upsets := rfl
@[simp] theorem State.putShzPort_order (s : State) (n : Nat) (x : ShzPort) : (s.putShzPort n x).order = s.order := rfl
@[simp] theorem State.putShzPort_landed (s : State) (n : Nat) (x : ShzPort) : (s.putShzPort n x).landed = s.landed := rfl
@[simp] theorem State.putShzPort_reservations (s : State) (n : Nat) (x : ShzPort) : (s.putShzPort n x).reservations = s.reservations := rfl
@[simp] theorem State.putShzPort_buffers (s : State) (n : Nat) (x : ShzPort) : (s.putShzPort n x).buffers = s.buffers := rfl
@[simp] theorem State.putShzPort_cache (s : State) (n : Nat) (x : ShzPort) : (s.putShzPort n x).cache = s.cache := rfl
@[simp] theorem State.putShzPort_busErrors (s : State) (n : Nat) (x : ShzPort) : (s.putShzPort n x).busErrors = s.busErrors := rfl
@[simp] theorem State.putShzPort_txns (s : State) (n : Nat) (x : ShzPort) : (s.putShzPort n x).txns = s.txns := rfl
@[simp] theorem State.putShzPort_armCount (s : State) (n : Nat) (x : ShzPort) : (s.putShzPort n x).armCount = s.armCount := rfl
@[simp] theorem State.putShzPort_memPending (s : State) (n : Nat) (x : ShzPort) : (s.putShzPort n x).memPending = s.memPending := rfl
@[simp] theorem State.putShzPort_snaps (s : State) (n : Nat) (x : ShzPort) : (s.putShzPort n x).snaps = s.snaps := rfl
@[simp] theorem State.putShzPort_tlb (s : State) (n : Nat) (x : ShzPort) : (s.putShzPort n x).tlb = s.tlb := rfl
@[simp] theorem State.putShzPort_dirs (s : State) (n : Nat) (x : ShzPort) : (s.putShzPort n x).dirs = s.dirs := rfl
@[simp] theorem State.putShzPort_devCtxs (s : State) (n : Nat) (x : ShzPort) : (s.putShzPort n x).devCtxs = s.devCtxs := rfl
@[simp] theorem State.putShzPort_procCtxs (s : State) (n : Nat) (x : ShzPort) : (s.putShzPort n x).procCtxs = s.procCtxs := rfl
@[simp] theorem State.putShzPort_iomHeld (s : State) (n : Nat) (x : ShzPort) : (s.putShzPort n x).iomHeld = s.iomHeld := rfl
@[simp] theorem State.putShzPort_swapRuns (s : State) (n : Nat) (x : ShzPort) : (s.putShzPort n x).swapRuns = s.swapRuns := rfl
@[simp] theorem State.putShzPort_throttles (s : State) (n : Nat) (x : ShzPort) : (s.putShzPort n x).throttles = s.throttles := rfl
@[simp] theorem State.putShzPort_throttleIrq (s : State) (n : Nat) (x : ShzPort) : (s.putShzPort n x).throttleIrq = s.throttleIrq := rfl
@[simp] theorem State.putShzPort_tmb (s : State) (n : Nat) (x : ShzPort) : (s.putShzPort n x).tmb = s.tmb := rfl
@[simp] theorem State.putShzPort_ing (s : State) (n : Nat) (x : ShzPort) : (s.putShzPort n x).ing = s.ing := rfl
@[simp] theorem State.putShzPort_cin (s : State) (n : Nat) (x : ShzPort) : (s.putShzPort n x).cin = s.cin := rfl
@[simp] theorem State.putShzPort_stp (s : State) (n : Nat) (x : ShzPort) : (s.putShzPort n x).stp = s.stp := rfl
@[simp] theorem State.putShzPort_mio (s : State) (n : Nat) (x : ShzPort) : (s.putShzPort n x).mio = s.mio := rfl
@[simp] theorem State.putShzPort_ssu (s : State) (n : Nat) (x : ShzPort) : (s.putShzPort n x).ssu = s.ssu := rfl
@[simp] theorem State.putShzPort_qdr (s : State) (n : Nat) (x : ShzPort) : (s.putShzPort n x).qdr = s.qdr := rfl
@[simp] theorem State.putShzPort_ten (s : State) (n : Nat) (x : ShzPort) : (s.putShzPort n x).ten = s.ten := rfl
@[simp] theorem State.putShzPort_tlg (s : State) (n : Nat) (x : ShzPort) : (s.putShzPort n x).tlg = s.tlg := rfl
@[simp] theorem State.putShzPort_pcie (s : State) (n : Nat) (x : ShzPort) : (s.putShzPort n x).pcie = s.pcie := rfl
@[simp] theorem State.putShzPort_field (s : State) (n : Nat) (x : ShzPort) : (s.putShzPort n x).field = s.field := rfl
@[simp] theorem State.putShzPort_stw (s : State) (n : Nat) (x : ShzPort) : (s.putShzPort n x).stw = s.stw := rfl
@[simp] theorem State.putShzPort_fuses (s : State) (n : Nat) (x : ShzPort) : (s.putShzPort n x).fuses = s.fuses := rfl
@[simp] theorem State.putShzPort_flash (s : State) (n : Nat) (x : ShzPort) : (s.putShzPort n x).flash = s.flash := rfl
@[simp] theorem State.putShzPort_pwr (s : State) (n : Nat) (x : ShzPort) : (s.putShzPort n x).pwr = s.pwr := rfl

/-! ### putShzPeer -/

@[simp] theorem State.putShzPeer_pending (s : State) (n : Nat) (x : ShzPeer) : (s.putShzPeer n x).pending = s.pending := rfl
@[simp] theorem State.putShzPeer_freeCtr (s : State) (n : Nat) (x : ShzPeer) : (s.putShzPeer n x).freeCtr = s.freeCtr := rfl
@[simp] theorem State.putShzPeer_resp (s : State) (n : Nat) (x : ShzPeer) : (s.putShzPeer n x).resp = s.resp := rfl
@[simp] theorem State.putShzPeer_regs (s : State) (n : Nat) (x : ShzPeer) : (s.putShzPeer n x).regs = s.regs := rfl
@[simp] theorem State.putShzPeer_mem (s : State) (n : Nat) (x : ShzPeer) : (s.putShzPeer n x).mem = s.mem := rfl
@[simp] theorem State.putShzPeer_lost (s : State) (n : Nat) (x : ShzPeer) : (s.putShzPeer n x).lost = s.lost := rfl
@[simp] theorem State.putShzPeer_bad (s : State) (n : Nat) (x : ShzPeer) : (s.putShzPeer n x).bad = s.bad := rfl
@[simp] theorem State.putShzPeer_touched (s : State) (n : Nat) (x : ShzPeer) : (s.putShzPeer n x).touched = s.touched := rfl
@[simp] theorem State.putShzPeer_committed (s : State) (n : Nat) (x : ShzPeer) : (s.putShzPeer n x).committed = s.committed := rfl
@[simp] theorem State.putShzPeer_upsets (s : State) (n : Nat) (x : ShzPeer) : (s.putShzPeer n x).upsets = s.upsets := rfl
@[simp] theorem State.putShzPeer_order (s : State) (n : Nat) (x : ShzPeer) : (s.putShzPeer n x).order = s.order := rfl
@[simp] theorem State.putShzPeer_landed (s : State) (n : Nat) (x : ShzPeer) : (s.putShzPeer n x).landed = s.landed := rfl
@[simp] theorem State.putShzPeer_reservations (s : State) (n : Nat) (x : ShzPeer) : (s.putShzPeer n x).reservations = s.reservations := rfl
@[simp] theorem State.putShzPeer_buffers (s : State) (n : Nat) (x : ShzPeer) : (s.putShzPeer n x).buffers = s.buffers := rfl
@[simp] theorem State.putShzPeer_cache (s : State) (n : Nat) (x : ShzPeer) : (s.putShzPeer n x).cache = s.cache := rfl
@[simp] theorem State.putShzPeer_busErrors (s : State) (n : Nat) (x : ShzPeer) : (s.putShzPeer n x).busErrors = s.busErrors := rfl
@[simp] theorem State.putShzPeer_txns (s : State) (n : Nat) (x : ShzPeer) : (s.putShzPeer n x).txns = s.txns := rfl
@[simp] theorem State.putShzPeer_armCount (s : State) (n : Nat) (x : ShzPeer) : (s.putShzPeer n x).armCount = s.armCount := rfl
@[simp] theorem State.putShzPeer_memPending (s : State) (n : Nat) (x : ShzPeer) : (s.putShzPeer n x).memPending = s.memPending := rfl
@[simp] theorem State.putShzPeer_snaps (s : State) (n : Nat) (x : ShzPeer) : (s.putShzPeer n x).snaps = s.snaps := rfl
@[simp] theorem State.putShzPeer_tlb (s : State) (n : Nat) (x : ShzPeer) : (s.putShzPeer n x).tlb = s.tlb := rfl
@[simp] theorem State.putShzPeer_dirs (s : State) (n : Nat) (x : ShzPeer) : (s.putShzPeer n x).dirs = s.dirs := rfl
@[simp] theorem State.putShzPeer_devCtxs (s : State) (n : Nat) (x : ShzPeer) : (s.putShzPeer n x).devCtxs = s.devCtxs := rfl
@[simp] theorem State.putShzPeer_procCtxs (s : State) (n : Nat) (x : ShzPeer) : (s.putShzPeer n x).procCtxs = s.procCtxs := rfl
@[simp] theorem State.putShzPeer_iomHeld (s : State) (n : Nat) (x : ShzPeer) : (s.putShzPeer n x).iomHeld = s.iomHeld := rfl
@[simp] theorem State.putShzPeer_swapRuns (s : State) (n : Nat) (x : ShzPeer) : (s.putShzPeer n x).swapRuns = s.swapRuns := rfl
@[simp] theorem State.putShzPeer_throttles (s : State) (n : Nat) (x : ShzPeer) : (s.putShzPeer n x).throttles = s.throttles := rfl
@[simp] theorem State.putShzPeer_throttleIrq (s : State) (n : Nat) (x : ShzPeer) : (s.putShzPeer n x).throttleIrq = s.throttleIrq := rfl
@[simp] theorem State.putShzPeer_tmb (s : State) (n : Nat) (x : ShzPeer) : (s.putShzPeer n x).tmb = s.tmb := rfl
@[simp] theorem State.putShzPeer_ing (s : State) (n : Nat) (x : ShzPeer) : (s.putShzPeer n x).ing = s.ing := rfl
@[simp] theorem State.putShzPeer_cin (s : State) (n : Nat) (x : ShzPeer) : (s.putShzPeer n x).cin = s.cin := rfl
@[simp] theorem State.putShzPeer_stp (s : State) (n : Nat) (x : ShzPeer) : (s.putShzPeer n x).stp = s.stp := rfl
@[simp] theorem State.putShzPeer_mio (s : State) (n : Nat) (x : ShzPeer) : (s.putShzPeer n x).mio = s.mio := rfl
@[simp] theorem State.putShzPeer_ssu (s : State) (n : Nat) (x : ShzPeer) : (s.putShzPeer n x).ssu = s.ssu := rfl
@[simp] theorem State.putShzPeer_qdr (s : State) (n : Nat) (x : ShzPeer) : (s.putShzPeer n x).qdr = s.qdr := rfl
@[simp] theorem State.putShzPeer_ten (s : State) (n : Nat) (x : ShzPeer) : (s.putShzPeer n x).ten = s.ten := rfl
@[simp] theorem State.putShzPeer_tlg (s : State) (n : Nat) (x : ShzPeer) : (s.putShzPeer n x).tlg = s.tlg := rfl
@[simp] theorem State.putShzPeer_pcie (s : State) (n : Nat) (x : ShzPeer) : (s.putShzPeer n x).pcie = s.pcie := rfl
@[simp] theorem State.putShzPeer_field (s : State) (n : Nat) (x : ShzPeer) : (s.putShzPeer n x).field = s.field := rfl
@[simp] theorem State.putShzPeer_stw (s : State) (n : Nat) (x : ShzPeer) : (s.putShzPeer n x).stw = s.stw := rfl
@[simp] theorem State.putShzPeer_fuses (s : State) (n : Nat) (x : ShzPeer) : (s.putShzPeer n x).fuses = s.fuses := rfl
@[simp] theorem State.putShzPeer_flash (s : State) (n : Nat) (x : ShzPeer) : (s.putShzPeer n x).flash = s.flash := rfl
@[simp] theorem State.putShzPeer_pwr (s : State) (n : Nat) (x : ShzPeer) : (s.putShzPeer n x).pwr = s.pwr := rfl

/-! ### putRun -/

@[simp] theorem State.putRun_pending (s : State) (x : RunOp) : (s.putRun x).pending = s.pending := rfl
@[simp] theorem State.putRun_freeCtr (s : State) (x : RunOp) : (s.putRun x).freeCtr = s.freeCtr := rfl
@[simp] theorem State.putRun_resp (s : State) (x : RunOp) : (s.putRun x).resp = s.resp := rfl
@[simp] theorem State.putRun_regs (s : State) (x : RunOp) : (s.putRun x).regs = s.regs := rfl
@[simp] theorem State.putRun_mem (s : State) (x : RunOp) : (s.putRun x).mem = s.mem := rfl
@[simp] theorem State.putRun_lost (s : State) (x : RunOp) : (s.putRun x).lost = s.lost := rfl
@[simp] theorem State.putRun_bad (s : State) (x : RunOp) : (s.putRun x).bad = s.bad := rfl
@[simp] theorem State.putRun_touched (s : State) (x : RunOp) : (s.putRun x).touched = s.touched := rfl
@[simp] theorem State.putRun_committed (s : State) (x : RunOp) : (s.putRun x).committed = s.committed := rfl
@[simp] theorem State.putRun_upsets (s : State) (x : RunOp) : (s.putRun x).upsets = s.upsets := rfl
@[simp] theorem State.putRun_order (s : State) (x : RunOp) : (s.putRun x).order = s.order := rfl
@[simp] theorem State.putRun_landed (s : State) (x : RunOp) : (s.putRun x).landed = s.landed := rfl
@[simp] theorem State.putRun_reservations (s : State) (x : RunOp) : (s.putRun x).reservations = s.reservations := rfl
@[simp] theorem State.putRun_buffers (s : State) (x : RunOp) : (s.putRun x).buffers = s.buffers := rfl
@[simp] theorem State.putRun_cache (s : State) (x : RunOp) : (s.putRun x).cache = s.cache := rfl
@[simp] theorem State.putRun_busErrors (s : State) (x : RunOp) : (s.putRun x).busErrors = s.busErrors := rfl
@[simp] theorem State.putRun_txns (s : State) (x : RunOp) : (s.putRun x).txns = s.txns := rfl
@[simp] theorem State.putRun_armCount (s : State) (x : RunOp) : (s.putRun x).armCount = s.armCount := rfl
@[simp] theorem State.putRun_memPending (s : State) (x : RunOp) : (s.putRun x).memPending = s.memPending := rfl
@[simp] theorem State.putRun_snaps (s : State) (x : RunOp) : (s.putRun x).snaps = s.snaps := rfl
@[simp] theorem State.putRun_tlb (s : State) (x : RunOp) : (s.putRun x).tlb = s.tlb := rfl
@[simp] theorem State.putRun_dirs (s : State) (x : RunOp) : (s.putRun x).dirs = s.dirs := rfl
@[simp] theorem State.putRun_devCtxs (s : State) (x : RunOp) : (s.putRun x).devCtxs = s.devCtxs := rfl
@[simp] theorem State.putRun_procCtxs (s : State) (x : RunOp) : (s.putRun x).procCtxs = s.procCtxs := rfl
@[simp] theorem State.putRun_iomHeld (s : State) (x : RunOp) : (s.putRun x).iomHeld = s.iomHeld := rfl
@[simp] theorem State.putRun_swapRuns (s : State) (x : RunOp) : (s.putRun x).swapRuns = s.swapRuns := rfl
@[simp] theorem State.putRun_throttles (s : State) (x : RunOp) : (s.putRun x).throttles = s.throttles := rfl
@[simp] theorem State.putRun_throttleIrq (s : State) (x : RunOp) : (s.putRun x).throttleIrq = s.throttleIrq := rfl
@[simp] theorem State.putRun_tmb (s : State) (x : RunOp) : (s.putRun x).tmb = s.tmb := rfl
@[simp] theorem State.putRun_ing (s : State) (x : RunOp) : (s.putRun x).ing = s.ing := rfl
@[simp] theorem State.putRun_cin (s : State) (x : RunOp) : (s.putRun x).cin = s.cin := rfl
@[simp] theorem State.putRun_shz (s : State) (x : RunOp) : (s.putRun x).shz = s.shz := rfl
@[simp] theorem State.putRun_stp (s : State) (x : RunOp) : (s.putRun x).stp = s.stp := rfl
@[simp] theorem State.putRun_mio (s : State) (x : RunOp) : (s.putRun x).mio = s.mio := rfl
@[simp] theorem State.putRun_ssu (s : State) (x : RunOp) : (s.putRun x).ssu = s.ssu := rfl
@[simp] theorem State.putRun_qdr (s : State) (x : RunOp) : (s.putRun x).qdr = s.qdr := rfl
@[simp] theorem State.putRun_ten (s : State) (x : RunOp) : (s.putRun x).ten = { s.ten with run := some x } := rfl
@[simp] theorem State.putRun_tlg (s : State) (x : RunOp) : (s.putRun x).tlg = s.tlg := rfl
@[simp] theorem State.putRun_pcie (s : State) (x : RunOp) : (s.putRun x).pcie = s.pcie := rfl
@[simp] theorem State.putRun_field (s : State) (x : RunOp) : (s.putRun x).field = s.field := rfl
@[simp] theorem State.putRun_stw (s : State) (x : RunOp) : (s.putRun x).stw = s.stw := rfl
@[simp] theorem State.putRun_fuses (s : State) (x : RunOp) : (s.putRun x).fuses = s.fuses := rfl
@[simp] theorem State.putRun_flash (s : State) (x : RunOp) : (s.putRun x).flash = s.flash := rfl
@[simp] theorem State.putRun_pwr (s : State) (x : RunOp) : (s.putRun x).pwr = s.pwr := rfl

/-! ### withCin -/

@[simp] theorem State.withCin_pending (s : State) (f : Cinch → Cinch) : (s.withCin f).pending = s.pending := rfl
@[simp] theorem State.withCin_freeCtr (s : State) (f : Cinch → Cinch) : (s.withCin f).freeCtr = s.freeCtr := rfl
@[simp] theorem State.withCin_resp (s : State) (f : Cinch → Cinch) : (s.withCin f).resp = s.resp := rfl
@[simp] theorem State.withCin_regs (s : State) (f : Cinch → Cinch) : (s.withCin f).regs = s.regs := rfl
@[simp] theorem State.withCin_mem (s : State) (f : Cinch → Cinch) : (s.withCin f).mem = s.mem := rfl
@[simp] theorem State.withCin_lost (s : State) (f : Cinch → Cinch) : (s.withCin f).lost = s.lost := rfl
@[simp] theorem State.withCin_bad (s : State) (f : Cinch → Cinch) : (s.withCin f).bad = s.bad := rfl
@[simp] theorem State.withCin_touched (s : State) (f : Cinch → Cinch) : (s.withCin f).touched = s.touched := rfl
@[simp] theorem State.withCin_committed (s : State) (f : Cinch → Cinch) : (s.withCin f).committed = s.committed := rfl
@[simp] theorem State.withCin_upsets (s : State) (f : Cinch → Cinch) : (s.withCin f).upsets = s.upsets := rfl
@[simp] theorem State.withCin_order (s : State) (f : Cinch → Cinch) : (s.withCin f).order = s.order := rfl
@[simp] theorem State.withCin_landed (s : State) (f : Cinch → Cinch) : (s.withCin f).landed = s.landed := rfl
@[simp] theorem State.withCin_reservations (s : State) (f : Cinch → Cinch) : (s.withCin f).reservations = s.reservations := rfl
@[simp] theorem State.withCin_buffers (s : State) (f : Cinch → Cinch) : (s.withCin f).buffers = s.buffers := rfl
@[simp] theorem State.withCin_cache (s : State) (f : Cinch → Cinch) : (s.withCin f).cache = s.cache := rfl
@[simp] theorem State.withCin_busErrors (s : State) (f : Cinch → Cinch) : (s.withCin f).busErrors = s.busErrors := rfl
@[simp] theorem State.withCin_txns (s : State) (f : Cinch → Cinch) : (s.withCin f).txns = s.txns := rfl
@[simp] theorem State.withCin_armCount (s : State) (f : Cinch → Cinch) : (s.withCin f).armCount = s.armCount := rfl
@[simp] theorem State.withCin_memPending (s : State) (f : Cinch → Cinch) : (s.withCin f).memPending = s.memPending := rfl
@[simp] theorem State.withCin_snaps (s : State) (f : Cinch → Cinch) : (s.withCin f).snaps = s.snaps := rfl
@[simp] theorem State.withCin_tlb (s : State) (f : Cinch → Cinch) : (s.withCin f).tlb = s.tlb := rfl
@[simp] theorem State.withCin_dirs (s : State) (f : Cinch → Cinch) : (s.withCin f).dirs = s.dirs := rfl
@[simp] theorem State.withCin_devCtxs (s : State) (f : Cinch → Cinch) : (s.withCin f).devCtxs = s.devCtxs := rfl
@[simp] theorem State.withCin_procCtxs (s : State) (f : Cinch → Cinch) : (s.withCin f).procCtxs = s.procCtxs := rfl
@[simp] theorem State.withCin_iomHeld (s : State) (f : Cinch → Cinch) : (s.withCin f).iomHeld = s.iomHeld := rfl
@[simp] theorem State.withCin_swapRuns (s : State) (f : Cinch → Cinch) : (s.withCin f).swapRuns = s.swapRuns := rfl
@[simp] theorem State.withCin_throttles (s : State) (f : Cinch → Cinch) : (s.withCin f).throttles = s.throttles := rfl
@[simp] theorem State.withCin_throttleIrq (s : State) (f : Cinch → Cinch) : (s.withCin f).throttleIrq = s.throttleIrq := rfl
@[simp] theorem State.withCin_tmb (s : State) (f : Cinch → Cinch) : (s.withCin f).tmb = s.tmb := rfl
@[simp] theorem State.withCin_ing (s : State) (f : Cinch → Cinch) : (s.withCin f).ing = s.ing := rfl
@[simp] theorem State.withCin_cin (s : State) (f : Cinch → Cinch) : (s.withCin f).cin = f s.cin := rfl
@[simp] theorem State.withCin_shz (s : State) (f : Cinch → Cinch) : (s.withCin f).shz = s.shz := rfl
@[simp] theorem State.withCin_stp (s : State) (f : Cinch → Cinch) : (s.withCin f).stp = s.stp := rfl
@[simp] theorem State.withCin_mio (s : State) (f : Cinch → Cinch) : (s.withCin f).mio = s.mio := rfl
@[simp] theorem State.withCin_ssu (s : State) (f : Cinch → Cinch) : (s.withCin f).ssu = s.ssu := rfl
@[simp] theorem State.withCin_qdr (s : State) (f : Cinch → Cinch) : (s.withCin f).qdr = s.qdr := rfl
@[simp] theorem State.withCin_ten (s : State) (f : Cinch → Cinch) : (s.withCin f).ten = s.ten := rfl
@[simp] theorem State.withCin_tlg (s : State) (f : Cinch → Cinch) : (s.withCin f).tlg = s.tlg := rfl
@[simp] theorem State.withCin_pcie (s : State) (f : Cinch → Cinch) : (s.withCin f).pcie = s.pcie := rfl
@[simp] theorem State.withCin_field (s : State) (f : Cinch → Cinch) : (s.withCin f).field = s.field := rfl
@[simp] theorem State.withCin_stw (s : State) (f : Cinch → Cinch) : (s.withCin f).stw = s.stw := rfl
@[simp] theorem State.withCin_fuses (s : State) (f : Cinch → Cinch) : (s.withCin f).fuses = s.fuses := rfl
@[simp] theorem State.withCin_flash (s : State) (f : Cinch → Cinch) : (s.withCin f).flash = s.flash := rfl
@[simp] theorem State.withCin_pwr (s : State) (f : Cinch → Cinch) : (s.withCin f).pwr = s.pwr := rfl

/-! ### withTlg -/

@[simp] theorem State.withTlg_pending (s : State) (f : Tooling → Tooling) : (s.withTlg f).pending = s.pending := rfl
@[simp] theorem State.withTlg_freeCtr (s : State) (f : Tooling → Tooling) : (s.withTlg f).freeCtr = s.freeCtr := rfl
@[simp] theorem State.withTlg_resp (s : State) (f : Tooling → Tooling) : (s.withTlg f).resp = s.resp := rfl
@[simp] theorem State.withTlg_regs (s : State) (f : Tooling → Tooling) : (s.withTlg f).regs = s.regs := rfl
@[simp] theorem State.withTlg_mem (s : State) (f : Tooling → Tooling) : (s.withTlg f).mem = s.mem := rfl
@[simp] theorem State.withTlg_lost (s : State) (f : Tooling → Tooling) : (s.withTlg f).lost = s.lost := rfl
@[simp] theorem State.withTlg_bad (s : State) (f : Tooling → Tooling) : (s.withTlg f).bad = s.bad := rfl
@[simp] theorem State.withTlg_touched (s : State) (f : Tooling → Tooling) : (s.withTlg f).touched = s.touched := rfl
@[simp] theorem State.withTlg_committed (s : State) (f : Tooling → Tooling) : (s.withTlg f).committed = s.committed := rfl
@[simp] theorem State.withTlg_upsets (s : State) (f : Tooling → Tooling) : (s.withTlg f).upsets = s.upsets := rfl
@[simp] theorem State.withTlg_order (s : State) (f : Tooling → Tooling) : (s.withTlg f).order = s.order := rfl
@[simp] theorem State.withTlg_landed (s : State) (f : Tooling → Tooling) : (s.withTlg f).landed = s.landed := rfl
@[simp] theorem State.withTlg_reservations (s : State) (f : Tooling → Tooling) : (s.withTlg f).reservations = s.reservations := rfl
@[simp] theorem State.withTlg_buffers (s : State) (f : Tooling → Tooling) : (s.withTlg f).buffers = s.buffers := rfl
@[simp] theorem State.withTlg_cache (s : State) (f : Tooling → Tooling) : (s.withTlg f).cache = s.cache := rfl
@[simp] theorem State.withTlg_busErrors (s : State) (f : Tooling → Tooling) : (s.withTlg f).busErrors = s.busErrors := rfl
@[simp] theorem State.withTlg_txns (s : State) (f : Tooling → Tooling) : (s.withTlg f).txns = s.txns := rfl
@[simp] theorem State.withTlg_armCount (s : State) (f : Tooling → Tooling) : (s.withTlg f).armCount = s.armCount := rfl
@[simp] theorem State.withTlg_memPending (s : State) (f : Tooling → Tooling) : (s.withTlg f).memPending = s.memPending := rfl
@[simp] theorem State.withTlg_snaps (s : State) (f : Tooling → Tooling) : (s.withTlg f).snaps = s.snaps := rfl
@[simp] theorem State.withTlg_tlb (s : State) (f : Tooling → Tooling) : (s.withTlg f).tlb = s.tlb := rfl
@[simp] theorem State.withTlg_dirs (s : State) (f : Tooling → Tooling) : (s.withTlg f).dirs = s.dirs := rfl
@[simp] theorem State.withTlg_devCtxs (s : State) (f : Tooling → Tooling) : (s.withTlg f).devCtxs = s.devCtxs := rfl
@[simp] theorem State.withTlg_procCtxs (s : State) (f : Tooling → Tooling) : (s.withTlg f).procCtxs = s.procCtxs := rfl
@[simp] theorem State.withTlg_iomHeld (s : State) (f : Tooling → Tooling) : (s.withTlg f).iomHeld = s.iomHeld := rfl
@[simp] theorem State.withTlg_swapRuns (s : State) (f : Tooling → Tooling) : (s.withTlg f).swapRuns = s.swapRuns := rfl
@[simp] theorem State.withTlg_throttles (s : State) (f : Tooling → Tooling) : (s.withTlg f).throttles = s.throttles := rfl
@[simp] theorem State.withTlg_throttleIrq (s : State) (f : Tooling → Tooling) : (s.withTlg f).throttleIrq = s.throttleIrq := rfl
@[simp] theorem State.withTlg_tmb (s : State) (f : Tooling → Tooling) : (s.withTlg f).tmb = s.tmb := rfl
@[simp] theorem State.withTlg_ing (s : State) (f : Tooling → Tooling) : (s.withTlg f).ing = s.ing := rfl
@[simp] theorem State.withTlg_cin (s : State) (f : Tooling → Tooling) : (s.withTlg f).cin = s.cin := rfl
@[simp] theorem State.withTlg_shz (s : State) (f : Tooling → Tooling) : (s.withTlg f).shz = s.shz := rfl
@[simp] theorem State.withTlg_stp (s : State) (f : Tooling → Tooling) : (s.withTlg f).stp = s.stp := rfl
@[simp] theorem State.withTlg_mio (s : State) (f : Tooling → Tooling) : (s.withTlg f).mio = s.mio := rfl
@[simp] theorem State.withTlg_ssu (s : State) (f : Tooling → Tooling) : (s.withTlg f).ssu = s.ssu := rfl
@[simp] theorem State.withTlg_qdr (s : State) (f : Tooling → Tooling) : (s.withTlg f).qdr = s.qdr := rfl
@[simp] theorem State.withTlg_ten (s : State) (f : Tooling → Tooling) : (s.withTlg f).ten = s.ten := rfl
@[simp] theorem State.withTlg_tlg (s : State) (f : Tooling → Tooling) : (s.withTlg f).tlg = f s.tlg := rfl
@[simp] theorem State.withTlg_pcie (s : State) (f : Tooling → Tooling) : (s.withTlg f).pcie = s.pcie := rfl
@[simp] theorem State.withTlg_field (s : State) (f : Tooling → Tooling) : (s.withTlg f).field = s.field := rfl
@[simp] theorem State.withTlg_stw (s : State) (f : Tooling → Tooling) : (s.withTlg f).stw = s.stw := rfl
@[simp] theorem State.withTlg_fuses (s : State) (f : Tooling → Tooling) : (s.withTlg f).fuses = s.fuses := rfl
@[simp] theorem State.withTlg_flash (s : State) (f : Tooling → Tooling) : (s.withTlg f).flash = s.flash := rfl
@[simp] theorem State.withTlg_pwr (s : State) (f : Tooling → Tooling) : (s.withTlg f).pwr = s.pwr := rfl

/-! ### withPwr -/

@[simp] theorem State.withPwr_pending (s : State) (f : Power → Power) : (s.withPwr f).pending = s.pending := rfl
@[simp] theorem State.withPwr_freeCtr (s : State) (f : Power → Power) : (s.withPwr f).freeCtr = s.freeCtr := rfl
@[simp] theorem State.withPwr_resp (s : State) (f : Power → Power) : (s.withPwr f).resp = s.resp := rfl
@[simp] theorem State.withPwr_regs (s : State) (f : Power → Power) : (s.withPwr f).regs = s.regs := rfl
@[simp] theorem State.withPwr_mem (s : State) (f : Power → Power) : (s.withPwr f).mem = s.mem := rfl
@[simp] theorem State.withPwr_lost (s : State) (f : Power → Power) : (s.withPwr f).lost = s.lost := rfl
@[simp] theorem State.withPwr_bad (s : State) (f : Power → Power) : (s.withPwr f).bad = s.bad := rfl
@[simp] theorem State.withPwr_touched (s : State) (f : Power → Power) : (s.withPwr f).touched = s.touched := rfl
@[simp] theorem State.withPwr_committed (s : State) (f : Power → Power) : (s.withPwr f).committed = s.committed := rfl
@[simp] theorem State.withPwr_upsets (s : State) (f : Power → Power) : (s.withPwr f).upsets = s.upsets := rfl
@[simp] theorem State.withPwr_order (s : State) (f : Power → Power) : (s.withPwr f).order = s.order := rfl
@[simp] theorem State.withPwr_landed (s : State) (f : Power → Power) : (s.withPwr f).landed = s.landed := rfl
@[simp] theorem State.withPwr_reservations (s : State) (f : Power → Power) : (s.withPwr f).reservations = s.reservations := rfl
@[simp] theorem State.withPwr_buffers (s : State) (f : Power → Power) : (s.withPwr f).buffers = s.buffers := rfl
@[simp] theorem State.withPwr_cache (s : State) (f : Power → Power) : (s.withPwr f).cache = s.cache := rfl
@[simp] theorem State.withPwr_busErrors (s : State) (f : Power → Power) : (s.withPwr f).busErrors = s.busErrors := rfl
@[simp] theorem State.withPwr_txns (s : State) (f : Power → Power) : (s.withPwr f).txns = s.txns := rfl
@[simp] theorem State.withPwr_armCount (s : State) (f : Power → Power) : (s.withPwr f).armCount = s.armCount := rfl
@[simp] theorem State.withPwr_memPending (s : State) (f : Power → Power) : (s.withPwr f).memPending = s.memPending := rfl
@[simp] theorem State.withPwr_snaps (s : State) (f : Power → Power) : (s.withPwr f).snaps = s.snaps := rfl
@[simp] theorem State.withPwr_tlb (s : State) (f : Power → Power) : (s.withPwr f).tlb = s.tlb := rfl
@[simp] theorem State.withPwr_dirs (s : State) (f : Power → Power) : (s.withPwr f).dirs = s.dirs := rfl
@[simp] theorem State.withPwr_devCtxs (s : State) (f : Power → Power) : (s.withPwr f).devCtxs = s.devCtxs := rfl
@[simp] theorem State.withPwr_procCtxs (s : State) (f : Power → Power) : (s.withPwr f).procCtxs = s.procCtxs := rfl
@[simp] theorem State.withPwr_iomHeld (s : State) (f : Power → Power) : (s.withPwr f).iomHeld = s.iomHeld := rfl
@[simp] theorem State.withPwr_swapRuns (s : State) (f : Power → Power) : (s.withPwr f).swapRuns = s.swapRuns := rfl
@[simp] theorem State.withPwr_throttles (s : State) (f : Power → Power) : (s.withPwr f).throttles = s.throttles := rfl
@[simp] theorem State.withPwr_throttleIrq (s : State) (f : Power → Power) : (s.withPwr f).throttleIrq = s.throttleIrq := rfl
@[simp] theorem State.withPwr_tmb (s : State) (f : Power → Power) : (s.withPwr f).tmb = s.tmb := rfl
@[simp] theorem State.withPwr_ing (s : State) (f : Power → Power) : (s.withPwr f).ing = s.ing := rfl
@[simp] theorem State.withPwr_cin (s : State) (f : Power → Power) : (s.withPwr f).cin = s.cin := rfl
@[simp] theorem State.withPwr_shz (s : State) (f : Power → Power) : (s.withPwr f).shz = s.shz := rfl
@[simp] theorem State.withPwr_stp (s : State) (f : Power → Power) : (s.withPwr f).stp = s.stp := rfl
@[simp] theorem State.withPwr_mio (s : State) (f : Power → Power) : (s.withPwr f).mio = s.mio := rfl
@[simp] theorem State.withPwr_ssu (s : State) (f : Power → Power) : (s.withPwr f).ssu = s.ssu := rfl
@[simp] theorem State.withPwr_qdr (s : State) (f : Power → Power) : (s.withPwr f).qdr = s.qdr := rfl
@[simp] theorem State.withPwr_ten (s : State) (f : Power → Power) : (s.withPwr f).ten = s.ten := rfl
@[simp] theorem State.withPwr_tlg (s : State) (f : Power → Power) : (s.withPwr f).tlg = s.tlg := rfl
@[simp] theorem State.withPwr_pcie (s : State) (f : Power → Power) : (s.withPwr f).pcie = s.pcie := rfl
@[simp] theorem State.withPwr_field (s : State) (f : Power → Power) : (s.withPwr f).field = s.field := rfl
@[simp] theorem State.withPwr_stw (s : State) (f : Power → Power) : (s.withPwr f).stw = s.stw := rfl
@[simp] theorem State.withPwr_fuses (s : State) (f : Power → Power) : (s.withPwr f).fuses = s.fuses := rfl
@[simp] theorem State.withPwr_flash (s : State) (f : Power → Power) : (s.withPwr f).flash = s.flash := rfl
@[simp] theorem State.withPwr_pwr (s : State) (f : Power → Power) : (s.withPwr f).pwr = f s.pwr := rfl

/-! ### withStw -/

@[simp] theorem State.withStw_pending (s : State) (f : Steward → Steward) : (s.withStw f).pending = s.pending := rfl
@[simp] theorem State.withStw_freeCtr (s : State) (f : Steward → Steward) : (s.withStw f).freeCtr = s.freeCtr := rfl
@[simp] theorem State.withStw_resp (s : State) (f : Steward → Steward) : (s.withStw f).resp = s.resp := rfl
@[simp] theorem State.withStw_regs (s : State) (f : Steward → Steward) : (s.withStw f).regs = s.regs := rfl
@[simp] theorem State.withStw_mem (s : State) (f : Steward → Steward) : (s.withStw f).mem = s.mem := rfl
@[simp] theorem State.withStw_lost (s : State) (f : Steward → Steward) : (s.withStw f).lost = s.lost := rfl
@[simp] theorem State.withStw_bad (s : State) (f : Steward → Steward) : (s.withStw f).bad = s.bad := rfl
@[simp] theorem State.withStw_touched (s : State) (f : Steward → Steward) : (s.withStw f).touched = s.touched := rfl
@[simp] theorem State.withStw_committed (s : State) (f : Steward → Steward) : (s.withStw f).committed = s.committed := rfl
@[simp] theorem State.withStw_upsets (s : State) (f : Steward → Steward) : (s.withStw f).upsets = s.upsets := rfl
@[simp] theorem State.withStw_order (s : State) (f : Steward → Steward) : (s.withStw f).order = s.order := rfl
@[simp] theorem State.withStw_landed (s : State) (f : Steward → Steward) : (s.withStw f).landed = s.landed := rfl
@[simp] theorem State.withStw_reservations (s : State) (f : Steward → Steward) : (s.withStw f).reservations = s.reservations := rfl
@[simp] theorem State.withStw_buffers (s : State) (f : Steward → Steward) : (s.withStw f).buffers = s.buffers := rfl
@[simp] theorem State.withStw_cache (s : State) (f : Steward → Steward) : (s.withStw f).cache = s.cache := rfl
@[simp] theorem State.withStw_busErrors (s : State) (f : Steward → Steward) : (s.withStw f).busErrors = s.busErrors := rfl
@[simp] theorem State.withStw_txns (s : State) (f : Steward → Steward) : (s.withStw f).txns = s.txns := rfl
@[simp] theorem State.withStw_armCount (s : State) (f : Steward → Steward) : (s.withStw f).armCount = s.armCount := rfl
@[simp] theorem State.withStw_memPending (s : State) (f : Steward → Steward) : (s.withStw f).memPending = s.memPending := rfl
@[simp] theorem State.withStw_snaps (s : State) (f : Steward → Steward) : (s.withStw f).snaps = s.snaps := rfl
@[simp] theorem State.withStw_tlb (s : State) (f : Steward → Steward) : (s.withStw f).tlb = s.tlb := rfl
@[simp] theorem State.withStw_dirs (s : State) (f : Steward → Steward) : (s.withStw f).dirs = s.dirs := rfl
@[simp] theorem State.withStw_devCtxs (s : State) (f : Steward → Steward) : (s.withStw f).devCtxs = s.devCtxs := rfl
@[simp] theorem State.withStw_procCtxs (s : State) (f : Steward → Steward) : (s.withStw f).procCtxs = s.procCtxs := rfl
@[simp] theorem State.withStw_iomHeld (s : State) (f : Steward → Steward) : (s.withStw f).iomHeld = s.iomHeld := rfl
@[simp] theorem State.withStw_swapRuns (s : State) (f : Steward → Steward) : (s.withStw f).swapRuns = s.swapRuns := rfl
@[simp] theorem State.withStw_throttles (s : State) (f : Steward → Steward) : (s.withStw f).throttles = s.throttles := rfl
@[simp] theorem State.withStw_throttleIrq (s : State) (f : Steward → Steward) : (s.withStw f).throttleIrq = s.throttleIrq := rfl
@[simp] theorem State.withStw_tmb (s : State) (f : Steward → Steward) : (s.withStw f).tmb = s.tmb := rfl
@[simp] theorem State.withStw_ing (s : State) (f : Steward → Steward) : (s.withStw f).ing = s.ing := rfl
@[simp] theorem State.withStw_cin (s : State) (f : Steward → Steward) : (s.withStw f).cin = s.cin := rfl
@[simp] theorem State.withStw_shz (s : State) (f : Steward → Steward) : (s.withStw f).shz = s.shz := rfl
@[simp] theorem State.withStw_stp (s : State) (f : Steward → Steward) : (s.withStw f).stp = s.stp := rfl
@[simp] theorem State.withStw_mio (s : State) (f : Steward → Steward) : (s.withStw f).mio = s.mio := rfl
@[simp] theorem State.withStw_ssu (s : State) (f : Steward → Steward) : (s.withStw f).ssu = s.ssu := rfl
@[simp] theorem State.withStw_qdr (s : State) (f : Steward → Steward) : (s.withStw f).qdr = s.qdr := rfl
@[simp] theorem State.withStw_ten (s : State) (f : Steward → Steward) : (s.withStw f).ten = s.ten := rfl
@[simp] theorem State.withStw_tlg (s : State) (f : Steward → Steward) : (s.withStw f).tlg = s.tlg := rfl
@[simp] theorem State.withStw_pcie (s : State) (f : Steward → Steward) : (s.withStw f).pcie = s.pcie := rfl
@[simp] theorem State.withStw_field (s : State) (f : Steward → Steward) : (s.withStw f).field = s.field := rfl
@[simp] theorem State.withStw_stw (s : State) (f : Steward → Steward) : (s.withStw f).stw = f s.stw := rfl
@[simp] theorem State.withStw_fuses (s : State) (f : Steward → Steward) : (s.withStw f).fuses = s.fuses := rfl
@[simp] theorem State.withStw_flash (s : State) (f : Steward → Steward) : (s.withStw f).flash = s.flash := rfl
@[simp] theorem State.withStw_pwr (s : State) (f : Steward → Steward) : (s.withStw f).pwr = s.pwr := rfl

/-! ### withMio -/

@[simp] theorem State.withMio_pending (s : State) (f : Motion → Motion) : (s.withMio f).pending = s.pending := rfl
@[simp] theorem State.withMio_freeCtr (s : State) (f : Motion → Motion) : (s.withMio f).freeCtr = s.freeCtr := rfl
@[simp] theorem State.withMio_resp (s : State) (f : Motion → Motion) : (s.withMio f).resp = s.resp := rfl
@[simp] theorem State.withMio_regs (s : State) (f : Motion → Motion) : (s.withMio f).regs = s.regs := rfl
@[simp] theorem State.withMio_mem (s : State) (f : Motion → Motion) : (s.withMio f).mem = s.mem := rfl
@[simp] theorem State.withMio_lost (s : State) (f : Motion → Motion) : (s.withMio f).lost = s.lost := rfl
@[simp] theorem State.withMio_bad (s : State) (f : Motion → Motion) : (s.withMio f).bad = s.bad := rfl
@[simp] theorem State.withMio_touched (s : State) (f : Motion → Motion) : (s.withMio f).touched = s.touched := rfl
@[simp] theorem State.withMio_committed (s : State) (f : Motion → Motion) : (s.withMio f).committed = s.committed := rfl
@[simp] theorem State.withMio_upsets (s : State) (f : Motion → Motion) : (s.withMio f).upsets = s.upsets := rfl
@[simp] theorem State.withMio_order (s : State) (f : Motion → Motion) : (s.withMio f).order = s.order := rfl
@[simp] theorem State.withMio_landed (s : State) (f : Motion → Motion) : (s.withMio f).landed = s.landed := rfl
@[simp] theorem State.withMio_reservations (s : State) (f : Motion → Motion) : (s.withMio f).reservations = s.reservations := rfl
@[simp] theorem State.withMio_buffers (s : State) (f : Motion → Motion) : (s.withMio f).buffers = s.buffers := rfl
@[simp] theorem State.withMio_cache (s : State) (f : Motion → Motion) : (s.withMio f).cache = s.cache := rfl
@[simp] theorem State.withMio_busErrors (s : State) (f : Motion → Motion) : (s.withMio f).busErrors = s.busErrors := rfl
@[simp] theorem State.withMio_txns (s : State) (f : Motion → Motion) : (s.withMio f).txns = s.txns := rfl
@[simp] theorem State.withMio_armCount (s : State) (f : Motion → Motion) : (s.withMio f).armCount = s.armCount := rfl
@[simp] theorem State.withMio_memPending (s : State) (f : Motion → Motion) : (s.withMio f).memPending = s.memPending := rfl
@[simp] theorem State.withMio_snaps (s : State) (f : Motion → Motion) : (s.withMio f).snaps = s.snaps := rfl
@[simp] theorem State.withMio_tlb (s : State) (f : Motion → Motion) : (s.withMio f).tlb = s.tlb := rfl
@[simp] theorem State.withMio_dirs (s : State) (f : Motion → Motion) : (s.withMio f).dirs = s.dirs := rfl
@[simp] theorem State.withMio_devCtxs (s : State) (f : Motion → Motion) : (s.withMio f).devCtxs = s.devCtxs := rfl
@[simp] theorem State.withMio_procCtxs (s : State) (f : Motion → Motion) : (s.withMio f).procCtxs = s.procCtxs := rfl
@[simp] theorem State.withMio_iomHeld (s : State) (f : Motion → Motion) : (s.withMio f).iomHeld = s.iomHeld := rfl
@[simp] theorem State.withMio_swapRuns (s : State) (f : Motion → Motion) : (s.withMio f).swapRuns = s.swapRuns := rfl
@[simp] theorem State.withMio_throttles (s : State) (f : Motion → Motion) : (s.withMio f).throttles = s.throttles := rfl
@[simp] theorem State.withMio_throttleIrq (s : State) (f : Motion → Motion) : (s.withMio f).throttleIrq = s.throttleIrq := rfl
@[simp] theorem State.withMio_tmb (s : State) (f : Motion → Motion) : (s.withMio f).tmb = s.tmb := rfl
@[simp] theorem State.withMio_ing (s : State) (f : Motion → Motion) : (s.withMio f).ing = s.ing := rfl
@[simp] theorem State.withMio_cin (s : State) (f : Motion → Motion) : (s.withMio f).cin = s.cin := rfl
@[simp] theorem State.withMio_shz (s : State) (f : Motion → Motion) : (s.withMio f).shz = s.shz := rfl
@[simp] theorem State.withMio_stp (s : State) (f : Motion → Motion) : (s.withMio f).stp = s.stp := rfl
@[simp] theorem State.withMio_mio (s : State) (f : Motion → Motion) : (s.withMio f).mio = f s.mio := rfl
@[simp] theorem State.withMio_ssu (s : State) (f : Motion → Motion) : (s.withMio f).ssu = s.ssu := rfl
@[simp] theorem State.withMio_qdr (s : State) (f : Motion → Motion) : (s.withMio f).qdr = s.qdr := rfl
@[simp] theorem State.withMio_ten (s : State) (f : Motion → Motion) : (s.withMio f).ten = s.ten := rfl
@[simp] theorem State.withMio_tlg (s : State) (f : Motion → Motion) : (s.withMio f).tlg = s.tlg := rfl
@[simp] theorem State.withMio_pcie (s : State) (f : Motion → Motion) : (s.withMio f).pcie = s.pcie := rfl
@[simp] theorem State.withMio_field (s : State) (f : Motion → Motion) : (s.withMio f).field = s.field := rfl
@[simp] theorem State.withMio_stw (s : State) (f : Motion → Motion) : (s.withMio f).stw = s.stw := rfl
@[simp] theorem State.withMio_fuses (s : State) (f : Motion → Motion) : (s.withMio f).fuses = s.fuses := rfl
@[simp] theorem State.withMio_flash (s : State) (f : Motion → Motion) : (s.withMio f).flash = s.flash := rfl
@[simp] theorem State.withMio_pwr (s : State) (f : Motion → Motion) : (s.withMio f).pwr = s.pwr := rfl

/-! ### withPcie -/

@[simp] theorem State.withPcie_pending (s : State) (f : Pcie → Pcie) : (s.withPcie f).pending = s.pending := rfl
@[simp] theorem State.withPcie_freeCtr (s : State) (f : Pcie → Pcie) : (s.withPcie f).freeCtr = s.freeCtr := rfl
@[simp] theorem State.withPcie_resp (s : State) (f : Pcie → Pcie) : (s.withPcie f).resp = s.resp := rfl
@[simp] theorem State.withPcie_regs (s : State) (f : Pcie → Pcie) : (s.withPcie f).regs = s.regs := rfl
@[simp] theorem State.withPcie_mem (s : State) (f : Pcie → Pcie) : (s.withPcie f).mem = s.mem := rfl
@[simp] theorem State.withPcie_lost (s : State) (f : Pcie → Pcie) : (s.withPcie f).lost = s.lost := rfl
@[simp] theorem State.withPcie_bad (s : State) (f : Pcie → Pcie) : (s.withPcie f).bad = s.bad := rfl
@[simp] theorem State.withPcie_touched (s : State) (f : Pcie → Pcie) : (s.withPcie f).touched = s.touched := rfl
@[simp] theorem State.withPcie_committed (s : State) (f : Pcie → Pcie) : (s.withPcie f).committed = s.committed := rfl
@[simp] theorem State.withPcie_upsets (s : State) (f : Pcie → Pcie) : (s.withPcie f).upsets = s.upsets := rfl
@[simp] theorem State.withPcie_order (s : State) (f : Pcie → Pcie) : (s.withPcie f).order = s.order := rfl
@[simp] theorem State.withPcie_landed (s : State) (f : Pcie → Pcie) : (s.withPcie f).landed = s.landed := rfl
@[simp] theorem State.withPcie_reservations (s : State) (f : Pcie → Pcie) : (s.withPcie f).reservations = s.reservations := rfl
@[simp] theorem State.withPcie_buffers (s : State) (f : Pcie → Pcie) : (s.withPcie f).buffers = s.buffers := rfl
@[simp] theorem State.withPcie_cache (s : State) (f : Pcie → Pcie) : (s.withPcie f).cache = s.cache := rfl
@[simp] theorem State.withPcie_busErrors (s : State) (f : Pcie → Pcie) : (s.withPcie f).busErrors = s.busErrors := rfl
@[simp] theorem State.withPcie_txns (s : State) (f : Pcie → Pcie) : (s.withPcie f).txns = s.txns := rfl
@[simp] theorem State.withPcie_armCount (s : State) (f : Pcie → Pcie) : (s.withPcie f).armCount = s.armCount := rfl
@[simp] theorem State.withPcie_memPending (s : State) (f : Pcie → Pcie) : (s.withPcie f).memPending = s.memPending := rfl
@[simp] theorem State.withPcie_snaps (s : State) (f : Pcie → Pcie) : (s.withPcie f).snaps = s.snaps := rfl
@[simp] theorem State.withPcie_tlb (s : State) (f : Pcie → Pcie) : (s.withPcie f).tlb = s.tlb := rfl
@[simp] theorem State.withPcie_dirs (s : State) (f : Pcie → Pcie) : (s.withPcie f).dirs = s.dirs := rfl
@[simp] theorem State.withPcie_devCtxs (s : State) (f : Pcie → Pcie) : (s.withPcie f).devCtxs = s.devCtxs := rfl
@[simp] theorem State.withPcie_procCtxs (s : State) (f : Pcie → Pcie) : (s.withPcie f).procCtxs = s.procCtxs := rfl
@[simp] theorem State.withPcie_iomHeld (s : State) (f : Pcie → Pcie) : (s.withPcie f).iomHeld = s.iomHeld := rfl
@[simp] theorem State.withPcie_swapRuns (s : State) (f : Pcie → Pcie) : (s.withPcie f).swapRuns = s.swapRuns := rfl
@[simp] theorem State.withPcie_throttles (s : State) (f : Pcie → Pcie) : (s.withPcie f).throttles = s.throttles := rfl
@[simp] theorem State.withPcie_throttleIrq (s : State) (f : Pcie → Pcie) : (s.withPcie f).throttleIrq = s.throttleIrq := rfl
@[simp] theorem State.withPcie_tmb (s : State) (f : Pcie → Pcie) : (s.withPcie f).tmb = s.tmb := rfl
@[simp] theorem State.withPcie_ing (s : State) (f : Pcie → Pcie) : (s.withPcie f).ing = s.ing := rfl
@[simp] theorem State.withPcie_cin (s : State) (f : Pcie → Pcie) : (s.withPcie f).cin = s.cin := rfl
@[simp] theorem State.withPcie_shz (s : State) (f : Pcie → Pcie) : (s.withPcie f).shz = s.shz := rfl
@[simp] theorem State.withPcie_stp (s : State) (f : Pcie → Pcie) : (s.withPcie f).stp = s.stp := rfl
@[simp] theorem State.withPcie_mio (s : State) (f : Pcie → Pcie) : (s.withPcie f).mio = s.mio := rfl
@[simp] theorem State.withPcie_ssu (s : State) (f : Pcie → Pcie) : (s.withPcie f).ssu = s.ssu := rfl
@[simp] theorem State.withPcie_qdr (s : State) (f : Pcie → Pcie) : (s.withPcie f).qdr = s.qdr := rfl
@[simp] theorem State.withPcie_ten (s : State) (f : Pcie → Pcie) : (s.withPcie f).ten = s.ten := rfl
@[simp] theorem State.withPcie_tlg (s : State) (f : Pcie → Pcie) : (s.withPcie f).tlg = s.tlg := rfl
@[simp] theorem State.withPcie_pcie (s : State) (f : Pcie → Pcie) : (s.withPcie f).pcie = f s.pcie := rfl
@[simp] theorem State.withPcie_field (s : State) (f : Pcie → Pcie) : (s.withPcie f).field = s.field := rfl
@[simp] theorem State.withPcie_stw (s : State) (f : Pcie → Pcie) : (s.withPcie f).stw = s.stw := rfl
@[simp] theorem State.withPcie_fuses (s : State) (f : Pcie → Pcie) : (s.withPcie f).fuses = s.fuses := rfl
@[simp] theorem State.withPcie_flash (s : State) (f : Pcie → Pcie) : (s.withPcie f).flash = s.flash := rfl
@[simp] theorem State.withPcie_pwr (s : State) (f : Pcie → Pcie) : (s.withPcie f).pwr = s.pwr := rfl

/-! ### withQdr -/

@[simp] theorem State.withQdr_pending (s : State) (f : Quad → Quad) : (s.withQdr f).pending = s.pending := rfl
@[simp] theorem State.withQdr_freeCtr (s : State) (f : Quad → Quad) : (s.withQdr f).freeCtr = s.freeCtr := rfl
@[simp] theorem State.withQdr_resp (s : State) (f : Quad → Quad) : (s.withQdr f).resp = s.resp := rfl
@[simp] theorem State.withQdr_regs (s : State) (f : Quad → Quad) : (s.withQdr f).regs = s.regs := rfl
@[simp] theorem State.withQdr_mem (s : State) (f : Quad → Quad) : (s.withQdr f).mem = s.mem := rfl
@[simp] theorem State.withQdr_lost (s : State) (f : Quad → Quad) : (s.withQdr f).lost = s.lost := rfl
@[simp] theorem State.withQdr_bad (s : State) (f : Quad → Quad) : (s.withQdr f).bad = s.bad := rfl
@[simp] theorem State.withQdr_touched (s : State) (f : Quad → Quad) : (s.withQdr f).touched = s.touched := rfl
@[simp] theorem State.withQdr_committed (s : State) (f : Quad → Quad) : (s.withQdr f).committed = s.committed := rfl
@[simp] theorem State.withQdr_upsets (s : State) (f : Quad → Quad) : (s.withQdr f).upsets = s.upsets := rfl
@[simp] theorem State.withQdr_order (s : State) (f : Quad → Quad) : (s.withQdr f).order = s.order := rfl
@[simp] theorem State.withQdr_landed (s : State) (f : Quad → Quad) : (s.withQdr f).landed = s.landed := rfl
@[simp] theorem State.withQdr_reservations (s : State) (f : Quad → Quad) : (s.withQdr f).reservations = s.reservations := rfl
@[simp] theorem State.withQdr_buffers (s : State) (f : Quad → Quad) : (s.withQdr f).buffers = s.buffers := rfl
@[simp] theorem State.withQdr_cache (s : State) (f : Quad → Quad) : (s.withQdr f).cache = s.cache := rfl
@[simp] theorem State.withQdr_busErrors (s : State) (f : Quad → Quad) : (s.withQdr f).busErrors = s.busErrors := rfl
@[simp] theorem State.withQdr_txns (s : State) (f : Quad → Quad) : (s.withQdr f).txns = s.txns := rfl
@[simp] theorem State.withQdr_armCount (s : State) (f : Quad → Quad) : (s.withQdr f).armCount = s.armCount := rfl
@[simp] theorem State.withQdr_memPending (s : State) (f : Quad → Quad) : (s.withQdr f).memPending = s.memPending := rfl
@[simp] theorem State.withQdr_snaps (s : State) (f : Quad → Quad) : (s.withQdr f).snaps = s.snaps := rfl
@[simp] theorem State.withQdr_tlb (s : State) (f : Quad → Quad) : (s.withQdr f).tlb = s.tlb := rfl
@[simp] theorem State.withQdr_dirs (s : State) (f : Quad → Quad) : (s.withQdr f).dirs = s.dirs := rfl
@[simp] theorem State.withQdr_devCtxs (s : State) (f : Quad → Quad) : (s.withQdr f).devCtxs = s.devCtxs := rfl
@[simp] theorem State.withQdr_procCtxs (s : State) (f : Quad → Quad) : (s.withQdr f).procCtxs = s.procCtxs := rfl
@[simp] theorem State.withQdr_iomHeld (s : State) (f : Quad → Quad) : (s.withQdr f).iomHeld = s.iomHeld := rfl
@[simp] theorem State.withQdr_swapRuns (s : State) (f : Quad → Quad) : (s.withQdr f).swapRuns = s.swapRuns := rfl
@[simp] theorem State.withQdr_throttles (s : State) (f : Quad → Quad) : (s.withQdr f).throttles = s.throttles := rfl
@[simp] theorem State.withQdr_throttleIrq (s : State) (f : Quad → Quad) : (s.withQdr f).throttleIrq = s.throttleIrq := rfl
@[simp] theorem State.withQdr_tmb (s : State) (f : Quad → Quad) : (s.withQdr f).tmb = s.tmb := rfl
@[simp] theorem State.withQdr_ing (s : State) (f : Quad → Quad) : (s.withQdr f).ing = s.ing := rfl
@[simp] theorem State.withQdr_cin (s : State) (f : Quad → Quad) : (s.withQdr f).cin = s.cin := rfl
@[simp] theorem State.withQdr_shz (s : State) (f : Quad → Quad) : (s.withQdr f).shz = s.shz := rfl
@[simp] theorem State.withQdr_stp (s : State) (f : Quad → Quad) : (s.withQdr f).stp = s.stp := rfl
@[simp] theorem State.withQdr_mio (s : State) (f : Quad → Quad) : (s.withQdr f).mio = s.mio := rfl
@[simp] theorem State.withQdr_ssu (s : State) (f : Quad → Quad) : (s.withQdr f).ssu = s.ssu := rfl
@[simp] theorem State.withQdr_qdr (s : State) (f : Quad → Quad) : (s.withQdr f).qdr = f s.qdr := rfl
@[simp] theorem State.withQdr_ten (s : State) (f : Quad → Quad) : (s.withQdr f).ten = s.ten := rfl
@[simp] theorem State.withQdr_tlg (s : State) (f : Quad → Quad) : (s.withQdr f).tlg = s.tlg := rfl
@[simp] theorem State.withQdr_pcie (s : State) (f : Quad → Quad) : (s.withQdr f).pcie = s.pcie := rfl
@[simp] theorem State.withQdr_field (s : State) (f : Quad → Quad) : (s.withQdr f).field = s.field := rfl
@[simp] theorem State.withQdr_stw (s : State) (f : Quad → Quad) : (s.withQdr f).stw = s.stw := rfl
@[simp] theorem State.withQdr_fuses (s : State) (f : Quad → Quad) : (s.withQdr f).fuses = s.fuses := rfl
@[simp] theorem State.withQdr_flash (s : State) (f : Quad → Quad) : (s.withQdr f).flash = s.flash := rfl
@[simp] theorem State.withQdr_pwr (s : State) (f : Quad → Quad) : (s.withQdr f).pwr = s.pwr := rfl

/-! ### withField -/

@[simp] theorem State.withField_pending (s : State) (f : Field → Field) : (s.withField f).pending = s.pending := rfl
@[simp] theorem State.withField_freeCtr (s : State) (f : Field → Field) : (s.withField f).freeCtr = s.freeCtr := rfl
@[simp] theorem State.withField_resp (s : State) (f : Field → Field) : (s.withField f).resp = s.resp := rfl
@[simp] theorem State.withField_regs (s : State) (f : Field → Field) : (s.withField f).regs = s.regs := rfl
@[simp] theorem State.withField_mem (s : State) (f : Field → Field) : (s.withField f).mem = s.mem := rfl
@[simp] theorem State.withField_lost (s : State) (f : Field → Field) : (s.withField f).lost = s.lost := rfl
@[simp] theorem State.withField_bad (s : State) (f : Field → Field) : (s.withField f).bad = s.bad := rfl
@[simp] theorem State.withField_touched (s : State) (f : Field → Field) : (s.withField f).touched = s.touched := rfl
@[simp] theorem State.withField_committed (s : State) (f : Field → Field) : (s.withField f).committed = s.committed := rfl
@[simp] theorem State.withField_upsets (s : State) (f : Field → Field) : (s.withField f).upsets = s.upsets := rfl
@[simp] theorem State.withField_order (s : State) (f : Field → Field) : (s.withField f).order = s.order := rfl
@[simp] theorem State.withField_landed (s : State) (f : Field → Field) : (s.withField f).landed = s.landed := rfl
@[simp] theorem State.withField_reservations (s : State) (f : Field → Field) : (s.withField f).reservations = s.reservations := rfl
@[simp] theorem State.withField_buffers (s : State) (f : Field → Field) : (s.withField f).buffers = s.buffers := rfl
@[simp] theorem State.withField_cache (s : State) (f : Field → Field) : (s.withField f).cache = s.cache := rfl
@[simp] theorem State.withField_busErrors (s : State) (f : Field → Field) : (s.withField f).busErrors = s.busErrors := rfl
@[simp] theorem State.withField_txns (s : State) (f : Field → Field) : (s.withField f).txns = s.txns := rfl
@[simp] theorem State.withField_armCount (s : State) (f : Field → Field) : (s.withField f).armCount = s.armCount := rfl
@[simp] theorem State.withField_memPending (s : State) (f : Field → Field) : (s.withField f).memPending = s.memPending := rfl
@[simp] theorem State.withField_snaps (s : State) (f : Field → Field) : (s.withField f).snaps = s.snaps := rfl
@[simp] theorem State.withField_tlb (s : State) (f : Field → Field) : (s.withField f).tlb = s.tlb := rfl
@[simp] theorem State.withField_dirs (s : State) (f : Field → Field) : (s.withField f).dirs = s.dirs := rfl
@[simp] theorem State.withField_devCtxs (s : State) (f : Field → Field) : (s.withField f).devCtxs = s.devCtxs := rfl
@[simp] theorem State.withField_procCtxs (s : State) (f : Field → Field) : (s.withField f).procCtxs = s.procCtxs := rfl
@[simp] theorem State.withField_iomHeld (s : State) (f : Field → Field) : (s.withField f).iomHeld = s.iomHeld := rfl
@[simp] theorem State.withField_swapRuns (s : State) (f : Field → Field) : (s.withField f).swapRuns = s.swapRuns := rfl
@[simp] theorem State.withField_throttles (s : State) (f : Field → Field) : (s.withField f).throttles = s.throttles := rfl
@[simp] theorem State.withField_throttleIrq (s : State) (f : Field → Field) : (s.withField f).throttleIrq = s.throttleIrq := rfl
@[simp] theorem State.withField_tmb (s : State) (f : Field → Field) : (s.withField f).tmb = s.tmb := rfl
@[simp] theorem State.withField_ing (s : State) (f : Field → Field) : (s.withField f).ing = s.ing := rfl
@[simp] theorem State.withField_cin (s : State) (f : Field → Field) : (s.withField f).cin = s.cin := rfl
@[simp] theorem State.withField_shz (s : State) (f : Field → Field) : (s.withField f).shz = s.shz := rfl
@[simp] theorem State.withField_stp (s : State) (f : Field → Field) : (s.withField f).stp = s.stp := rfl
@[simp] theorem State.withField_mio (s : State) (f : Field → Field) : (s.withField f).mio = s.mio := rfl
@[simp] theorem State.withField_ssu (s : State) (f : Field → Field) : (s.withField f).ssu = s.ssu := rfl
@[simp] theorem State.withField_qdr (s : State) (f : Field → Field) : (s.withField f).qdr = s.qdr := rfl
@[simp] theorem State.withField_ten (s : State) (f : Field → Field) : (s.withField f).ten = s.ten := rfl
@[simp] theorem State.withField_tlg (s : State) (f : Field → Field) : (s.withField f).tlg = s.tlg := rfl
@[simp] theorem State.withField_pcie (s : State) (f : Field → Field) : (s.withField f).pcie = s.pcie := rfl
@[simp] theorem State.withField_field (s : State) (f : Field → Field) : (s.withField f).field = f s.field := rfl
@[simp] theorem State.withField_stw (s : State) (f : Field → Field) : (s.withField f).stw = s.stw := rfl
@[simp] theorem State.withField_fuses (s : State) (f : Field → Field) : (s.withField f).fuses = s.fuses := rfl
@[simp] theorem State.withField_flash (s : State) (f : Field → Field) : (s.withField f).flash = s.flash := rfl
@[simp] theorem State.withField_pwr (s : State) (f : Field → Field) : (s.withField f).pwr = s.pwr := rfl

end Sys2Proof.Machine
end

