-- ==== Sys2Proof/Laws/Ops.lean ====
section
/-!
SUPPORT. Laws/Ops.lean: what the shared operations over registers can do: reading a register after a write, what the
event counters leave alone, and updates that concern registers only.
-/

namespace Sys2Proof.Machine

/-! ### Reading a register after a write -/

@[simp] theorem State.rget_rset (s : State) (a b : Nat) (v : Word) :
    (s.rset a v).rget b = if a = b then v else s.rget b := by
  unfold State.rget State.rset
  exact spGet_spSet resetOf s.regs a b v

theorem State.rget_rset_same (s : State) (a : Nat) (v : Word) : (s.rset a v).rget a = v := by simp

theorem State.rget_rset_ne (s : State) {a b : Nat} (v : Word) (h : a ≠ b) : (s.rset a v).rget b = s.rget b := by
  simp [h]

theorem State.rget_congr {s t : State} (h : t.regs = s.regs) (a : Nat) : t.rget a = s.rget a := by
  unfold State.rget; rw [h]

theorem State.rget_fset (s : State) (a hi lo v b : Nat) :
    (s.fset a hi lo v).rget b = if a = b then Machine.withField (s.rget a) hi lo v else s.rget b := by
  unfold State.fset; simp

theorem State.rget_fset_ne (s : State) {a b : Nat} (hi lo v : Nat) (h : a ≠ b) :
    (s.fset a hi lo v).rget b = s.rget b := by
  rw [State.rget_fset, if_neg h]

theorem State.rget_bput_ne (s : State) {a b : Nat} (i : Nat) (x : Bool) (h : a ≠ b) :
    (s.bput a i x).rget b = s.rget b := State.rget_fset_ne s _ _ _ h

theorem State.rget_flag_ne (s : State) {a b : Nat} (i : Nat) (h : a ≠ b) : (s.flag a i).rget b = s.rget b :=
  State.rget_bput_ne s _ _ h

/-- The field that was set. -/
theorem State.fget_fset_same (s : State) (a hi lo v : Nat) (h : hi < 32) :
    (s.fset a hi lo v).fget a hi lo = v % 2 ^ (hi + 1 - lo) := by
  unfold State.fget
  rw [State.rget_fset, if_pos rfl, fieldOf_withField_same _ _ _ _ h]

/-- Another field of the same register. -/
theorem State.fget_fset_apart (s : State) (a hi lo v hi' lo' : Nat) (h : hi < 32) (hd : hi < lo' ∨ hi' < lo) :
    (s.fset a hi lo v).fget a hi' lo' = s.fget a hi' lo' := by
  unfold State.fget
  rw [State.rget_fset, if_pos rfl, fieldOf_withField_ne _ _ _ _ _ _ h hd]

/-- A field of another register. -/
theorem State.fget_fset_ne (s : State) {a b : Nat} (hi lo v hi' lo' : Nat) (h : a ≠ b) :
    (s.fset a hi lo v).fget b hi' lo' = s.fget b hi' lo' := by
  unfold State.fget; rw [State.rget_fset_ne s _ _ _ h]

theorem State.bit_fset (s : State) (a hi lo v b i : Nat) (h : hi < 32) :
    (s.fset a hi lo v).bit b i =
      if a = b ∧ lo ≤ i ∧ i ≤ hi then v.testBit (i - lo) else s.bit b i := by
  unfold State.bit
  rw [State.rget_fset]
  by_cases hab : a = b
  · subst hab; simp [bitOf_withField _ _ _ _ _ h]
  · simp [hab]

/-- A bit after one bit of a register was put. -/
theorem State.bit_bput (s : State) (a i : Nat) (x : Bool) (b j : Nat) (h : i < 32) :
    (s.bput a i x).bit b j = if a = b ∧ i = j then x else s.bit b j := by
  unfold State.bput
  rw [State.bit_fset _ _ _ _ _ _ _ h]
  by_cases hij : i = j
  · subst hij
    have hb : (b2n x).testBit (i - i) = x := by rw [Nat.sub_self, b2n_testBit]
    rw [hb]; simp
  · have h1 : ¬ (i ≤ j ∧ j ≤ i) := by omega
    simp [hij, h1]

theorem State.bit_flag (s : State) (a i b j : Nat) (h : i < 32) :
    (s.flag a i).bit b j = if a = b ∧ i = j then true else s.bit b j := State.bit_bput s a i true b j h

theorem State.rget_set64 (s : State) (a v b : Nat) :
    (s.set64 a v).rget b =
      if a + 4 = b then toWord (v / 2 ^ 32) else if a = b then toWord v else s.rget b := by
  unfold State.set64; simp

/-- A 64-bit value read back (R8). -/
theorem State.get64_set64 (s : State) (a v : Nat) (h : v < 2 ^ 64) : (s.set64 a v).get64 a = v := by
  unfold State.get64
  rw [State.rget_set64, State.rget_set64]
  simp only [OfNat.ofNat_ne_zero, ↓reduceIte, Nat.add_eq_left]
  simp only [toWord, BitVec.toNat_ofNat]
  omega

/-! ### Updates of registers only -/

/-- `t` differs from `s` in registers only. -/
def State.RegsOnly (s t : State) : Prop := t = { s with regs := t.regs }

theorem State.RegsOnly.refl (s : State) : State.RegsOnly s s := rfl

theorem State.RegsOnly.trans {s t u : State} (h : State.RegsOnly s t) (k : State.RegsOnly t u) :
    State.RegsOnly s u := by
  unfold State.RegsOnly at *
  rw [k, h]

theorem State.regsOnly_rset (s : State) (a : Nat) (v : Word) : State.RegsOnly s (s.rset a v) := rfl
theorem State.regsOnly_fset (s : State) (a hi lo v : Nat) : State.RegsOnly s (s.fset a hi lo v) := rfl
theorem State.regsOnly_bput (s : State) (a i : Nat) (b : Bool) : State.RegsOnly s (s.bput a i b) := rfl
theorem State.regsOnly_flag (s : State) (a i : Nat) : State.RegsOnly s (s.flag a i) := rfl
theorem State.regsOnly_set64 (s : State) (a v : Nat) : State.RegsOnly s (s.set64 a v) := rfl

theorem State.regsOnly_ite (s : State) (c : Prop) [Decidable c] {t u : State} (ht : State.RegsOnly s t)
    (hu : State.RegsOnly s u) : State.RegsOnly s (if c then t else u) := by
  split
  · exact ht
  · exact hu

/-- A fold of register updates. -/
theorem State.regsOnly_foldl {α : Type} (f : State → α → State) (h : ∀ s x, State.RegsOnly s (f s x)) (l : List α)
    (s : State) : State.RegsOnly s (l.foldl f s) := by
  induction l generalizing s with
  | nil => exact State.RegsOnly.refl s
  | cons x l ih => exact (h s x).trans (ih _)

/-- Registers that a row of writes names. -/
theorem State.rget_foldl_rset_ne (f : Nat → Nat) (g : Nat → Word) (l : List Nat) (s : State) {a : Nat}
    (h : ∀ i ∈ l, a ≠ f i) : (l.foldl (fun t i => t.rset (f i) (g i)) s).rget a = s.rget a := by
  induction l generalizing s with
  | nil => rfl
  | cons i l ih =>
    rw [List.foldl_cons, ih _ fun j hj => h j (List.mem_cons_of_mem _ hj),
      State.rget_rset_ne s _ (h i List.mem_cons_self).symm]

/-- One register of a row of writes to different registers. -/
theorem State.rget_foldl_rset (f : Nat → Nat) (g : Nat → Word) (n : Nat) (s : State) {k : Nat} (hk : k < n)
    (hf : ∀ i j, i < n → j < n → f i = f j → i = j) :
    ((List.range n).foldl (fun t i => t.rset (f i) (g i)) s).rget (f k) = g k := by
  induction n with
  | zero => omega
  | succ n ih =>
    rw [List.range_succ, List.foldl_append, List.foldl_cons, List.foldl_nil]
    by_cases h : k = n
    · subst h; exact State.rget_rset_same _ _ _
    · rw [State.rget_rset_ne _ _ fun e => h (hf n k (by omega) (by omega) e).symm]
      exact ih (by omega) fun i j hi hj => hf i j (by omega) (by omega)

theorem State.regsOnly_foldl_rset (f : Nat → Nat) (g : Nat → Word) (l : List Nat) (s : State) :
    State.RegsOnly s (l.foldl (fun t i => t.rset (f i) (g i)) s) :=
  State.regsOnly_foldl _ (fun s _ => State.regsOnly_rset s _ _) l s

/-! ### The event counters (R633, R634) -/

theorem State.counting_lt {s : State} {e i c : Nat} (h : c ∈ s.counting e i) : c < 512 := by
  unfold State.counting at h
  obtain ⟨r, -, hr⟩ := List.mem_filterMap.mp h
  split at hr
  · next hc => simp only [Option.some.injEq] at hr; omega
  · cases hr

theorem State.regsOnly_tally (s : State) (e i n : Nat) : State.RegsOnly s (s.tally e i n) := by
  unfold State.tally
  exact State.regsOnly_ite _ _ (State.RegsOnly.refl s)
    (State.regsOnly_foldl _ (fun s c => State.regsOnly_set64 s _ _) _ _)

/-- Counting an event changes the event counters only. -/
theorem State.rget_tally (s : State) (e i n : Nat) {a : Nat} (h : ¬ isEventCounter a) :
    (s.tally e i n).rget a = s.rget a := by
  have key : ∀ (l : List Nat) (s : State), (∀ c ∈ l, c < 512) →
      (l.foldl (fun s c => s.set64 (Reg.tlgCntLo c) (s.get64 (Reg.tlgCntLo c) + n)) s).rget a = s.rget a := by
    intro l
    induction l with
    | nil => intro s _; rfl
    | cons c l ih =>
      intro s hl
      rw [List.foldl_cons, ih _ fun c hc => hl c (List.mem_cons_of_mem _ hc), State.rget_set64]
      have hc := hl c List.mem_cons_self
      unfold isEventCounter at h
      unfold Reg.tlgCntLo
      rw [if_neg (by omega), if_neg (by omega)]
  unfold State.tally
  split
  · rfl
  · exact key _ s fun c hc => State.counting_lt hc

theorem State.regsOnly_follow (s : State) (a old n : Nat) : State.RegsOnly s (s.follow a old n) :=
  State.regsOnly_tally s _ _ _

theorem State.rget_follow (s : State) (b old n : Nat) {a : Nat} (h : ¬ isEventCounter a) :
    (s.follow b old n).rget a = s.rget a := State.rget_tally s _ _ _ h

theorem State.regsOnly_count (s : State) (a n : Nat) : State.RegsOnly s (s.count a n) :=
  (State.regsOnly_rset s _ _).trans (State.regsOnly_follow _ _ _ _)

theorem State.regsOnly_bump (s : State) (a n : Nat) : State.RegsOnly s (s.bump a n) :=
  (State.regsOnly_rset s _ _).trans (State.regsOnly_follow _ _ _ _)

theorem State.regsOnly_bump64 (s : State) (a n : Nat) : State.RegsOnly s (s.bump64 a n) :=
  (State.regsOnly_set64 s _ _).trans (State.regsOnly_follow _ _ _ _)

/-- A saturating counter after it counted. -/
theorem State.rget_count (s : State) (b n : Nat) {a : Nat} (h : ¬ isEventCounter a) :
    (s.count b n).rget a = if b = a then satAdd (s.rget b) n else s.rget a := by
  unfold State.count
  rw [State.rget_follow _ _ _ _ h, State.rget_rset]

/-- A wrapping counter after it counted. -/
theorem State.rget_bump (s : State) (b n : Nat) {a : Nat} (h : ¬ isEventCounter a) :
    (s.bump b n).rget a = if b = a then s.rget b + toWord n else s.rget a := by
  unfold State.bump
  rw [State.rget_follow _ _ _ _ h, State.rget_rset]

/-- A 64-bit counter after it counted. -/
theorem State.rget_bump64 (s : State) (b n : Nat) {a : Nat} (h : ¬ isEventCounter a) :
    (s.bump64 b n).rget a =
      if b + 4 = a then toWord ((s.get64 b + n) / 2 ^ 32) else if b = a then toWord (s.get64 b + n) else s.rget a := by
  unfold State.bump64
  rw [State.rget_follow _ _ _ _ h, State.rget_set64]

/-! ### Free values -/

@[simp] theorem State.drawNat_fst (s : State) : s.drawNat.1 = Config.freeNat s.freeCtr := rfl
@[simp] theorem State.drawNat_regs (s : State) : s.drawNat.2.regs = s.regs := rfl
@[simp] theorem State.drawBit_fst (s : State) : s.drawBit.1 = Config.freeBit s.freeCtr := rfl
@[simp] theorem State.drawBit_regs (s : State) : s.drawBit.2.regs = s.regs := rfl

/-! ### Memory -/

theorem State.readByte_congr {s t : State} (hm : t.mem = s.mem) (hl : t.lost = s.lost)
    (hp : t.memPending = s.memPending) (a : Nat) : t.readByte a = s.readByte a := by
  unfold State.readByte; rw [hm, hl, hp]

theorem State.RegsOnly.sameMemory {s t : State} (h : State.RegsOnly s t) : State.SameMemory s t := by
  intro a
  unfold State.RegsOnly at h
  exact State.readByte_congr (by rw [h]) (by rw [h]) (by rw [h]) a

/-- Reading the memory after bytes were put: the bytes written, and every other byte as before. -/
theorem spGet_memPutAll (lost : List (Nat × Nat)) (bs : List Byte) (m : List Host.Cell) (a b : Nat) :
    spGet (memDefault lost) (memPutAll lost m a bs) b =
      if a ≤ b ∧ b < a + bs.length then bs.getD (b - a) 0 else spGet (memDefault lost) m b := by
  induction bs generalizing m a with
  | nil =>
    have : ¬ (a ≤ b ∧ b < a + ([] : List Byte).length) := by simp only [List.length_nil]; omega
    rw [if_neg this]; rfl
  | cons x bs ih =>
    unfold memPutAll
    rw [ih]
    unfold memPut
    rw [spGet_spSet]
    simp only [List.length_cons]
    by_cases h1 : a + 1 ≤ b ∧ b < a + 1 + bs.length
    · have h2 : a ≤ b ∧ b < a + (bs.length + 1) := by omega
      have h3 : b - a = (b - (a + 1)) + 1 := by omega
      rw [if_pos h1, if_pos h2, h3, List.getD_cons_succ]
    · rw [if_neg h1]
      by_cases h4 : a = b
      · subst h4
        have h2 : a ≤ a ∧ a < a + (bs.length + 1) := by omega
        rw [if_pos rfl, if_pos h2, Nat.sub_self, List.getD_cons_zero]
      · have h2 : ¬ (a ≤ b ∧ b < a + (bs.length + 1)) := by omega
        rw [if_neg h4, if_neg h2]

theorem memPutAll_wf (lost : List (Nat × Nat)) (bs : List Byte) (m : List Host.Cell) (a : Nat)
    (h : Memory.wf lost m) : Memory.wf lost (memPutAll lost m a bs) := by
  induction bs generalizing m a with
  | nil => exact h
  | cons x bs ih => exact ih _ _ (spSet_wf a x h)

/-- Storing bytes keeps the canonical form. -/
theorem State.rawBytes_memOk (s : State) (a : Nat) (bs : List Byte) (h : s.MemOk) : (s.rawBytes a bs).MemOk :=
  memPutAll_wf s.lost bs s.mem a h

theorem State.RegsOnly.memOk {s t : State} (h : State.RegsOnly s t) (k : s.MemOk) : t.MemOk := by
  unfold State.RegsOnly at h
  unfold State.MemOk at *
  rw [h]; exact k

theorem lostOnce_other (us : List Nat) (lost : List (Nat × Nat)) (u : Nat) (h : u ∉ us) :
    spGet (fun _ => 0) (us.foldl (fun l u => spSet (fun _ => 0) l u (spGet (fun _ => 0) l u + 1)) lost) u =
      spGet (fun _ => 0) lost u := by
  induction us generalizing lost with
  | nil => rfl
  | cons v us ih =>
    rw [List.foldl_cons, ih _ fun hu => h (List.mem_cons_of_mem _ hu)]
    exact spGet_spSet_ne _ _ _ fun hv => h (hv ▸ List.mem_cons_self)

/-- Losing the contents of some units keeps the canonical form. -/
theorem State.loseMemory_memOk (s : State) (f : Nat → Bool) (h : s.MemOk) : (s.loseMemory f).MemOk := by
  refine spWf_congr (filter_wf _ h) fun p hp => ?_
  have hf : f (memUnit p.1) = false := by
    have := (List.mem_filter.mp hp).2
    simpa using this
  have hu : memUnit p.1 ∉ (List.range 19).filter f := by
    intro hm
    have := (List.mem_filter.mp hm).2
    rw [hf] at this
    exact Bool.noConfusion this
  show memDefault (s.loseMemory f).lost p.1 = memDefault s.lost p.1
  unfold memDefault State.loseMemory
  rw [lostOnce_other _ _ _ hu]

/-- A byte of a unit that keeps its contents. -/
theorem State.readByte_loseMemory (s : State) (f : Nat → Bool) (a : Nat) (h : f (memUnit a) = false) :
    (s.loseMemory f).readByte a = s.readByte a := by
  have hu : memUnit a ∉ (List.range 19).filter f := by
    intro hm
    have := (List.mem_filter.mp hm).2
    rw [h] at this
    exact Bool.noConfusion this
  have hd : memDefault (s.loseMemory f).lost a = memDefault s.lost a := by
    unfold memDefault State.loseMemory
    rw [lostOnce_other _ _ _ hu]
  have hg : ∀ (d e : Nat → Byte) (m : List Host.Cell), e a = d a →
      spGet e (m.filter fun c => !f (memUnit c.1)) a = spGet d m a := by
    intro d e m he
    rw [spGet_filter e m (fun k => !f (memUnit k)) a, h, Bool.not_false, if_pos rfl]
    induction m with
    | nil => exact he
    | cons p m ih => unfold spGet; split <;> simp_all
  have hm : spGet (memDefault (s.loseMemory f).lost) (s.loseMemory f).mem a = spGet (memDefault s.lost) s.mem a :=
    hg _ _ _ hd
  unfold State.readByte
  rw [hm, show (s.loseMemory f).memPending = s.memPending from rfl]

/-- Writing a register keeps the canonical form of the register file. -/
theorem State.rset_regsOk (s : State) (a : Nat) (v : Word) (h : s.RegsOk) : (s.rset a v).RegsOk := spSet_wf a v h

theorem State.regsOk_reset : State.reset.RegsOk := spWf_nil _

theorem State.memOk_reset : State.reset.MemOk := spWf_nil _

end Sys2Proof.Machine
end

