-- ==== Sys2Proof/Laws/Access.lean ====
section
/-!
SUPPORT. Laws/Access.lean: everything a direct register write can do (R6, R7, R20, R122, R388, R681).
-/

namespace Sys2Proof.Machine

/-- A register that no event changed in this beat takes the value as it is written. -/
theorem State.softValue_still (s : State) (a : Nat) (v : Word)
    (h : spGet (fun _ => (0 : Word)) s.touched a = 0) : s.softValue a v = v := by
  unfold State.softValue
  rw [h]
  have hn : ~~~(0 : Word) = BitVec.allOnes 32 := by decide
  have h0 : ∀ w : Word, v ||| w &&& (0 : Word) = v := by intro w; simp
  simp only [hn, BitVec.and_allOnes, h0]

/-- A write that the register takes goes to the register's own rule, with the response DONE. -/
theorem State.softWrite_takes {s : State} {who : Initiator} {a : Nat} {v : Word} (h : s.Takes who a v)
    (act : State → Word → State) : s.softWrite who a v act = act (s.respond .done) v := by
  unfold State.softWrite
  rw [State.softValue_still s a v h.still]
  have h3 : (!isTrusted who && s.vouched a) = false := by
    rcases h.free with h | h <;> simp [h]
  simp only [h.reach, h.named, h.permit, h3, h.fresh, Bool.not_true, Bool.false_eq_true, ↓reduceIte]

/-- An address that cannot be reached: an access fault (R681). -/
theorem State.softWrite_unreachable {s : State} {a : Nat} (h : s.reachable a = false) (who : Initiator) (v : Word)
    (act : State → Word → State) : s.softWrite who a v act = s.respond .accessFault := by
  unfold State.softWrite; simp [h]

/-- An address without a register: the write is ignored (R7). -/
theorem State.softWrite_hole {s : State} {a : Nat} (hr : s.reachable a = true) (h : regRow a = none) (who : Initiator)
    (v : Word) (act : State → Word → State) : s.softWrite who a v act = s.respond .done := by
  unfold State.softWrite; simp [hr, h]

/-- A writer that the block does not admit: an access fault. -/
theorem State.softWrite_denied {s : State} {who : Initiator} {a : Nat} {v : Word} (hr : s.reachable a = true)
    (hn : (regRow a).isNone = false)
    (h : s.regPermits who a v = false) (act : State → Word → State) :
    s.softWrite who a v act = s.respond .accessFault := by
  unfold State.softWrite; simp [hr, hn, h]

/-- A vouched destination of an untrusted writer: an access fault that counts as a bypass attempt (R20, R536). -/
theorem State.softWrite_vouched {s : State} {who : Initiator} {a : Nat} {v : Word} (hr : s.reachable a = true)
    (hn : (regRow a).isNone = false) (hp : s.regPermits who a v = true) (hu : isTrusted who = false) (hv : s.vouched a = true)
    (act : State → Word → State) : s.softWrite who a v act = s.countBypass.respond .accessFault := by
  unfold State.softWrite; simp [hr, hn, hp, hu, hv]

/-- A register that a transaction wrote in this beat keeps the committed value (R122). -/
theorem State.softWrite_committed {s : State} {who : Initiator} {a : Nat} {v : Word} (hr : s.reachable a = true)
    (hn : (regRow a).isNone = false) (hp : s.regPermits who a v = true) (hf : isTrusted who = true ∨ s.vouched a = false)
    (hc : s.committed.contains a = true) (act : State → Word → State) :
    s.softWrite who a v act = s.respond .done := by
  unfold State.softWrite
  have h3 : (!isTrusted who && s.vouched a) = false := by
    rcases hf with h | h <;> simp [h]
  simp only [hr, hn, hp, h3, hc, Bool.not_true, Bool.false_eq_true, ↓reduceIte]

/-- A response changes nothing but the response. -/
theorem State.rget_respond (s : State) (r : Resp) (a : Nat) : (s.respond r).rget a = s.rget a := rfl

theorem State.sameMemory_respond (s : State) (r : Resp) : State.SameMemory s (s.respond r) := fun _ => rfl

theorem State.sameMemory_trans {s t u : State} (h : State.SameMemory s t) (k : State.SameMemory t u) :
    State.SameMemory s u := fun a => (k a).trans (h a)

theorem State.sameRegsBut_refl (s : State) (p : Nat → Prop) : State.SameRegsBut s s p := fun _ _ _ => rfl

theorem State.sameRegsBut_trans {s t u : State} {p : Nat → Prop} (h : State.SameRegsBut s t p)
    (k : State.SameRegsBut t u p) : State.SameRegsBut s u p := fun a h1 h2 => (k a h1 h2).trans (h a h1 h2)

theorem State.sameRegsBut_rset (s : State) {p : Nat → Prop} {a : Nat} (v : Word) (h : p a) :
    State.SameRegsBut s (s.rset a v) p := by
  intro b hb _
  exact State.rget_rset_ne s v fun hab => hb (hab ▸ h)

theorem State.sameRegsBut_of_regs {s t : State} (p : Nat → Prop) (h : t.regs = s.regs) : State.SameRegsBut s t p :=
  fun a _ _ => State.rget_congr h a

theorem State.sameRegsBut_tally (s : State) (p : Nat → Prop) (e i n : Nat) :
    State.SameRegsBut s (s.tally e i n) p := fun _ _ h => State.rget_tally s e i n h

theorem State.sameRegsBut_set64 (s : State) {p : Nat → Prop} {a : Nat} (v : Nat) (h : p a) (k : p (a + 4)) :
    State.SameRegsBut s (s.set64 a v) p :=
  State.sameRegsBut_trans (State.sameRegsBut_rset s _ h) (State.sameRegsBut_rset _ _ k)

theorem State.sameRegsBut_count (s : State) {p : Nat → Prop} {a : Nat} (n : Nat) (h : p a) :
    State.SameRegsBut s (s.count a n) p :=
  State.sameRegsBut_trans (State.sameRegsBut_rset s _ h) (State.sameRegsBut_tally _ _ _ _ _)

theorem State.sameRegsBut_bump (s : State) {p : Nat → Prop} {a : Nat} (n : Nat) (h : p a) :
    State.SameRegsBut s (s.bump a n) p :=
  State.sameRegsBut_trans (State.sameRegsBut_rset s _ h) (State.sameRegsBut_tally _ _ _ _ _)

/-- A fold of updates that each keep the registers outside `p`. -/
theorem State.sameRegsBut_foldl {α : Type} {p : Nat → Prop} (f : State → α → State) (l : List α)
    (h : ∀ s, ∀ x ∈ l, State.SameRegsBut s (f s x) p) (s : State) : State.SameRegsBut s (l.foldl f s) p := by
  induction l generalizing s with
  | nil => exact State.sameRegsBut_refl s p
  | cons x l ih =>
    exact State.sameRegsBut_trans (h s x List.mem_cons_self)
      (ih (fun s y hy => h s y (List.mem_cons_of_mem _ hy)) _)

/-- Writing a register by its fields' types changes at most that register. -/
theorem State.regsOnly_putTyped (s : State) (a : Nat) (v w : Word) : State.RegsOnly s (s.putTyped a v w) := by
  unfold State.putTyped
  cases regRow a with
  | none => exact State.RegsOnly.refl s
  | some r => exact State.regsOnly_rset s _ _

theorem State.sameRegsBut_putTyped (s : State) {p : Nat → Prop} {a : Nat} (v w : Word) (h : p a) :
    State.SameRegsBut s (s.putTyped a v w) p := by
  unfold State.putTyped
  cases regRow a with
  | none => exact State.sameRegsBut_refl s p
  | some r => exact State.sameRegsBut_rset s _ h

theorem State.rget_putTyped {s : State} {a : Nat} {r : RegRow} (h : regRow a = some r) (v w : Word) :
    (s.putTyped a v w).rget a = writtenWord r (s.rget a) v w := by
  unfold State.putTyped
  rw [h]
  exact State.rget_rset_same s _ _

/-! ### Updates of registers and the response only -/

theorem State.OnlyRegs.refl (s : State) : State.OnlyRegs s s := rfl

theorem State.OnlyRegs.trans {s t u : State} (h : State.OnlyRegs s t) (k : State.OnlyRegs t u) : State.OnlyRegs s u := by
  unfold State.OnlyRegs at *
  rw [k, h]

theorem State.RegsOnly.only {s t : State} (h : State.RegsOnly s t) : State.OnlyRegs s t := by
  unfold State.RegsOnly at h
  unfold State.OnlyRegs
  rw [h]

theorem State.onlyRegs_respond (s : State) (r : Resp) : State.OnlyRegs s (s.respond r) := rfl

theorem State.OnlyRegs.sameMemory {s t : State} (h : State.OnlyRegs s t) : State.SameMemory s t := by
  intro a
  unfold State.OnlyRegs at h
  exact State.readByte_congr (by rw [h]) (by rw [h]) (by rw [h]) a

/-! ### Field types -/

/-- The bits that have an access type are those of the fields of that type. -/
theorem bitOf_maskFor (r : RegRow) (k : Acc) (i : Nat) (hr : r.FieldsApart) :
    bitOf (r.maskFor k) i = r.flds.any fun f => decide (f.acc = k) && decide (f.lo ≤ i ∧ i ≤ f.hi) := by
  have key : ∀ (l : List Fld) (w : Word), (∀ f ∈ l, f.hi < 32) →
      bitOf (l.foldl (fun w f => if f.acc = k then w ||| maskOf f.hi f.lo else w) w) i =
        (bitOf w i || l.any fun f => decide (f.acc = k) && decide (f.lo ≤ i ∧ i ≤ f.hi)) := by
    intro l
    induction l with
    | nil => intro w _; simp
    | cons f l ih =>
      intro w hl
      rw [List.foldl_cons, ih _ fun g hg => hl g (List.mem_cons_of_mem _ hg), List.any_cons, ← Bool.or_assoc]
      by_cases hk : f.acc = k
      · rw [if_pos hk, bitOf_eq_getLsbD, BitVec.getLsbD_or, getLsbD_maskOf _ _ _ (hl f List.mem_cons_self)]
        simp [hk, bitOf_eq_getLsbD]
      · simp [hk]
  have h := key r.flds 0 fun f hf => (hr.1 f hf).2
  have h0 : bitOf (0 : Word) i = false := by simp [bitOf]
  rw [h0, Bool.false_or] at h
  exact h

/-- Only one field holds a bit. -/
theorem RegRow.FieldsApart.unique {r : RegRow} (hr : r.FieldsApart) {f g : Fld} (hf : f ∈ r.flds) (hg : g ∈ r.flds)
    {i : Nat} (h1 : f.lo ≤ i ∧ i ≤ f.hi) (h2 : g.lo ≤ i ∧ i ≤ g.hi) : f = g := by
  by_contra hne
  have : Std.Symm fun f g : Fld => f.hi < g.lo ∨ g.hi < f.lo := ⟨fun _ _ h => Or.symm h⟩
  rcases hr.2.forall hf hg hne with h | h <;> omega

/-- The mask of a type at a bit of one field. -/
theorem bitOf_maskFor_field {r : RegRow} (hr : r.FieldsApart) {f : Fld} (hf : f ∈ r.flds) {i : Nat}
    (h : f.lo ≤ i ∧ i ≤ f.hi) (k : Acc) : bitOf (r.maskFor k) i = decide (f.acc = k) := by
  rw [bitOf_maskFor r k i hr]
  by_cases hk : f.acc = k
  · rw [decide_eq_true hk, List.any_eq_true]
    exact ⟨f, hf, by simp [hk, h]⟩
  · rw [decide_eq_false hk, List.any_eq_false]
    intro g hg hc
    simp only [Bool.and_eq_true, decide_eq_true_eq] at hc
    exact hk (hr.unique hf hg h hc.2 ▸ hc.1)

/-- A bit of a register after a write by its fields' types (R10). -/
theorem bitOf_writtenWord {r : RegRow} (hr : r.FieldsApart) {f : Fld} (hf : f ∈ r.flds) {i : Nat}
    (h : f.lo ≤ i ∧ i ≤ f.hi) (old v hw : Word) :
    bitOf (writtenWord r old v hw) i =
      match f.acc with
      | .rw => bitOf v i
      | .w1c => (bitOf old i && !bitOf v i) || bitOf hw i
      | .w1s => bitOf old i || bitOf v i
      | _ => bitOf old i := by
  have hi : i < 32 := lt_of_le_of_lt h.2 (hr.1 f hf).2
  have m := bitOf_maskFor_field hr hf h
  simp only [bitOf_eq_getLsbD] at m ⊢
  unfold writtenWord
  simp only [BitVec.getLsbD_or, BitVec.getLsbD_and, BitVec.getLsbD_not, m, hi, decide_true, Bool.true_and]
  cases f.acc <;> simp

/-! ### Memory whose codes are good -/

theorem State.checkWords_none (s : State) (found : List ErrFinding) (ws : List Nat)
    (h : ∀ w ∈ ws, s.findingAt w found = none) : s.checkWords ws found = (s, true) := by
  induction ws with
  | nil => rfl
  | cons w ws ih =>
    have hw : s.checkWord w found = (s, true) := by
      unfold State.checkWord
      split
      · rfl
      · rw [h w List.mem_cons_self]
    unfold State.checkWords
    rw [hw]
    simp only
    rw [ih fun x hx => h x (List.mem_cons_of_mem _ hx)]
    rfl

theorem State.findingAt_clean {s : State} {w : Nat} (h : s.suspect w = false) : s.findingAt w [] = none := by
  unfold State.suspect at h
  rw [Bool.or_eq_false_iff] at h
  unfold State.findingAt
  rw [h.1, List.nil_append, List.find?_eq_none.mpr]
  · rfl
  · intro e he hw
    exact absurd (List.any_eq_true.mpr ⟨e, he, hw⟩) (by rw [h.2]; simp)

/-- Clean memory passes its codes (R65, R67). -/
theorem State.checkWords_clean {s : State} {a n : Nat} (h : s.Clean a n) : s.checkWords (dwordsOf a n) [] = (s, true) :=
  State.checkWords_none s [] _ fun w hw => State.findingAt_clean (h.2 w hw)

/-- A store to clean memory (R65). -/
theorem State.storeBytes_clean {s : State} {a : Nat} {bs : List Byte} (h : s.Clean a bs.length) :
    s.storeBytes a bs [] = (s.rawBytes a bs, true) := by
  unfold State.storeBytes State.settleAt
  rw [h.1]
  simp only [List.any_nil, Bool.false_eq_true, ↓reduceIte]
  unfold State.storeRaw
  simp only
  rw [State.checkWords_none s [] _ fun w hw => State.findingAt_clean (h.2 w (List.mem_filter.mp hw).1)]
  rfl

/-- What a byte reads as after bytes were stored. -/
theorem State.readByte_rawBytes {s : State} (h : s.memPending = []) (a : Nat) (bs : List Byte) (b : Nat) :
    (s.rawBytes a bs).readByte b = if a ≤ b ∧ b < a + bs.length then bs.getD (b - a) 0 else s.readByte b := by
  unfold State.readByte State.rawBytes
  rw [h]
  exact spGet_memPutAll s.lost bs s.mem a b

/-- The bytes that were stored. -/
theorem State.readBytes_rawBytes {s : State} (h : s.memPending = []) (a : Nat) (bs : List Byte) :
    (s.rawBytes a bs).readBytes a bs.length = bs := by
  unfold State.readBytes
  apply List.ext_getElem
  · simp
  · intro i h1 h2
    rw [List.getElem_map, List.getElem_range, State.readByte_rawBytes h, if_pos (by omega), Nat.add_sub_cancel_left,
      List.getD_eq_getElem?_getD, List.getElem?_eq_getElem h2, Option.getD_some]

theorem natToBytes_length (n v : Nat) : (natToBytes n v).length = n := by
  induction n generalizing v with
  | zero => rfl
  | succ n ih => simp [natToBytes, ih]

/-! ### Rows that stand for a register write -/

/-- A row whose operands name something. -/
theorem named_next {p : Prop} [Decidable p] (h : p) (s t : State) : s.named (decide p) t = .next t := by
  rw [decide_eq_true h]; rfl

/-- Every row that stands for a register write takes the one path of direct writes. -/
theorem writeOf_exec {c : Instr} {s : State} {who : Initiator} {a : Nat} {v : Word}
    (h : s.writeOf c = some (who, a, v)) : ∃ act, exec c s = .next (s.softWrite who a v act) := by
  cases c <;> first
    | (cases h; done)
    | (cases h; exact ⟨_, rfl⟩)
    | (simp only [State.writeOf] at h
       split at h
       · rename_i hc
         cases h
         exact ⟨_, named_next hc _ _⟩
       · cases h)
    | skip
  · rename_i w i addr value
    simp only [State.writeOf] at h
    split at h
    · rename_i hc
      cases addr
      · cases h; exact ⟨fun s v => s.streamCfgWrite i v, named_next hc _ _⟩
      · cases h; exact ⟨fun s v => s.streamAddrWrite i v, named_next hc _ _⟩
    · cases h
  · rename_i w l o value
    simp only [State.writeOf] at h
    split at h
    · rename_i hc
      cases h
      refine ⟨fun s v => s.loopWrite l o v, ?_⟩
      show s.named (decide (l < 128) && structuralRegs.contains o) _ = _
      rw [decide_eq_true hc.1, hc.2]; rfl
    · cases h

/-! ### Processors and memory -/

/-- A processor's store outside register space and the windows. -/
theorem store_inMemory {s : State} {who : Initiator} {a size v : Nat} {found : List ErrFinding} (hp : isProcessor who = true) (hs : sizeOk size = true)
   (hal : alignedFor who a size = true) (him : inMemory a) : s.store who a size v found = s.storeMemory who a size v found := by
  obtain ⟨h1, h2, h3⟩ := him
  unfold State.store
  simp only [hp, hs, hal, Bool.not_true, Bool.or_self, Bool.false_eq_true, ↓reduceIte]

/-- A processor's load outside register space and the windows. -/
theorem load_inMemory {s : State} {who : Initiator} {a size : Nat} {found : List ErrFinding} (hp : isProcessor who = true) (hs : sizeOk size = true)
   (hal : alignedFor who a size = true) (him : inMemory a) : s.load who a size found = s.loadMemory who a size found := by
  obtain ⟨h1, h2, h3⟩ := him
  unfold State.load
  simp only [hp, hs, hal, Bool.not_true, Bool.or_self, Bool.false_eq_true, ↓reduceIte]

end Sys2Proof.Machine
end

