-- ==== Sys2Proof/Laws/Buckles.lean ====
section
/-!
SUPPORT. Laws/Buckles.lean: what evaluating waits and reaching a buckle can change (R98 to R104).
-/

namespace Sys2Proof.Machine

theorem State.evalSlot_eq (s : State) (k w : Nat) :
    s.evalSlot k w = s ∨ s.evalSlot k w = s.rset (Reg.bklWaitStatus k w) 2 := by
  unfold State.evalSlot
  simp only
  split
  · exact .inr rfl
  · exact .inl rfl

theorem State.regsOnly_evalSlot (s : State) (k w : Nat) : State.RegsOnly s (s.evalSlot k w) := by
  rcases State.evalSlot_eq s k w with h | h <;> rw [h]
  · exact State.RegsOnly.refl s
  · exact State.regsOnly_rset s _ _

theorem State.rget_evalSlot_ne (s : State) {k w a : Nat} (h : a ≠ Reg.bklWaitStatus k w) :
    (s.evalSlot k w).rget a = s.rget a := by
  rcases State.evalSlot_eq s k w with h' | h' <;> rw [h']
  exact State.rget_rset_ne s _ h.symm

theorem State.evalSlotFor_eq (s : State) (b i : Nat) :
    s.evalSlotFor b i = s ∨ s.evalSlotFor b i = s.evalSlot (i / 64) (i % 64) := by
  unfold State.evalSlotFor
  split
  · exact .inr rfl
  · exact .inl rfl

theorem State.regsOnly_evalSlotFor (s : State) (b i : Nat) : State.RegsOnly s (s.evalSlotFor b i) := by
  rcases State.evalSlotFor_eq s b i with h | h <;> rw [h]
  · exact State.RegsOnly.refl s
  · exact State.regsOnly_evalSlot s _ _

theorem State.rget_evalSlotFor_ne (s : State) {b i a : Nat} (h : a ≠ Reg.bklWaitStatus (i / 64) (i % 64)) :
    (s.evalSlotFor b i).rget a = s.rget a := by
  rcases State.evalSlotFor_eq s b i with h' | h' <;> rw [h']
  exact State.rget_evalSlot_ne s h

theorem State.regsOnly_evalWaits (s : State) (b : Nat) : State.RegsOnly s (s.evalWaits b) :=
  State.regsOnly_foldl _ (fun s i => State.regsOnly_evalSlotFor s b i) _ _

/-- Evaluating waits changes the statuses of wait slots only. -/
theorem State.rget_evalWaits_ne (s : State) (b : Nat) {a : Nat}
    (h : ∀ k w, k < 4 → w < 64 → a ≠ Reg.bklWaitStatus k w) : (s.evalWaits b).rget a = s.rget a := by
  have key : ∀ (l : List Nat) (s : State), (∀ i ∈ l, i < 256) →
      (l.foldl (fun s i => s.evalSlotFor b i) s).rget a = s.rget a := by
    intro l
    induction l with
    | nil => intro s _; rfl
    | cons i l ih =>
      intro s hl
      have := hl i List.mem_cons_self
      rw [List.foldl_cons, ih _ fun j hj => hl j (List.mem_cons_of_mem _ hj),
        State.rget_evalSlotFor_ne _ (h _ _ (by omega) (by omega))]
  exact key _ s fun i hi => List.mem_range.mp hi

/-- The status of one slot after every slot that watches buckle b was evaluated. -/
theorem State.rget_evalWaits (s : State) {b k w : Nat} (hk : k < 4) (hw : w < 64) :
    (s.evalWaits b).rget (Reg.bklWaitStatus k w) = (s.evalSlotFor b (64 * k + w)).rget (Reg.bklWaitStatus k w) := by
  have other : ∀ (l : List Nat) (s : State), (∀ i ∈ l, i ≠ 64 * k + w ∧ i < 256) →
      (l.foldl (fun s i => s.evalSlotFor b i) s).rget (Reg.bklWaitStatus k w) = s.rget (Reg.bklWaitStatus k w) := by
    intro l
    induction l with
    | nil => intro s _; rfl
    | cons i l ih =>
      intro s h
      have hi := h i List.mem_cons_self
      rw [List.foldl_cons, ih _ fun j hj => h j (List.mem_cons_of_mem _ hj), State.rget_evalSlotFor_ne]
      unfold Reg.bklWaitStatus
      omega
  have same : ∀ (l : List Nat) (s : State) (a : Nat), (∀ i ∈ l, i < 256) →
      (∀ k w, k < 4 → w < 64 → a ≠ Reg.bklWaitStatus k w) →
      (l.foldl (fun s i => s.evalSlotFor b i) s).rget a = s.rget a := by
    intro l
    induction l with
    | nil => intros; rfl
    | cons i l ih =>
      intro s a hl h
      have := hl i List.mem_cons_self
      rw [List.foldl_cons, ih _ _ (fun j hj => hl j (List.mem_cons_of_mem _ hj)) h,
        State.rget_evalSlotFor_ne _ (h _ _ (by omega) (by omega))]
  have hn : 64 * k + w < 256 := by omega
  have hsplit : List.range 256 = List.range (64 * k + w) ++ (64 * k + w) ::
      (List.range (255 - (64 * k + w))).map fun i => 64 * k + w + 1 + i := by
    generalize 64 * k + w = n at hn
    have e : 256 = n + (1 + (255 - n)) := by omega
    conv_lhs => rw [e, List.range_add, List.range_add]
    simp [Nat.add_assoc]
  unfold State.evalWaits
  rw [hsplit, List.foldl_append, List.foldl_cons, other]
  · have key : ∀ (s t : State),
        (∀ a, (∀ k w, k < 4 → w < 64 → a ≠ Reg.bklWaitStatus k w) → t.rget a = s.rget a) →
        t.rget (Reg.bklWaitStatus k w) = s.rget (Reg.bklWaitStatus k w) →
        (t.evalSlotFor b (64 * k + w)).rget (Reg.bklWaitStatus k w) =
          (s.evalSlotFor b (64 * k + w)).rget (Reg.bklWaitStatus k w) := by
      intro s t h1 h2
      have e1 : (64 * k + w) / 64 = k := by omega
      have e2 : (64 * k + w) % 64 = w := by omega
      have hc : t.rget (Reg.bklWaitCfg k w) = s.rget (Reg.bklWaitCfg k w) :=
        h1 _ fun k' w' hk' hw' => by unfold Reg.bklWaitCfg Reg.bklWaitStatus; omega
      have ht : t.rget (Reg.bklWaitTarget k w) = s.rget (Reg.bklWaitTarget k w) :=
        h1 _ fun k' w' hk' hw' => by unfold Reg.bklWaitTarget Reg.bklWaitStatus; omega
      have hb : ∀ n, n < 16384 → t.buckle n = s.buckle n := fun n hn =>
        h1 _ fun k' w' hk' hw' => by unfold Reg.bkl Reg.bklWaitStatus; omega
      have hbb : t.buckle (fieldOf (s.rget (Reg.bklWaitCfg k w)) 13 0) =
          s.buckle (fieldOf (s.rget (Reg.bklWaitCfg k w)) 13 0) := hb _ (fieldOf_lt _ _ _)
      have hbit : t.bit (Reg.bklWaitStatus k w) 0 = s.bit (Reg.bklWaitStatus k w) 0 := by
        unfold State.bit; rw [h2]
      unfold State.evalSlotFor State.evalSlot State.fget
      simp only [e1, e2, hc, ht, hbb, hbit]
      split
      · split
        · rw [State.rget_rset_same, State.rget_rset_same]
        · exact h2
      · exact h2
    apply key
    · intro a ha; exact same _ _ _ (fun i hi => by have := List.mem_range.mp hi; omega) ha
    · apply other
      intro i hi
      have := List.mem_range.mp hi
      omega
  · intro i hi
    obtain ⟨j, hj, rfl⟩ := List.mem_map.mp hi
    have := List.mem_range.mp hj
    omega

/-- What the golden run of Caller 0 that a buckle starts can change. -/
theorem State.goldenArm_regs (s : State) (b : Nat) (c : Bool) {a : Nat} (he : ¬ isEventCounter a)
    (h1 : a ≠ Reg.calGoldenStatus) (h2 : a ≠ Reg.calGoldenMissedCount) : (s.goldenArm b c).rget a = s.rget a := by
  unfold State.goldenArm
  split
  · show (State.flag _ Reg.calGoldenStatus 0).rget a = _
    rw [State.rget_flag_ne _ _ h1.symm]
    split
    · rw [State.rget_flag_ne _ _ h1.symm, State.rget_count _ _ _ he, if_neg h2.symm]
    · rfl
  · rfl

theorem State.goldenArm_frame (s : State) (b : Nat) (c : Bool) :
    (s.goldenArm b c).mem = s.mem ∧ (s.goldenArm b c).lost = s.lost ∧
      (s.goldenArm b c).memPending = s.memPending ∧ (s.goldenArm b c).resp = s.resp := by
  unfold State.goldenArm
  split
  · simp only
    split
    · have h : State.RegsOnly s (((s.count Reg.calGoldenMissedCount 1).flag Reg.calGoldenStatus 1).flag
          Reg.calGoldenStatus 0) :=
        ((State.regsOnly_count s _ _).trans (State.regsOnly_flag _ _ _)).trans (State.regsOnly_flag _ _ _)
      unfold State.RegsOnly at h
      refine ⟨?_, ?_, ?_, ?_⟩
      · show (State.flag _ _ _).mem = _; rw [h]
      · show (State.flag _ _ _).lost = _; rw [h]
      · show (State.flag _ _ _).memPending = _; rw [h]
      · show (State.flag _ _ _).resp = _; rw [h]
    · exact ⟨rfl, rfl, rfl, rfl⟩
  · exact ⟨rfl, rfl, rfl, rfl⟩

/-- The buckle after it took a value. -/
theorem State.buckle_putBuckle (s : State) (b : Nat) (v : Word) (hb : b < 16384) : (s.putBuckle b v).buckle b = v := by
  have e : ¬ isEventCounter (Reg.bkl b) := by unfold isEventCounter Reg.bkl; omega
  have w : ∀ k w, k < 4 → w < 64 → Reg.bkl b ≠ Reg.bklWaitStatus k w := by
    intro k w hk hw; unfold Reg.bkl Reg.bklWaitStatus; omega
  unfold State.putBuckle
  show (State.goldenArm _ _ _).rget (Reg.bkl b) = v
  rw [State.goldenArm_regs _ _ _ e (by unfold Reg.bkl Reg.calGoldenStatus; omega)
      (by unfold Reg.bkl Reg.calGoldenMissedCount; omega),
    State.rget_evalWaits_ne _ _ w, State.rget_rset_same]

/-- The registers that giving a buckle a value leaves alone. -/
theorem State.rget_putBuckle_ne (s : State) (b : Nat) (v : Word) {a : Nat} (he : ¬ isEventCounter a)
    (h0 : a ≠ Reg.bkl b) (h1 : a ≠ Reg.calGoldenStatus) (h2 : a ≠ Reg.calGoldenMissedCount)
    (h3 : ∀ k w, k < 4 → w < 64 → a ≠ Reg.bklWaitStatus k w) : (s.putBuckle b v).rget a = s.rget a := by
  unfold State.putBuckle
  rw [State.goldenArm_regs _ _ _ he h1 h2, State.rget_evalWaits_ne _ _ h3, State.rget_rset_ne _ _ h0.symm]

/-- Giving a buckle a value touches no memory and no response. -/
theorem State.putBuckle_frame (s : State) (b : Nat) (v : Word) :
    (s.putBuckle b v).mem = s.mem ∧ (s.putBuckle b v).lost = s.lost ∧
      (s.putBuckle b v).memPending = s.memPending ∧ (s.putBuckle b v).resp = s.resp := by
  have h : State.RegsOnly s ((s.rset (Reg.bkl b) v).evalWaits b) :=
    (State.regsOnly_rset s _ _).trans (State.regsOnly_evalWaits _ _)
  unfold State.RegsOnly at h
  unfold State.putBuckle
  obtain ⟨g1, g2, g3, g4⟩ :=
    State.goldenArm_frame ((s.rset (Reg.bkl b) v).evalWaits b) b (decide (s.buckle b ≠ v))
  refine ⟨g1.trans ?_, g2.trans ?_, g3.trans ?_, g4.trans ?_⟩ <;> rw [h]

/-- Landing a group of signals gives the buckle its value and keeps the group beside it. -/
theorem State.land_frame (s : State) (b : Nat) (v : Word) (sigs : List Signal) :
    (s.land b v sigs).regs = (s.putBuckle b v).regs ∧ (s.land b v sigs).mem = s.mem ∧ (s.land b v sigs).lost = s.lost ∧
      (s.land b v sigs).memPending = s.memPending ∧ (s.land b v sigs).resp = s.resp := by
  obtain ⟨h1, h2, h3, h4⟩ := State.putBuckle_frame s b v
  exact ⟨rfl, h1, h2, h3, h4⟩

theorem State.rget_land (s : State) (b : Nat) (v : Word) (sigs : List Signal) (a : Nat) :
    (s.land b v sigs).rget a = (s.putBuckle b v).rget a := State.rget_congr (State.land_frame s b v sigs).1 a

/-- No group of this cycle has acted before: nothing is taken back. -/
theorem State.takeBackAll_zero (s : State) (b : Nat) : s.takeBackAll b 0 = s := rfl

/-- The signals of one cycle, all of which may act: the last sets and every add. -/
theorem State.signalAll_allowed (s : State) (b : Nat) (sigs : List Signal) (hne : sigs ≠ [])
    (h : ∀ g ∈ sigs, s.signalAllowed b g = true) :
    s.signalAll b sigs = ((s.lastSetValue (s.buckle b) sigs).2).land b
      ((s.lastSetValue (s.buckle b) sigs).1 + sumAdds sigs) sigs := by
  have hf : sigs.filter (s.signalAllowed b) = sigs := List.filter_eq_self.mpr h
  have hn : ∀ (l : List Signal), (∀ g ∈ l, s.signalAllowed b g = true) → l.foldl (fun t g => t.noteSignal b g) s = s := by
    intro l
    induction l with
    | nil => intro _; rfl
    | cons g l ih =>
      intro hl
      have hg := hl g List.mem_cons_self
      have : s.noteSignal b g = s := by
        unfold State.signalAllowed at hg
        unfold State.noteSignal
        simp only [Bool.and_eq_true, Bool.or_eq_true, Bool.not_eq_true'] at hg
        obtain ⟨h1, h2 | h2⟩ := hg <;> simp [h1, h2]
      rw [List.foldl_cons, this]
      exact ih fun x hx => hl x (List.mem_cons_of_mem _ hx)
  have he : sigs.isEmpty = false := by cases sigs <;> simp_all
  unfold State.signalAll
  simp only [hf, hn sigs h, he, Bool.false_eq_true, ↓reduceIte]

/-- The sum of the adds among some signals. -/
theorem sumAdds_eq (sigs : List Signal) : sumAdds sigs = ((sigs.filter fun g => !g.isSet).map (·.amount)).sum := by
  have key : ∀ (l : List Signal) (d : Word), l.foldl (fun d g => if g.isSet then d else d + g.amount) d =
      d + ((l.filter fun g => !g.isSet).map (·.amount)).sum := by
    intro l
    induction l with
    | nil => intro d; simp
    | cons g l ih =>
      intro d
      rw [List.foldl_cons, ih]
      cases h : g.isSet
      · simp only [h, List.filter_cons, Bool.not_false, ↓reduceIte, List.map_cons, List.sum_cons, Bool.false_eq_true]
        exact add_assoc _ _ _
      · simp [h]
  have := key sigs 0
  rw [zero_add] at this
  exact this

end Sys2Proof.Machine
end

