-- ==== Sys2Proof/Laws/PerInstr.lean ====
section
/-!
SUPPORT. Laws/PerInstr.lean: the register write that a command stands for goes to a word of register space (R4, R6), for
every command.
-/

namespace Sys2Proof.Laws.Placement

open Sys2Proof Sys2Proof.Machine

/-- An aligned address of register space. -/
def Placed (a : Nat) : Prop := 0x10000000 ≤ a ∧ a < 0x20000000 ∧ a % 4 = 0

/-- Where the command stands for a register write, its address is a word of register space. -/
def Statement (i : Instr) : Prop := ∀ s who a v, State.writeOf s i = some (who, a, v) → Placed a

theorem none_placed {who : Initiator} {a : Nat} {v : Word} (h : (none : Option (Initiator × Nat × Word)) = some (who, a, v)) :
    Placed a := nomatch h

theorem some_placed {x who : Initiator} {b a : Nat} {y v : Word} (h : some (x, b, y) = some (who, a, v)) (hb : Placed b) :
    Placed a := by
  injection h with h
  injection h with _ h
  injection h with h
  exact h ▸ hb

theorem ite_placed {p : Prop} [Decidable p] {x who : Initiator} {b a : Nat} {y v : Word}
    (h : (if p then some (x, b, y) else none) = some (who, a, v)) (hb : p → Placed b) : Placed a := by
  split at h
  · exact some_placed h (hb ‹p›)
  · nomatch h

theorem registerWrite (who : Initiator) (addr : Nat) (value hwSet : Word) : Statement (.registerWrite who addr value hwSet) :=
  fun _ _ _ _ h => none_placed h

theorem rcRegisterRead (who : Initiator) (addr events : Nat) : Statement (.rcRegisterRead who addr events) :=
  fun _ _ _ _ h => none_placed h

theorem processorLoad (who : Initiator) (addr size : Nat) (found : List ErrFinding) : Statement (.processorLoad who addr size found) :=
  fun _ _ _ _ h => none_placed h

theorem processorStore (who : Initiator) (op : StoreOp) (addr size value : Nat) (found : List ErrFinding) : Statement (.processorStore who op addr size value found) :=
  fun _ _ _ _ h => none_placed h

theorem lrScAmo (who : Initiator) (op : AtomicOp) (addr size value : Nat) (found : List ErrFinding) : Statement (.lrScAmo who op addr size value found) :=
  fun _ _ _ _ h => none_placed h

theorem fenceInstruction (who : Initiator) (pred succ : Nat) : Statement (.fenceInstruction who pred succ) :=
  fun _ _ _ _ h => none_placed h

theorem cantleScrubPass (previousDone : Bool) (found : List ErrFinding) : Statement (.cantleScrubPass previousDone found) :=
  fun _ _ _ _ h => none_placed h

theorem trbScrubPass (found : List ErrFinding) : Statement (.trbScrubPass found) :=
  fun _ _ _ _ h => none_placed h

theorem trbImbalanceWindowEnd (accesses : List (Nat × Nat)) : Statement (.trbImbalanceWindowEnd accesses) :=
  fun _ _ _ _ h => none_placed h

theorem stackThrottle (stack : Nat) (cause : ThrottleCause) (on : Bool) : Statement (.stackThrottle stack cause on) :=
  fun _ _ _ _ h => none_placed h

theorem trbTrainingDone (passed : List Nat) : Statement (.trbTrainingDone passed) :=
  fun _ _ _ _ h => none_placed h

theorem pocketCommitGo (who : Initiator) : Statement (.pocketCommitGo who) :=
  fun _ _ _ _ h => some_placed h (by unfold Placed Reg.canPocketCommit; omega)

theorem iomSwapRootHiWrite (who : Initiator) (n : Nat) (value : Word) (oldWalks : Nat) (writeError : Bool) : Statement (.iomSwapRootHiWrite who n value oldWalks writeError) :=
  fun _ _ _ _ h => ite_placed h fun hp => by unfold Placed Reg.iomSwapRootHi; omega

theorem iomSwapDone (n : Nat) : Statement (.iomSwapDone n) :=
  fun _ _ _ _ h => none_placed h

theorem iotlbWalkComplete (dev pid iova : Nat) (isWrite : Bool) (old : Option Nat) : Statement (.iotlbWalkComplete dev pid iova isWrite old) :=
  fun _ _ _ _ h => none_placed h

theorem iotinvalVma (addr pscid : Option Nat) : Statement (.iotinvalVma addr pscid) :=
  fun _ _ _ _ h => none_placed h

theorem iotinvalGvma (addr gscid : Option Nat) : Statement (.iotinvalGvma addr gscid) :=
  fun _ _ _ _ h => none_placed h

theorem iodirInvalDdt (dev : Option Nat) : Statement (.iodirInvalDdt dev) :=
  fun _ _ _ _ h => none_placed h

theorem iodirInvalPdt (dev pid : Nat) : Statement (.iodirInvalPdt dev pid) :=
  fun _ _ _ _ h => none_placed h

theorem iofenceC (store : Option (Nat × Word)) : Statement (.iofenceC store) :=
  fun _ _ _ _ h => none_placed h

theorem stallCounterClear (who : Initiator) (bank : StallBank) : Statement (.stallCounterClear who bank) :=
  fun _ _ _ _ h => some_placed h (by unfold Placed; cases bank <;> decide)

theorem buckleSet (who : Initiator) (b : Nat) (value : Word) (others : List Signal) : Statement (.buckleSet who b value others) :=
  fun _ _ _ _ h => ite_placed h fun hp => by unfold Placed Reg.bkl; omega

theorem buckleAdd (who : Initiator) (b : Nat) (amount : Word) (others : List Signal) : Statement (.buckleAdd who b amount others) :=
  fun _ _ _ _ h => ite_placed h fun hp => by unfold Placed Reg.bklAdd; omega

theorem waitArm (who : Initiator) (block slot buckle : Nat) (equal : Bool) : Statement (.waitArm who block slot buckle equal) :=
  fun _ _ _ _ h => ite_placed h fun hp => by unfold Placed Reg.bklWaitCfg; omega

theorem waitDisarm (who : Initiator) (block slot buckle : Nat) (equal : Bool) : Statement (.waitDisarm who block slot buckle equal) :=
  fun _ _ _ _ h => ite_placed h fun hp => by unfold Placed Reg.bklWaitCfg; omega

theorem waitTargetWrite (who : Initiator) (block slot : Nat) (value : Word) : Statement (.waitTargetWrite who block slot value) :=
  fun _ _ _ _ h => ite_placed h fun hp => by unfold Placed Reg.bklWaitTarget; omega

theorem txnOpen (who : Initiator) (n : Nat) : Statement (.txnOpen who n) :=
  fun _ _ _ _ h => ite_placed h fun hp => by unfold Placed Reg.txnCtrl; omega

theorem txnArm (who : Initiator) (n : Nat) (timestamp sameCycle : Bool) : Statement (.txnArm who n timestamp sameCycle) :=
  fun _ _ _ _ h => ite_placed h fun hp => by unfold Placed Reg.txnCtrl; omega

theorem txnAbort (who : Initiator) (n : Nat) : Statement (.txnAbort who n) :=
  fun _ _ _ _ h => ite_placed h fun hp => by unfold Placed Reg.txnCtrl; omega

theorem txnRelease (who : Initiator) (n : Nat) : Statement (.txnRelease who n) :=
  fun _ _ _ _ h => ite_placed h fun hp => by unfold Placed Reg.txnCtrl; omega

theorem txnStagePush (who : Initiator) (n : Nat) : Statement (.txnStagePush who n) :=
  fun _ _ _ _ h => ite_placed h fun hp => by unfold Placed Reg.txnStagePush; omega

theorem txnCommitBeat : Statement (.txnCommitBeat) :=
  fun _ _ _ _ h => none_placed h

theorem txnMemoryEntryWrite : Statement (.txnMemoryEntryWrite) :=
  fun _ _ _ _ h => none_placed h

theorem txnTimeout (n : Nat) : Statement (.txnTimeout n) :=
  fun _ _ _ _ h => none_placed h

theorem txnSnapGo (who : Initiator) (slots : Nat) : Statement (.txnSnapGo who slots) :=
  fun _ _ _ _ h => some_placed h (by unfold Placed Reg.txnSnapGo; omega)

theorem snapshotLatch : Statement (.snapshotLatch) :=
  fun _ _ _ _ h => none_placed h

theorem snapshotComplete (slot : Nat) : Statement (.snapshotComplete slot) :=
  fun _ _ _ _ h => none_placed h

theorem operandUncorrectable (parity : Bool) : Statement (.operandUncorrectable parity) :=
  fun _ _ _ _ h => none_placed h

theorem tileKPassEnd (operandWait drainWait : Nat) : Statement (.tileKPassEnd operandWait drainWait) :=
  fun _ _ _ _ h => none_placed h

theorem tileDrainEnd (corrupt : List (Nat × Nat × Nat)) : Statement (.tileDrainEnd corrupt) :=
  fun _ _ _ _ h => none_placed h

theorem hideDisable (who : Initiator) : Statement (.hideDisable who) :=
  fun _ _ _ _ h => some_placed h (by unfold Placed Reg.hidCtrl; omega)

theorem hideEnable (who : Initiator) : Statement (.hideEnable who) :=
  fun _ _ _ _ h => some_placed h (by unfold Placed Reg.hidCtrl; omega)

theorem hidCycClear (who : Initiator) : Statement (.hidCycClear who) :=
  fun _ _ _ _ h => some_placed h (by unfold Placed Reg.hidCycClr; omega)

theorem windowFill (n : Nat) : Statement (.windowFill n) :=
  fun _ _ _ _ h => none_placed h

theorem windowSlotFree (n : Nat) : Statement (.windowSlotFree n) :=
  fun _ _ _ _ h => none_placed h

theorem latWinCfgWrite (who : Initiator) (n : Nat) (base : Bool) (value : Word) : Statement (.latWinCfgWrite who n base value) :=
  fun _ _ _ _ h => ite_placed h fun hp => by unfold Placed Reg.latWinBase Reg.latWinCfg; split <;> omega

theorem latWinRateWrite (who : Initiator) (n : Nat) (value : Word) : Statement (.latWinRateWrite who n value) :=
  fun _ _ _ _ h => ite_placed h fun hp => by unfold Placed Reg.latWinRate; omega

theorem latigoDisable (who : Initiator) : Statement (.latigoDisable who) :=
  fun _ _ _ _ h => some_placed h (by unfold Placed Reg.latCtrl; omega)

theorem latigoEnable (who : Initiator) : Statement (.latigoEnable who) :=
  fun _ _ _ _ h => some_placed h (by unfold Placed Reg.latCtrl; omega)

theorem ringTailWrite (who : Initiator) (ring : Nat) (value : Word) : Statement (.ringTailWrite who ring value) :=
  fun _ _ _ _ h => ite_placed h fun hp => by unfold Placed Reg.calRingTail; omega

theorem ringHeadWrite (who : Initiator) (ring : Nat) (value : Word) : Statement (.ringHeadWrite who ring value) :=
  fun _ _ _ _ h => ite_placed h fun hp => by unfold Placed Reg.calRingHead; omega

theorem ringCfgWrite (who : Initiator) (ring : Nat) (value : Word) : Statement (.ringCfgWrite who ring value) :=
  fun _ _ _ _ h => ite_placed h fun hp => by unfold Placed Reg.calRingCfg; omega

theorem ringEnable (who : Initiator) (ring : Nat) : Statement (.ringEnable who ring) :=
  fun _ _ _ _ h => ite_placed h fun hp => by unfold Placed Reg.calRingCtrl; omega

theorem ringDisable (who : Initiator) (ring : Nat) : Statement (.ringDisable who ring) :=
  fun _ _ _ _ h => ite_placed h fun hp => by unfold Placed Reg.calRingCtrl; omega

theorem ringResume (who : Initiator) (ring : Nat) : Statement (.ringResume who ring) :=
  fun _ _ _ _ h => ite_placed h fun hp => by unfold Placed Reg.calRingCtrl; omega

theorem ringStop (who : Initiator) (ring : Nat) : Statement (.ringStop who ring) :=
  fun _ _ _ _ h => ite_placed h fun hp => by unfold Placed Reg.calRingCtrl; omega

theorem ringStopped (ring : Nat) : Statement (.ringStopped ring) :=
  fun _ _ _ _ h => none_placed h

theorem descriptorRead (ring : Nat) : Statement (.descriptorRead ring) :=
  fun _ _ _ _ h => none_placed h

theorem rejectedOpEnd (ring : Nat) : Statement (.rejectedOpEnd ring) :=
  fun _ _ _ _ h => none_placed h

theorem tensorClockChange : Statement (.tensorClockChange) :=
  fun _ _ _ _ h => none_placed h

theorem powerThrottleStart : Statement (.powerThrottleStart) :=
  fun _ _ _ _ h => none_placed h

theorem matmul (ring : Nat) : Statement (.matmul ring) :=
  fun _ _ _ _ h => none_placed h

theorem conv (ring : Nat) : Statement (.conv ring) :=
  fun _ _ _ _ h => none_placed h

theorem golden : Statement (.golden) :=
  fun _ _ _ _ h => none_placed h

theorem attnScore (ring : Nat) : Statement (.attnScore ring) :=
  fun _ _ _ _ h => none_placed h

theorem attnValue (ring : Nat) : Statement (.attnValue ring) :=
  fun _ _ _ _ h => none_placed h

theorem attnMerge (ring : Nat) : Statement (.attnMerge ring) :=
  fun _ _ _ _ h => none_placed h

theorem attnBwd (ring : Nat) : Statement (.attnBwd ring) :=
  fun _ _ _ _ h => none_placed h

theorem reelScan (ring : Nat) : Statement (.reelScan ring) :=
  fun _ _ _ _ h => none_placed h

theorem eltwise (ring : Nat) : Statement (.eltwise ring) :=
  fun _ _ _ _ h => none_placed h

theorem cropResize (ring : Nat) : Statement (.cropResize ring) :=
  fun _ _ _ _ h => none_placed h

theorem fetch (ring : Nat) : Statement (.fetch ring) :=
  fun _ _ _ _ h => none_placed h

theorem nop (ring : Nat) : Statement (.nop ring) :=
  fun _ _ _ _ h => none_placed h

theorem fence (ring : Nat) : Statement (.fence ring) :=
  fun _ _ _ _ h => none_placed h

theorem opEnd (outputWait cycles : Nat) (lat tng : List TenCycle) : Statement (.opEnd outputWait cycles lat tng) :=
  fun _ _ _ _ h => none_placed h

theorem opOverrun (cycles : Nat) : Statement (.opOverrun cycles) :=
  fun _ _ _ _ h => none_placed h

theorem goldenLatestExpiry : Statement (.goldenLatestExpiry) :=
  fun _ _ _ _ h => none_placed h

theorem goldenRunInsert : Statement (.goldenRunInsert) :=
  fun _ _ _ _ h => none_placed h

theorem tangoDisable (who : Initiator) : Statement (.tangoDisable who) :=
  fun _ _ _ _ h => some_placed h (by unfold Placed Reg.tngCtrl; omega)

theorem tangoEnable (who : Initiator) : Statement (.tangoEnable who) :=
  fun _ _ _ _ h => some_placed h (by unfold Placed Reg.tngCtrl; omega)

theorem visionDisable (who : Initiator) : Statement (.visionDisable who) :=
  fun _ _ _ _ h => some_placed h (by unfold Placed Reg.visCtrl; omega)

theorem visionEnable (who : Initiator) : Statement (.visionEnable who) :=
  fun _ _ _ _ h => some_placed h (by unfold Placed Reg.visCtrl; omega)

theorem streamCfgWrite (who : Initiator) (i : Nat) (addr : Bool) (value : Word) : Statement (.streamCfgWrite who i addr value) :=
  fun _ _ _ _ h => ite_placed h fun hp => by unfold Placed Reg.relStrAddr Reg.relStrCfg; split <;> omega

theorem streamReset (who : Initiator) (i : Nat) : Statement (.streamReset who i) :=
  fun _ _ _ _ h => ite_placed h fun hp => by unfold Placed Reg.relStrCfg; omega

theorem reelDisable (who : Initiator) : Statement (.reelDisable who) :=
  fun _ _ _ _ h => some_placed h (by unfold Placed Reg.relCtrl; omega)

theorem reelEnable (who : Initiator) : Statement (.reelEnable who) :=
  fun _ _ _ _ h => some_placed h (by unfold Placed Reg.relCtrl; omega)

theorem timeRateWrite (who : Initiator) (value : Word) : Statement (.timeRateWrite who value) :=
  fun _ _ _ _ h => some_placed h (by unfold Placed Reg.tmbRateHi; omega)

theorem timeStepSet (who : Initiator) : Statement (.timeStepSet who) :=
  fun _ _ _ _ h => some_placed h (by unfold Placed Reg.tmbStepGo; omega)

theorem timeStepAdd (who : Initiator) : Statement (.timeStepAdd who) :=
  fun _ _ _ _ h => some_placed h (by unfold Placed Reg.tmbStepGo; omega)

theorem timeStepSubtract (who : Initiator) : Statement (.timeStepSubtract who) :=
  fun _ _ _ _ h => some_placed h (by unfold Placed Reg.tmbStepGo; omega)

theorem timeStepApply : Statement (.timeStepApply) :=
  fun _ _ _ _ h => none_placed h

theorem evtLockLoss (reference : Bool) : Statement (.evtLockLoss reference) :=
  fun _ _ _ _ h => none_placed h

theorem evtLockRegain : Statement (.evtLockRegain) :=
  fun _ _ _ _ h => none_placed h

theorem ppsOutPulse : Statement (.ppsOutPulse) :=
  fun _ _ _ _ h => none_placed h

theorem ppsOutPulseEnd : Statement (.ppsOutPulseEnd) :=
  fun _ _ _ _ h => none_placed h

theorem ppsInEdge (falling : Bool) (after : Nat) : Statement (.ppsInEdge falling after) :=
  fun _ _ _ _ h => none_placed h

theorem triggerArmSingle (who : Initiator) (n : Nat) (cfg : Word) : Statement (.triggerArmSingle who n cfg) :=
  fun _ _ _ _ h => ite_placed h fun hp => by unfold Placed Reg.tmbTrgCfg; omega

theorem triggerArmPeriodic (who : Initiator) (n : Nat) (cfg : Word) : Statement (.triggerArmPeriodic who n cfg) :=
  fun _ _ _ _ h => ite_placed h fun hp => by unfold Placed Reg.tmbTrgCfg; omega

theorem triggerArmSet (who : Initiator) (n : Nat) (cfg : Word) : Statement (.triggerArmSet who n cfg) :=
  fun _ _ _ _ h => ite_placed h fun hp => by unfold Placed Reg.tmbTrgCfg; omega

theorem triggerArmClear (who : Initiator) (n : Nat) (cfg : Word) : Statement (.triggerArmClear who n cfg) :=
  fun _ _ _ _ h => ite_placed h fun hp => by unfold Placed Reg.tmbTrgCfg; omega

theorem triggerDisarm (who : Initiator) (n : Nat) (cfg : Word) : Statement (.triggerDisarm who n cfg) :=
  fun _ _ _ _ h => ite_placed h fun hp => by unfold Placed Reg.tmbTrgCfg; omega

theorem triggerTargetWrite (who : Initiator) (n : Nat) (value : Word) : Statement (.triggerTargetWrite who n value) :=
  fun _ _ _ _ h => ite_placed h fun hp => by unfold Placed Reg.tmbTrgTgtSecHi; omega

theorem triggerMatch (n : Nat) : Statement (.triggerMatch n) :=
  fun _ _ _ _ h => none_placed h

theorem triggerPulseEnd (n : Nat) : Statement (.triggerPulseEnd n) :=
  fun _ _ _ _ h => none_placed h

theorem captureEdge (n : Nat) (falling : Bool) (after : Nat) : Statement (.captureEdge n falling after) :=
  fun _ _ _ _ h => none_placed h

theorem captureEnqueue (n : Nat) : Statement (.captureEnqueue n) :=
  fun _ _ _ _ h => none_placed h

theorem capturePop (who : Initiator) (n : Nat) : Statement (.capturePop who n) :=
  fun _ _ _ _ h => ite_placed h fun hp => by unfold Placed Reg.tmbCapPop; omega

theorem csi2FrameStart (port vc : Nat) : Statement (.csi2FrameStart port vc) :=
  fun _ _ _ _ h => none_placed h

theorem csi2Line (port vc dt : Nat) (payload : List Byte) (crcOk headerOk : Bool) : Statement (.csi2Line port vc dt payload crcOk headerOk) :=
  fun _ _ _ _ h => none_placed h

theorem csi2FrameEnd (port vc : Nat) : Statement (.csi2FrameEnd port vc) :=
  fun _ _ _ _ h => none_placed h

theorem cameraTimeoutExpiry (n : Nat) : Statement (.cameraTimeoutExpiry n) :=
  fun _ _ _ _ h => none_placed h

theorem ethStreamPacket (port kind value : Nat) (sec ns : Nat) (payload : List Byte) : Statement (.ethStreamPacket port kind value sec ns payload) :=
  fun _ _ _ _ h => none_placed h

theorem ethGapExpiry (n : Nat) : Statement (.ethGapExpiry n) :=
  fun _ _ _ _ h => none_placed h

theorem audioSample (source bits time : Nat) (rate48 : Bool) (slots : List Nat) : Statement (.audioSample source bits time rate48 slots) :=
  fun _ _ _ _ h => none_placed h

theorem tdmFsyncLoss (port : Nat) : Statement (.tdmFsyncLoss port) :=
  fun _ _ _ _ h => none_placed h

theorem spiStreamReadDone (n csTime : Nat) (data : List Byte) : Statement (.spiStreamReadDone n csTime data) :=
  fun _ _ _ _ h => none_placed h

theorem frameConditionStart : Statement (.frameConditionStart) :=
  fun _ _ _ _ h => none_placed h

theorem frameDeliver (n : Nat) : Statement (.frameDeliver n) :=
  fun _ _ _ _ h => none_placed h

theorem ingReleaseWrite (who : Initiator) (n : Nat) (value : Word) : Statement (.ingReleaseWrite who n value) :=
  fun _ _ _ _ h => ite_placed h fun hp => by unfold Placed Reg.ingStrRelease; omega

theorem streamEnable (who : Initiator) (n : Nat) (cfg : Word) : Statement (.streamEnable who n cfg) :=
  fun _ _ _ _ h => ite_placed h fun hp => by unfold Placed Reg.ingStrCfg; omega

theorem streamDisable (who : Initiator) (n : Nat) (cfg : Word) : Statement (.streamDisable who n cfg) :=
  fun _ _ _ _ h => ite_placed h fun hp => by unfold Placed Reg.ingStrCfg; omega

theorem ingressDisable (who : Initiator) : Statement (.ingressDisable who) :=
  fun _ _ _ _ h => some_placed h (by unfold Placed Reg.ingCtrl; omega)

theorem qdrRingTailWrite (who : Initiator) (value : Word) : Statement (.qdrRingTailWrite who value) :=
  fun _ _ _ _ h => some_placed h (by unfold Placed Reg.qdrRingTail; omega)

theorem qdrJobNop : Statement (.qdrJobNop) :=
  fun _ _ _ _ h => none_placed h

theorem project : Statement (.project) :=
  fun _ _ _ _ h => none_placed h

theorem gridClear : Statement (.gridClear) :=
  fun _ _ _ _ h => none_placed h

theorem rangeVote : Statement (.rangeVote) :=
  fun _ _ _ _ h => none_placed h

theorem associate : Statement (.associate) :=
  fun _ _ _ _ h => none_placed h

theorem predict : Statement (.predict) :=
  fun _ _ _ _ h => none_placed h

theorem publish : Statement (.publish) :=
  fun _ _ _ _ h => none_placed h

theorem qdrJobEnd : Statement (.qdrJobEnd) :=
  fun _ _ _ _ h => none_placed h

theorem qdrResume (who : Initiator) (value : Word) : Statement (.qdrResume who value) :=
  fun _ _ _ _ h => some_placed h (by unfold Placed Reg.qdrCtrl; omega)

theorem qdrTrackClear (who : Initiator) (value : Word) : Statement (.qdrTrackClear who value) :=
  fun _ _ _ _ h => some_placed h (by unfold Placed Reg.qdrCtrl; omega)

theorem qdrDisable (who : Initiator) (value : Word) : Statement (.qdrDisable who value) :=
  fun _ _ _ _ h => some_placed h (by unfold Placed Reg.qdrCtrl; omega)

theorem qdrEnable (who : Initiator) (value : Word) : Statement (.qdrEnable who value) :=
  fun _ _ _ _ h => some_placed h (by unfold Placed Reg.qdrCtrl; omega)

theorem qdrPubReleaseWrite (who : Initiator) (value : Word) : Statement (.qdrPubReleaseWrite who value) :=
  fun _ _ _ _ h => some_placed h (by unfold Placed Reg.qdrPubRelease; omega)

theorem qdrConfigWrite (who : Initiator) (offset : Nat) (value : Word) : Statement (.qdrConfigWrite who offset value) :=
  fun _ _ _ _ h => ite_placed h fun hp => by unfold Placed; omega

theorem loopSample (group : Nat) (findings : List SampleFinding) : Statement (.loopSample group findings) :=
  fun _ _ _ _ h => none_placed h

theorem loopOutputApply (loop : Nat) : Statement (.loopOutputApply loop) :=
  fun _ _ _ _ h => none_placed h

theorem loopEnable (who : Initiator) (loop : Nat) (cfg : Word) : Statement (.loopEnable who loop cfg) :=
  fun _ _ _ _ h => ite_placed h fun hp => by unfold Placed Reg.loopReg; omega

theorem loopDisable (who : Initiator) (loop : Nat) (cfg : Word) : Statement (.loopDisable who loop cfg) :=
  fun _ _ _ _ h => ite_placed h fun hp => by unfold Placed Reg.loopReg; omega

theorem loopRestart (who : Initiator) (loop : Nat) : Statement (.loopRestart who loop) :=
  fun _ _ _ _ h => ite_placed h fun hp => by unfold Placed Reg.loopReg; omega

theorem loopSafe (who : Initiator) (loop : Nat) : Statement (.loopSafe who loop) :=
  fun _ _ _ _ h => ite_placed h fun hp => by unfold Placed Reg.loopReg; omega

theorem loopOffEnter (loop : Nat) : Statement (.loopOffEnter loop) :=
  fun _ _ _ _ h => none_placed h

theorem loopCfgWrite (who : Initiator) (loop : Nat) (offset : Nat) (value : Word) : Statement (.loopCfgWrite who loop offset value) :=
  fun _ _ _ _ h => ite_placed h fun hp => by have := hp.2; unfold structuralRegs at this; simp at this; unfold Placed Reg.loopReg; omega

theorem trajStartHiWrite (who : Initiator) (loop : Nat) (value : Word) : Statement (.trajStartHiWrite who loop value) :=
  fun _ _ _ _ h => ite_placed h fun hp => by unfold Placed Reg.loopReg; omega

theorem waltzIdxWrite (who : Initiator) (loop : Nat) (value : Word) : Statement (.waltzIdxWrite who loop value) :=
  fun _ _ _ _ h => ite_placed h fun hp => by unfold Placed Reg.loopReg; omega

theorem waltzBaseWrite (who : Initiator) (loop : Nat) (value : Word) : Statement (.waltzBaseWrite who loop value) :=
  fun _ _ _ _ h => ite_placed h fun hp => by unfold Placed Reg.loopReg; omega

theorem shadowStart (who : Initiator) (engine : Nat) (value : Word) : Statement (.shadowStart who engine value) :=
  fun _ _ _ _ h => ite_placed h fun hp => by unfold Placed Reg.stpEngCtrl; omega

theorem shadowStop (who : Initiator) (engine : Nat) (value : Word) : Statement (.shadowStop who engine value) :=
  fun _ _ _ _ h => ite_placed h fun hp => by unfold Placed Reg.stpEngCtrl; omega

theorem engineDisable (who : Initiator) (engine : Nat) (value : Word) : Statement (.engineDisable who engine value) :=
  fun _ _ _ _ h => ite_placed h fun hp => by unfold Placed Reg.stpEngCtrl; omega

theorem engineEnable (who : Initiator) (engine : Nat) (value : Word) : Statement (.engineEnable who engine value) :=
  fun _ _ _ _ h => ite_placed h fun hp => by unfold Placed Reg.stpEngCtrl; omega

theorem handoverGo (who : Initiator) (value : Word) : Statement (.handoverGo who value) :=
  fun _ _ _ _ h => some_placed h (by unfold Placed Reg.stpHandover; omega)

theorem handoverApply : Statement (.handoverApply) :=
  fun _ _ _ _ h => none_placed h

theorem encoderStateChange (encoder : Nat) (a b z : Bool) : Statement (.encoderStateChange encoder a b z) :=
  fun _ _ _ _ h => none_placed h

theorem encoderIndex (encoder : Nat) : Statement (.encoderIndex encoder) :=
  fun _ _ _ _ h => none_placed h

theorem absFrameStart (input : Nat) (lineHigh : Bool) : Statement (.absFrameStart input lineHigh) :=
  fun _ _ _ _ h => none_placed h

theorem absFrameEnd (input : Nat) (code : Nat) (errorBit parityOk : Bool) : Statement (.absFrameEnd input code errorBit parityOk) :=
  fun _ _ _ _ h => none_placed h

theorem pwmPeriodStart (pair : Nat) : Statement (.pwmPeriodStart pair) :=
  fun _ _ _ _ h => none_placed h

theorem limitRawChange (input : Nat) (level : Bool) : Statement (.limitRawChange input level) :=
  fun _ _ _ _ h => none_placed h

theorem limitDebounceExpiry : Statement (.limitDebounceExpiry) :=
  fun _ _ _ _ h => none_placed h

theorem chatterWindowStart : Statement (.chatterWindowStart) :=
  fun _ _ _ _ h => none_placed h

theorem axisCauseClear (who : Initiator) (axis : Nat) (value : Word) : Statement (.axisCauseClear who axis value) :=
  fun _ _ _ _ h => ite_placed h fun hp => by unfold Placed Reg.mioAxStatus; omega

theorem homeGo (who : Initiator) (value : Word) : Statement (.homeGo who value) :=
  fun _ _ _ _ h => some_placed h (by unfold Placed Reg.mioHomeCtrl; omega)

theorem homeAbort (who : Initiator) (value : Word) : Statement (.homeAbort who value) :=
  fun _ _ _ _ h => some_placed h (by unfold Placed Reg.mioHomeCtrl; omega)

theorem motionIoDisable (who : Initiator) (value : Word) : Statement (.motionIoDisable who value) :=
  fun _ _ _ _ h => some_placed h (by unfold Placed Reg.mioCtrl; omega)

theorem motionIoEnable (who : Initiator) (value : Word) : Statement (.motionIoEnable who value) :=
  fun _ _ _ _ h => some_placed h (by unfold Placed Reg.mioCtrl; omega)

theorem uartRxFrame (uart : Nat) (byte : Byte) (framing parityBad : Bool) (falseStarts : Nat) : Statement (.uartRxFrame uart byte framing parityBad falseStarts) :=
  fun _ _ _ _ h => none_placed h

theorem uartRxPop (who : Initiator) (uart : Nat) : Statement (.uartRxPop who uart) :=
  fun _ _ _ _ h => ite_placed h fun hp => by unfold Placed Reg.mioUartPop; omega

theorem uartTxWrite (who : Initiator) (uart : Nat) (byte : Byte) : Statement (.uartTxWrite who uart byte) :=
  fun _ _ _ _ h => ite_placed h fun hp => by unfold Placed Reg.mioUartTx; omega

theorem uartTxFrameDone (uart : Nat) : Statement (.uartTxFrameDone uart) :=
  fun _ _ _ _ h => none_placed h

theorem ssuGo (who : Initiator) (problem : Nat) (value : Word) : Statement (.ssuGo who problem value) :=
  fun _ _ _ _ h => ite_placed h fun hp => by unfold Placed Reg.ssuPCtrl; omega

theorem ssuCold (who : Initiator) (problem : Nat) (value : Word) : Statement (.ssuCold who problem value) :=
  fun _ _ _ _ h => ite_placed h fun hp => by unfold Placed Reg.ssuPCtrl; omega

theorem ssuSolveStart : Statement (.ssuSolveStart) :=
  fun _ _ _ _ h => none_placed h

theorem ssuDeadlineExpiry (iterations : Nat) (cycles : Word) : Statement (.ssuDeadlineExpiry iterations cycles) :=
  fun _ _ _ _ h => none_placed h

theorem ssuSolveEnd (cycles : Word) (errorAt : Option Nat) : Statement (.ssuSolveEnd cycles errorAt) :=
  fun _ _ _ _ h => none_placed h

theorem ssuDisable (who : Initiator) (value : Word) : Statement (.ssuDisable who value) :=
  fun _ _ _ _ h => some_placed h (by unfold Placed Reg.ssuCtrl; omega)

theorem ssuEnable (who : Initiator) (value : Word) : Statement (.ssuEnable who value) :=
  fun _ _ _ _ h => some_placed h (by unfold Placed Reg.ssuCtrl; omega)

theorem cinRun (who : Initiator) (value : Word) : Statement (.cinRun who value) :=
  fun _ _ _ _ h => some_placed h (by unfold Placed Reg.cinCtrl; omega)

theorem cinStop (who : Initiator) (value : Word) : Statement (.cinStop who value) :=
  fun _ _ _ _ h => some_placed h (by unfold Placed Reg.cinCtrl; omega)

theorem cinRearm (who : Initiator) (value : Word) : Statement (.cinRearm who value) :=
  fun _ _ _ _ h => some_placed h (by unfold Placed Reg.cinCtrl; omega)

theorem cinFwFault (who : Initiator) (value : Word) : Statement (.cinFwFault who value) :=
  fun _ _ _ _ h => some_placed h (by unfold Placed Reg.cinCtrl; omega)

theorem cinStopReq (who : Initiator) (value : Word) : Statement (.cinStopReq who value) :=
  fun _ _ _ _ h => some_placed h (by unfold Placed Reg.cinReq; omega)

theorem cinRunReq (who : Initiator) (value : Word) : Statement (.cinRunReq who value) :=
  fun _ _ _ _ h => some_placed h (by unfold Placed Reg.cinReq; omega)

theorem coreHoldWrite (who : Initiator) (value : Word) : Statement (.coreHoldWrite who value) :=
  fun _ _ _ _ h => some_placed h (by unfold Placed Reg.cinReq; omega)

theorem restartEdge : Statement (.restartEdge) :=
  fun _ _ _ _ h => none_placed h

theorem cinchRunEntry : Statement (.cinchRunEntry) :=
  fun _ _ _ _ h => none_placed h

theorem rearmExpiry : Statement (.rearmExpiry) :=
  fun _ _ _ _ h => none_placed h

theorem lockstepMismatch : Statement (.lockstepMismatch) :=
  fun _ _ _ _ h => none_placed h

theorem cinEccError : Statement (.cinEccError) :=
  fun _ _ _ _ h => none_placed h

theorem wdogKick (who : Initiator) (key : Word) : Statement (.wdogKick who key) :=
  fun _ _ _ _ h => some_placed h (by unfold Placed Reg.cinWdogKick; omega)

theorem wdogExpiry : Statement (.wdogExpiry) :=
  fun _ _ _ _ h => none_placed h

theorem beatMonitorCheck (advance : Nat) : Statement (.beatMonitorCheck advance) :=
  fun _ _ _ _ h => none_placed h

theorem vinMainLoss : Statement (.vinMainLoss) :=
  fun _ _ _ _ h => none_placed h

theorem outputReadbackMismatch : Statement (.outputReadbackMismatch) :=
  fun _ _ _ _ h => none_placed h

theorem cinClockDeviation : Statement (.cinClockDeviation) :=
  fun _ _ _ _ h => none_placed h

theorem cinDemand : Statement (.cinDemand) :=
  fun _ _ _ _ h => none_placed h

theorem safeStateCommand : Statement (.safeStateCommand) :=
  fun _ _ _ _ h => none_placed h

theorem pwmKillExpiry : Statement (.pwmKillExpiry) :=
  fun _ _ _ _ h => none_placed h

theorem cinVerdictWrite (who : Initiator) (value : Word) : Statement (.cinVerdictWrite who value) :=
  fun _ _ _ _ h => some_placed h (by unfold Placed Reg.cinVerdict; omega)

theorem sealUnseal (who : Initiator) (r : Nat) (value : Word) : Statement (.sealUnseal who r value) :=
  fun _ _ _ _ h => ite_placed h fun hp => by unfold Placed Reg.cinSealCtrl; omega

theorem cinFrameStart : Statement (.cinFrameStart) :=
  fun _ _ _ _ h => none_placed h

theorem frameDeadlineCheck : Statement (.frameDeadlineCheck) :=
  fun _ _ _ _ h => none_placed h

theorem gridClose : Statement (.gridClose) :=
  fun _ _ _ _ h => none_placed h

theorem shzIdle (port : Nat) (f : Flit) : Statement (.shzIdle port f) :=
  fun _ _ _ _ h => none_placed h

theorem shzWrite (port : Nat) (f : Flit) : Statement (.shzWrite port f) :=
  fun _ _ _ _ h => none_placed h

theorem shzRead (port : Nat) (f : Flit) : Statement (.shzRead port f) :=
  fun _ _ _ _ h => none_placed h

theorem shzRdata (port : Nat) (f : Flit) : Statement (.shzRdata port f) :=
  fun _ _ _ _ h => none_placed h

theorem shzBkl (port : Nat) (f : Flit) : Statement (.shzBkl port f) :=
  fun _ _ _ _ h => none_placed h

theorem shzE2eAck (port : Nat) (f : Flit) : Statement (.shzE2eAck port f) :=
  fun _ _ _ _ h => none_placed h

theorem shzLinkReady (port : Nat) (f : Flit) : Statement (.shzLinkReady port f) :=
  fun _ _ _ _ h => none_placed h

theorem shzLinkGo (port : Nat) (f : Flit) : Statement (.shzLinkGo port f) :=
  fun _ _ _ _ h => none_placed h

theorem shzLinkAbort (port : Nat) (f : Flit) : Statement (.shzLinkAbort port f) :=
  fun _ _ _ _ h => none_placed h

theorem shzLinkAborted (port : Nat) (f : Flit) : Statement (.shzLinkAborted port f) :=
  fun _ _ _ _ h => none_placed h

theorem shzTime (port : Nat) (f : Flit) (arrived : Nat) (reply : Option (Nat × Nat)) : Statement (.shzTime port f arrived reply) :=
  fun _ _ _ _ h => none_placed h

theorem shzEnumWalk (port : Nat) (f : Flit) (walk : List WalkEntry) (back : Bool) : Statement (.shzEnumWalk port f walk back) :=
  fun _ _ _ _ h => none_placed h

theorem shzEnumAssign (port : Nat) (f : Flit) (a : Assignment) : Statement (.shzEnumAssign port f a) :=
  fun _ _ _ _ h => none_placed h

theorem shzBeacon (port : Nat) (f : Flit) (down : List (Nat × Nat)) : Statement (.shzBeacon port f down) :=
  fun _ _ _ _ h => none_placed h

theorem shzLeave (port : Nat) (f : Flit) : Statement (.shzLeave port f) :=
  fun _ _ _ _ h => none_placed h

theorem shzErr (port : Nat) (f : Flit) : Statement (.shzErr port f) :=
  fun _ _ _ _ h => none_placed h

theorem shzReplayTimeout (port : Nat) : Statement (.shzReplayTimeout port) :=
  fun _ _ _ _ h => none_placed h

theorem shzPortUp (port width : Nat) (samePort : Bool) : Statement (.shzPortUp port width samePort) :=
  fun _ _ _ _ h => none_placed h

theorem shzPortDown (port : Nat) (lostLock : Bool) : Statement (.shzPortDown port lostLock) :=
  fun _ _ _ _ h => none_placed h

theorem shzPortRetrain (port : Nat) : Statement (.shzPortRetrain port) :=
  fun _ _ _ _ h => none_placed h

theorem shzE2eAckTimer (node : Nat) : Statement (.shzE2eAckTimer node) :=
  fun _ _ _ _ h => none_placed h

theorem shzBeaconSend : Statement (.shzBeaconSend) :=
  fun _ _ _ _ h => none_placed h

theorem shzIsolateExpiry : Statement (.shzIsolateExpiry) :=
  fun _ _ _ _ h => none_placed h

theorem shzTimeExchange (port sent : Nat) : Statement (.shzTimeExchange port sent) :=
  fun _ _ _ _ h => none_placed h

theorem shzLinkLeadExpiry (slot : Nat) : Statement (.shzLinkLeadExpiry slot) :=
  fun _ _ _ _ h => none_placed h

theorem shzReadTimeout (tag : Nat) : Statement (.shzReadTimeout tag) :=
  fun _ _ _ _ h => none_placed h

theorem shzEnum (who : Initiator) (value : Word) : Statement (.shzEnum who value) :=
  fun _ _ _ _ h => some_placed h (by unfold Placed Reg.shzCtrl; omega)

theorem shzCtrlLeave (who : Initiator) (value : Word) : Statement (.shzCtrlLeave who value) :=
  fun _ _ _ _ h => some_placed h (by unfold Placed Reg.shzCtrl; omega)

theorem shzDisable (who : Initiator) (value : Word) : Statement (.shzDisable who value) :=
  fun _ _ _ _ h => some_placed h (by unfold Placed Reg.shzCtrl; omega)

theorem shzLeavePortsDown : Statement (.shzLeavePortsDown) :=
  fun _ _ _ _ h => none_placed h

theorem powerOnReset : Statement (.powerOnReset) :=
  fun _ _ _ _ h => none_placed h

theorem resetNAssert : Statement (.resetNAssert) :=
  fun _ _ _ _ h => none_placed h

theorem powerFault (rail : Nat) (resetNLow : Bool) : Statement (.powerFault rail resetNLow) :=
  fun _ _ _ _ h => none_placed h

theorem refLoss : Statement (.refLoss) :=
  fun _ _ _ _ h => none_placed h

theorem sysResetMain (who : Initiator) (key : Nat) : Statement (.sysResetMain who key) :=
  fun _ _ _ _ h => some_placed h (by unfold Placed Reg.sysReset; omega)

theorem mainResetEnd (fuseError : Bool) : Statement (.mainResetEnd fuseError) :=
  fun _ _ _ _ h => none_placed h

theorem stewardBoot (primaryError backupError : Bool) : Statement (.stewardBoot primaryError backupError) :=
  fun _ _ _ _ h => none_placed h

theorem stwLoad (who : Initiator) (cls index : Nat) : Statement (.stwLoad who cls index) :=
  fun _ _ _ _ h => some_placed h (by unfold Placed Reg.stwCmd; omega)

theorem stwActivate (who : Initiator) (cls index : Nat) : Statement (.stwActivate who cls index) :=
  fun _ _ _ _ h => some_placed h (by unfold Placed Reg.stwCmd; omega)

theorem stwSetBoot (who : Initiator) (cls : Nat) : Statement (.stwSetBoot who cls) :=
  fun _ _ _ _ h => some_placed h (by unfold Placed Reg.stwCmd; omega)

theorem stwFlashErase (who : Initiator) (deviceError : Bool) : Statement (.stwFlashErase who deviceError) :=
  fun _ _ _ _ h => some_placed h (by unfold Placed Reg.stwCmd; omega)

theorem stwFlashWrite (who : Initiator) (deviceError : Bool) : Statement (.stwFlashWrite who deviceError) :=
  fun _ _ _ _ h => some_placed h (by unfold Placed Reg.stwCmd; omega)

theorem stwFlashVerify (who : Initiator) (deviceError : Bool) : Statement (.stwFlashVerify who deviceError) :=
  fun _ _ _ _ h => some_placed h (by unfold Placed Reg.stwCmd; omega)

theorem stwSelftest (who : Initiator) (cls index : Nat) : Statement (.stwSelftest who cls index) :=
  fun _ _ _ _ h => some_placed h (by unfold Placed Reg.stwCmd; omega)

theorem stwFuse (who : Initiator) : Statement (.stwFuse who) :=
  fun _ _ _ _ h => some_placed h (by unfold Placed Reg.stwCmd; omega)

theorem stwCommandDone (deviceError : Bool) : Statement (.stwCommandDone deviceError) :=
  fun _ _ _ _ h => none_placed h

theorem rfxYieldWrite (who : Initiator) (value : Word) : Statement (.rfxYieldWrite who value) :=
  fun _ _ _ _ h => some_placed h (by unfold Placed Reg.stwRfxYield; omega)

theorem activateTimeout : Statement (.activateTimeout) :=
  fun _ _ _ _ h => none_placed h

theorem fuseUnlockWrite (who : Initiator) (key : Word) : Statement (.fuseUnlockWrite who key) :=
  fun _ _ _ _ h => some_placed h (by unfold Placed Reg.cfgFuseUnlock; omega)

theorem powerCapSelect (who : Initiator) (cap : Nat) : Statement (.powerCapSelect who cap) :=
  fun _ _ _ _ h => some_placed h (by unfold Placed Reg.stwPower; omega)

theorem powerExcursion : Statement (.powerExcursion) :=
  fun _ _ _ _ h => none_placed h

theorem tempSensorUpdate (readings : List Nat) : Statement (.tempSensorUpdate readings) :=
  fun _ _ _ _ h => none_placed h

theorem thermalThrottleStep : Statement (.thermalThrottleStep) :=
  fun _ _ _ _ h => none_placed h

theorem thermalTrip : Statement (.thermalTrip) :=
  fun _ _ _ _ h => none_placed h

theorem debugHaltRequest (scans : List TapScan) (hart : Nat) (atReset : Option Bool) : Statement (.debugHaltRequest scans hart atReset) :=
  fun _ _ _ _ h => none_placed h

theorem debugResumeRequest (scans : List TapScan) (hart : Nat) : Statement (.debugResumeRequest scans hart) :=
  fun _ _ _ _ h => none_placed h

theorem debugAccessRegister (scans : List TapScan) (hart : Nat) (reg : HartReg) (write : Option Nat) : Statement (.debugAccessRegister scans hart reg write) :=
  fun _ _ _ _ h => none_placed h

theorem debugProgbufExec (scans : List TapScan) (hart : Nat) (accesses : List DebugAccess) : Statement (.debugProgbufExec scans hart accesses) :=
  fun _ _ _ _ h => none_placed h

theorem debugNdmreset (scans : List TapScan) : Statement (.debugNdmreset scans) :=
  fun _ _ _ _ h => none_placed h

theorem tlgAuthWrite (who : Initiator) (value : Word) : Statement (.tlgAuthWrite who value) :=
  fun _ _ _ _ h => some_placed h (by unfold Placed Reg.tlgAuth; omega)

theorem engineHaltWrite (who : Initiator) (value : Word) : Statement (.engineHaltWrite who value) :=
  fun _ _ _ _ h => some_placed h (by unfold Placed Reg.tlgEngCtrl; omega)

theorem obpFiredClear (who : Initiator) (k : Nat) : Statement (.obpFiredClear who k) :=
  fun _ _ _ _ h => ite_placed h fun hp => by unfold Placed Reg.tlgObpStatus; omega

theorem tlgCntSelWrite (who : Initiator) (c : Nat) (value : Word) : Statement (.tlgCntSelWrite who c value) :=
  fun _ _ _ _ h => ite_placed h fun hp => by unfold Placed Reg.tlgCntSel; omega

theorem tlgCntClr (who : Initiator) : Statement (.tlgCntClr who) :=
  fun _ _ _ _ h => some_placed h (by unfold Placed Reg.tlgCntClr; omega)

theorem tlgSample : Statement (.tlgSample) :=
  fun _ _ _ _ h => none_placed h

theorem pcieInboundWrite (port addr : Nat) (data : List Byte) (found : List ErrFinding) : Statement (.pcieInboundWrite port addr data found) :=
  fun _ _ _ _ h => none_placed h

theorem pcieInboundRead (port addr size : Nat) (found : List ErrFinding) : Statement (.pcieInboundRead port addr size found) :=
  fun _ _ _ _ h => none_placed h

theorem pcieMsiWrite (port value : Nat) : Statement (.pcieMsiWrite port value) :=
  fun _ _ _ _ h => none_placed h

theorem pcieLinkDown (port posted : Nat) : Statement (.pcieLinkDown port posted) :=
  fun _ _ _ _ h => none_placed h

theorem pcieLinkUp (port speed width : Nat) : Statement (.pcieLinkUp port speed width) :=
  fun _ _ _ _ h => none_placed h

theorem pcieCompletion (port tag : Nat) (status : CplStatus) (data : Nat) : Statement (.pcieCompletion port tag status data) :=
  fun _ _ _ _ h => none_placed h

theorem pcieCompletionTimeout (port tag : Nat) : Statement (.pcieCompletionTimeout port tag) :=
  fun _ _ _ _ h => none_placed h

theorem pcieErrorMessage (port severity : Nat) : Statement (.pcieErrorMessage port severity) :=
  fun _ _ _ _ h => none_placed h

theorem pcieRetrain (who : Initiator) (port : Nat) (value : Word) : Statement (.pcieRetrain who port value) :=
  fun _ _ _ _ h => ite_placed h fun hp => by unfold Placed Reg.pciPCtrl; omega

theorem pciePerstWrite (who : Initiator) (port : Nat) (value : Word) : Statement (.pciePerstWrite who port value) :=
  fun _ _ _ _ h => ite_placed h fun hp => by unfold Placed Reg.pciPCtrl; omega

theorem ethFrameReceive (port : Nat) (frame : List Byte) (fcsOk : Bool) (sec ns : Nat) : Statement (.ethFrameReceive port frame fcsOk sec ns) :=
  fun _ _ _ _ h => none_placed h

theorem ethQueueTailWrite (who : Initiator) (port : Nat) (transmit : Bool) (queue : Nat) (value : Word) : Statement (.ethQueueTailWrite who port transmit queue value) :=
  fun _ _ _ _ h => ite_placed h fun hp => by unfold Placed queueRegs; split <;> simp only [Reg.ethTxqTail, Reg.ethRxqTail] <;> omega

theorem ethTxFrameDone (port queue sec ns : Nat) (discarded : Bool) : Statement (.ethTxFrameDone port queue sec ns discarded) :=
  fun _ _ _ _ h => none_placed h

theorem gclGo (who : Initiator) (port : Nat) (value : Word) : Statement (.gclGo who port value) :=
  fun _ _ _ _ h => ite_placed h fun hp => by unfold Placed Reg.ethGclCtrl; omega

theorem gclSwap (port : Nat) : Statement (.gclSwap port) :=
  fun _ _ _ _ h => none_placed h

theorem gateTransition (port : Nat) : Statement (.gateTransition port) :=
  fun _ _ _ _ h => none_placed h

theorem csiNoClock (port : Nat) : Statement (.csiNoClock port) :=
  fun _ _ _ _ h => none_placed h

theorem canFrameReceive (port : Nat) (frame : CanFrame) (time : Nat) : Statement (.canFrameReceive port frame time) :=
  fun _ _ _ _ h => none_placed h

theorem canFrameTransmit (port : Nat) (requests : List CanFrame) (acked : Bool) : Statement (.canFrameTransmit port requests acked) :=
  fun _ _ _ _ h => none_placed h

theorem spiGo (who : Initiator) (master : Nat) (value : Word) : Statement (.spiGo who master value) :=
  fun _ _ _ _ h => ite_placed h fun hp => by unfold Placed Reg.ethSpiGo; omega

theorem spiTransferDone (master : Nat) (received : Word) : Statement (.spiTransferDone master received) :=
  fun _ _ _ _ h => none_placed h

theorem i2cTransfer (controller : Nat) (result : I2cEnd) (data : List Byte) : Statement (.i2cTransfer controller result data) :=
  fun _ _ _ _ h => none_placed h

theorem i2cRecover (who : Initiator) (controller : Nat) : Statement (.i2cRecover who controller) :=
  fun _ _ _ _ h => ite_placed h fun hp => by unfold Placed Reg.ethI2c; omega

theorem beat (upsets : List ErrFinding) (lat tng : List TenCycle) : Statement (.beat upsets lat tng) :=
  fun _ _ _ _ h => none_placed h

theorem railBackInTolerance (rail : Nat) : Statement (.railBackInTolerance rail) :=
  fun _ _ _ _ h => none_placed h

theorem cinDemandRelease : Statement (.cinDemandRelease) :=
  fun _ _ _ _ h => none_placed h

theorem cinRunWindowExpiry : Statement (.cinRunWindowExpiry) :=
  fun _ _ _ _ h => none_placed h

theorem ethLinkChange (port : Nat) (up : Bool) : Statement (.ethLinkChange port up) :=
  fun _ _ _ _ h => none_placed h

theorem shzBadCrcFlit (port : Nat) (bytes : List Byte) : Statement (.shzBadCrcFlit port bytes) :=
  fun _ _ _ _ h => none_placed h

end Sys2Proof.Laws.Placement
end

