-- ==== Sys2Proof/Machine/Package.lean ====
section
/-!
DEFINITION. Machine/Package.lean: the ball grid, the ball groups, the rails and the states of the balls (R670 to R677, R695).
-/

namespace Sys2Proof.Machine

/-! ### The ball grid (R671) -/

/-- The letters of the rows. -/
def rowLetters : List Char :=
  ['A', 'B', 'C', 'D', 'E', 'F', 'G', 'H', 'J', 'K', 'L', 'M', 'N', 'P', 'T', 'U', 'V', 'W', 'Y']

/-- The name of row r, 1 to 67. -/
def rowName (r : Nat) : List Char :=
  if r < 20 then [rowLetters.getD (r - 1) 'A']
  else [rowLetters.getD ((r - 20) / 19) 'A', rowLetters.getD ((r - 20) % 19) 'A']

/-- Is there a ball in row r and column c: not in the central void, and not at the corners. -/
def hasBall (r c : Nat) : Bool :=
  decide (1 ≤ r ∧ r ≤ 67 ∧ 1 ≤ c ∧ c ≤ 67) && !decide (20 ≤ r ∧ r ≤ 48 ∧ 20 ≤ c ∧ c ≤ 48) &&
    !(decide (r = 1 ∨ r = 67) && decide (c ≤ 2 ∨ 66 ≤ c))

/-- The balls of row r. -/
def ballsInRow (r : Nat) : Nat := ((List.range 68).filter (hasBall r)).length

/-! ### Groups and rails (R672, R673, R677) -/

/-- The groups of the balls with their numbers (R672). -/
inductive BallGroup where
  | vss | vinMain | vstk | vstkq | vstkp | vaon | vsd | vio18 | vio33 | pcie | ethernet | shauz | csi2 | audio | fieldSerial
  | motion | timing | cinch | clocks | resetControl | xspi | jtag | sense | reserved
  deriving DecidableEq, Repr

/-- Balls of each group. -/
def BallGroup.balls : BallGroup → Nat
  | .vss => 2100
  | .vinMain => 640
  | .vstk => 120
  | .vstkq => 80
  | .vstkp => 16
  | .vaon => 24
  | .vsd => 60
  | .vio18 => 40
  | .vio33 => 16
  | .pcie => 36
  | .ethernet => 16
  | .shauz => 32
  | .csi2 => 80
  | .audio => 16
  | .fieldSerial => 62
  | .motion => 144
  | .timing => 34
  | .cinch => 7
  | .clocks => 3
  | .resetControl => 5
  | .xspi => 12
  | .jtag => 6
  | .sense => 4
  | .reserved => 87

/-- A rail that the power-fault monitor watches, by its bit in SYS_RAIL_STATUS.GOOD: nominal level in mV (R673, R677). -/
def railNominal : List Nat := [1800, 1100, 400, 1800, 900, 1800, 3300]

/-- Is the level of watched rail k a power fault once it has stood for 1 µs (R677): more than 10 % below or above nominal. -/
def railFaulty (k mv : Nat) : Bool :=
  let n := railNominal.getD k 0
  decide (10 * mv < 9 * n ∨ 11 * n < 10 * mv)

/-! ### Ball states (R695) -/

/-- The groups of balls that R695 names. -/
inductive BallRole where
  | motionOut | cinchOut | cinchIn | fieldPort | resetOut | otherOut
  deriving DecidableEq, Repr

/-- What holds the level of a ball. -/
inductive BallState where
  | highZ | pulledDown | low | driven
  deriving DecidableEq, Repr

/-- Before VAON is up or Cinch has left reset. -/
def BallRole.unpowered : BallRole → BallState
  | .motionOut | .cinchIn => .pulledDown
  | .cinchOut | .resetOut => .low
  | .fieldPort | .otherOut => .highZ

/-- With the always-on domain running: during a main reset, and out of it. -/
def State.ballState (s : State) : BallRole → BallState
  | .motionOut | .cinchOut | .fieldPort => .driven
  | .cinchIn => .pulledDown
  | .resetOut => if s.mainOn then .driven else .low
  | .otherOut => if s.mainOn then .driven else .pulledDown

end Sys2Proof.Machine
end

