-- ==== Sys2Proof/WellFormed.lean ====
section
/-!
DEFINITION. WellFormed.lean: which commands can be sent: initiators, harts, numbers of registers, slots, rings, ports and
channels that exist, sizes and addresses of accesses, fields of flits that fit. A command that is not well formed is no
event of this block; exec answers such a command too (log entry 14).
-/

namespace Sys2Proof

/-- The initiators that exist. -/
def Initiator.wf : Initiator → Bool
  | .app n => decide (n < 12)
  | .caller n | .tensor n => decide (n < 2)
  | .reflex n => decide (n < 4)
  | _ => true

/-- The sizes of a processor's access in bytes. -/
def sizes : List Nat := [1, 2, 4, 8]

/-- The hart IDs (R623). -/
def hartIds : List Nat := [0, 1, 2, 3, 4, 5, 6, 7, 8, 9, 10, 11, 0x10, 0x18, 0x19, 0x20, 0x21, 0x22, 0x23]

/-- The registers that a hart can have. -/
def HartReg.wf : HartReg → Bool
  | .csr n => decide (n < 4096)
  | .gpr n | .fpr n | .vec n => decide (n < 32)

/-- The fields of a flit fit (R563). -/
def Flit.wf (f : Flit) : Bool :=
  decide (f.gen < 16 ∧ f.typ < 16 ∧ f.src < 8 ∧ f.dst < 8 ∧ f.seq < 4096 ∧ f.ack < 4096 ∧ f.op < 256 ∧ f.e2e < 65536 ∧
    f.tag < 65536 ∧ f.dstEpoch < 65536 ∧ f.srcEpoch < 65536 ∧ f.len ≤ 96 ∧ f.payload.length = f.len ∧ f.addr < 2 ^ 48)

/-- Which commands are well formed. -/
def Instr.wf : Instr → Bool
  | .registerWrite who addr _ _ => who.wf && decide (addr < 2 ^ 48)
  | .rcRegisterRead who addr _ => who.wf && decide (addr < 2 ^ 48)
  | .processorLoad who addr size found => who.wf && decide (addr < 2 ^ 48) && sizes.contains size && (found.all fun e => e.word % 8 = 0)
  | .processorStore who _ addr size _ found => who.wf && decide (addr < 2 ^ 48) && sizes.contains size && (found.all fun e => e.word % 8 = 0)
  | .lrScAmo who _ addr size _ found => who.wf && decide (addr < 2 ^ 48) && decide (size = 4 ∨ size = 8) && (found.all fun e => e.word % 8 = 0)
  | .fenceInstruction who pred succ => who.wf && decide (pred < 16) && decide (succ < 16)
  | .cantleScrubPass _ found => (found.all fun e => e.word % 8 = 0)
  | .trbScrubPass found => (found.all fun e => e.word % 8 = 0)
  | .trbImbalanceWindowEnd _ => true
  | .stackThrottle stack _ _ => decide (stack < 4)
  | .trbTrainingDone _ => true
  | .pocketCommitGo who => who.wf
  | .iomSwapRootHiWrite who n _ _ _ => who.wf && decide (n < 8)
  | .iomSwapDone n => decide (n < 8)
  | .iotlbWalkComplete dev pid _ _ old => decide (dev < 2) && decide (pid < 131072) && old.all fun n => decide (n < 8)
  | .iotinvalVma _ _ => true
  | .iotinvalGvma _ _ => true
  | .iodirInvalDdt _ => true
  | .iodirInvalPdt dev pid => decide (dev < 2) && decide (pid < 131072)
  | .iofenceC _ => true
  | .stallCounterClear who _ => who.wf
  | .buckleSet who b _ others => who.wf && decide (b < 16384) && (others.all fun g => g.who.wf)
  | .buckleAdd who b _ others => who.wf && decide (b < 16384) && (others.all fun g => g.who.wf)
  | .waitArm who block slot buckle _ => who.wf && decide (block < 4) && decide (slot < 64) && decide (buckle < 16384)
  | .waitDisarm who block slot buckle _ => who.wf && decide (block < 4) && decide (slot < 64) && decide (buckle < 16384)
  | .waitTargetWrite who block slot _ => who.wf && decide (block < 4) && decide (slot < 64)
  | .txnOpen who n => who.wf && decide (n < 64)
  | .txnArm who n _ _ => who.wf && decide (n < 64)
  | .txnAbort who n => who.wf && decide (n < 64)
  | .txnRelease who n => who.wf && decide (n < 64)
  | .txnStagePush who n => who.wf && decide (n < 64)
  | .txnCommitBeat => true
  | .txnMemoryEntryWrite => true
  | .txnTimeout n => decide (n < 64)
  | .txnSnapGo who slots => who.wf && decide (slots < 256)
  | .snapshotLatch => true
  | .snapshotComplete slot => decide (slot < 8)
  | .operandUncorrectable _ => true
  | .tileKPassEnd _ _ => true
  | .tileDrainEnd _ => true
  | .hideDisable who => who.wf
  | .hideEnable who => who.wf
  | .hidCycClear who => who.wf
  | .windowFill n => decide (n < 2)
  | .windowSlotFree n => decide (n < 2)
  | .latWinCfgWrite who n _ _ => who.wf && decide (n < 2)
  | .latWinRateWrite who n _ => who.wf && decide (n < 2)
  | .latigoDisable who => who.wf
  | .latigoEnable who => who.wf
  | .ringTailWrite who ring _ => who.wf && decide (ring < 2)
  | .ringHeadWrite who ring _ => who.wf && decide (ring < 2)
  | .ringCfgWrite who ring _ => who.wf && decide (ring < 2)
  | .ringEnable who ring => who.wf && decide (ring < 2)
  | .ringDisable who ring => who.wf && decide (ring < 2)
  | .ringResume who ring => who.wf && decide (ring < 2)
  | .ringStop who ring => who.wf && decide (ring < 2)
  | .ringStopped ring => decide (ring < 2)
  | .descriptorRead ring => decide (ring < 2)
  | .rejectedOpEnd ring => decide (ring < 2)
  | .tensorClockChange => true
  | .powerThrottleStart => true
  | .matmul ring => decide (ring < 2)
  | .conv ring => decide (ring < 2)
  | .golden => true
  | .attnScore ring => decide (ring < 2)
  | .attnValue ring => decide (ring < 2)
  | .attnMerge ring => decide (ring < 2)
  | .attnBwd ring => decide (ring < 2)
  | .reelScan ring => decide (ring < 2)
  | .eltwise ring => decide (ring < 2)
  | .cropResize ring => decide (ring < 2)
  | .fetch ring => decide (ring < 2)
  | .nop ring => decide (ring < 2)
  | .fence ring => decide (ring < 2)
  | .opEnd _ _ _ _ => true
  | .opOverrun _ => true
  | .goldenLatestExpiry => true
  | .goldenRunInsert => true
  | .tangoDisable who => who.wf
  | .tangoEnable who => who.wf
  | .visionDisable who => who.wf
  | .visionEnable who => who.wf
  | .streamCfgWrite who i _ _ => who.wf && decide (i < 256)
  | .streamReset who i => who.wf && decide (i < 256)
  | .reelDisable who => who.wf
  | .reelEnable who => who.wf
  | .timeRateWrite who _ => who.wf
  | .timeStepSet who => who.wf
  | .timeStepAdd who => who.wf
  | .timeStepSubtract who => who.wf
  | .timeStepApply => true
  | .evtLockLoss _ => true
  | .evtLockRegain => true
  | .ppsOutPulse => true
  | .ppsOutPulseEnd => true
  | .ppsInEdge _ _ => true
  | .triggerArmSingle who n _ => who.wf && decide (n < 16)
  | .triggerArmPeriodic who n _ => who.wf && decide (n < 16)
  | .triggerArmSet who n _ => who.wf && decide (n < 16)
  | .triggerArmClear who n _ => who.wf && decide (n < 16)
  | .triggerDisarm who n _ => who.wf && decide (n < 16)
  | .triggerTargetWrite who n _ => who.wf && decide (n < 16)
  | .triggerMatch n => decide (n < 16)
  | .triggerPulseEnd n => decide (n < 16)
  | .captureEdge n _ _ => decide (n < 16)
  | .captureEnqueue n => decide (n < 16)
  | .capturePop who n => who.wf && decide (n < 16)
  | .csi2FrameStart port vc => decide (port < 8) && decide (vc < 4)
  | .csi2Line port vc dt _ _ _ => decide (port < 8) && decide (vc < 4) && decide (dt < 64)
  | .csi2FrameEnd port vc => decide (port < 8) && decide (vc < 4)
  | .cameraTimeoutExpiry n => decide (n < 40)
  | .ethStreamPacket port _ _ _ ns _ => decide (port < 4) && decide (ns < 1000000000)
  | .ethGapExpiry n => decide (n < 40)
  | .audioSample source _ _ _ _ => decide (source < 6)
  | .tdmFsyncLoss port => decide (port < 2)
  | .spiStreamReadDone n _ _ => decide (n < 40)
  | .frameConditionStart => true
  | .frameDeliver n => decide (n < 40)
  | .ingReleaseWrite who n _ => who.wf && decide (n < 40)
  | .streamEnable who n _ => who.wf && decide (n < 40)
  | .streamDisable who n _ => who.wf && decide (n < 40)
  | .ingressDisable who => who.wf
  | .qdrRingTailWrite who _ => who.wf
  | .qdrJobNop => true
  | .project => true
  | .gridClear => true
  | .rangeVote => true
  | .associate => true
  | .predict => true
  | .publish => true
  | .qdrJobEnd => true
  | .qdrResume who _ => who.wf
  | .qdrTrackClear who _ => who.wf
  | .qdrDisable who _ => who.wf
  | .qdrEnable who _ => who.wf
  | .qdrPubReleaseWrite who _ => who.wf
  | .qdrConfigWrite who offset _ => who.wf && decide (offset < 65536)
  | .loopSample group _ => decide (group < 4)
  | .loopOutputApply loop => decide (loop < 128)
  | .loopEnable who loop _ => who.wf && decide (loop < 128)
  | .loopDisable who loop _ => who.wf && decide (loop < 128)
  | .loopRestart who loop => who.wf && decide (loop < 128)
  | .loopSafe who loop => who.wf && decide (loop < 128)
  | .loopOffEnter loop => decide (loop < 128)
  | .loopCfgWrite who loop offset _ => who.wf && decide (loop < 128) && decide (offset < 256)
  | .trajStartHiWrite who loop _ => who.wf && decide (loop < 128)
  | .waltzIdxWrite who loop _ => who.wf && decide (loop < 128)
  | .waltzBaseWrite who loop _ => who.wf && decide (loop < 128)
  | .shadowStart who engine _ => who.wf && decide (engine < 5)
  | .shadowStop who engine _ => who.wf && decide (engine < 5)
  | .engineDisable who engine _ => who.wf && decide (engine < 5)
  | .engineEnable who engine _ => who.wf && decide (engine < 5)
  | .handoverGo who _ => who.wf
  | .handoverApply => true
  | .encoderStateChange encoder _ _ _ => decide (encoder < 16)
  | .encoderIndex encoder => decide (encoder < 16)
  | .absFrameStart input _ => decide (input < 8)
  | .absFrameEnd input _ _ _ => decide (input < 8)
  | .pwmPeriodStart pair => decide (pair < 24)
  | .limitRawChange input _ => decide (input < 32)
  | .limitDebounceExpiry => true
  | .chatterWindowStart => true
  | .axisCauseClear who axis _ => who.wf && decide (axis < 32)
  | .homeGo who _ => who.wf
  | .homeAbort who _ => who.wf
  | .motionIoDisable who _ => who.wf
  | .motionIoEnable who _ => who.wf
  | .uartRxFrame uart _ _ _ _ => decide (uart < 4)
  | .uartRxPop who uart => who.wf && decide (uart < 4)
  | .uartTxWrite who uart _ => who.wf && decide (uart < 4)
  | .uartTxFrameDone uart => decide (uart < 4)
  | .ssuGo who problem _ => who.wf && decide (problem < 8)
  | .ssuCold who problem _ => who.wf && decide (problem < 8)
  | .ssuSolveStart => true
  | .ssuDeadlineExpiry _ _ => true
  | .ssuSolveEnd _ _ => true
  | .ssuDisable who _ => who.wf
  | .ssuEnable who _ => who.wf
  | .cinRun who _ => who.wf
  | .cinStop who _ => who.wf
  | .cinRearm who _ => who.wf
  | .cinFwFault who _ => who.wf
  | .cinStopReq who _ => who.wf
  | .cinRunReq who _ => who.wf
  | .coreHoldWrite who _ => who.wf
  | .restartEdge => true
  | .cinchRunEntry => true
  | .rearmExpiry => true
  | .lockstepMismatch => true
  | .cinEccError => true
  | .wdogKick who _ => who.wf
  | .wdogExpiry => true
  | .beatMonitorCheck _ => true
  | .vinMainLoss => true
  | .outputReadbackMismatch => true
  | .cinClockDeviation => true
  | .cinDemand => true
  | .safeStateCommand => true
  | .pwmKillExpiry => true
  | .cinVerdictWrite who _ => who.wf
  | .sealUnseal who r _ => who.wf && decide (r < 16)
  | .cinFrameStart => true
  | .frameDeadlineCheck => true
  | .gridClose => true
  | .shzIdle port f => decide (port < 2) && f.wf
  | .shzWrite port f => decide (port < 2) && f.wf
  | .shzRead port f => decide (port < 2) && f.wf
  | .shzRdata port f => decide (port < 2) && f.wf
  | .shzBkl port f => decide (port < 2) && f.wf
  | .shzE2eAck port f => decide (port < 2) && f.wf
  | .shzLinkReady port f => decide (port < 2) && f.wf
  | .shzLinkGo port f => decide (port < 2) && f.wf
  | .shzLinkAbort port f => decide (port < 2) && f.wf
  | .shzLinkAborted port f => decide (port < 2) && f.wf
  | .shzTime port f _ _ => decide (port < 2) && f.wf
  | .shzEnumWalk port f _ _ => decide (port < 2) && f.wf
  | .shzEnumAssign port f _ => decide (port < 2) && f.wf
  | .shzBeacon port f _ => decide (port < 2) && f.wf
  | .shzLeave port f => decide (port < 2) && f.wf
  | .shzErr port f => decide (port < 2) && f.wf
  | .shzReplayTimeout port => decide (port < 2)
  | .shzPortUp port _ _ => decide (port < 2)
  | .shzPortDown port _ => decide (port < 2)
  | .shzPortRetrain port => decide (port < 2)
  | .shzE2eAckTimer node => decide (node < 8)
  | .shzBeaconSend => true
  | .shzIsolateExpiry => true
  | .shzTimeExchange port _ => decide (port < 2)
  | .shzLinkLeadExpiry slot => decide (slot < 8)
  | .shzReadTimeout tag => decide (tag < 65536)
  | .shzEnum who _ => who.wf
  | .shzCtrlLeave who _ => who.wf
  | .shzDisable who _ => who.wf
  | .shzLeavePortsDown => true
  | .powerOnReset => true
  | .resetNAssert => true
  | .powerFault rail _ => decide (rail < 8)
  | .refLoss => true
  | .sysResetMain who key => who.wf && decide (key < 65536)
  | .mainResetEnd _ => true
  | .stewardBoot _ _ => true
  | .stwLoad who cls index => who.wf && decide (cls < 16) && decide (index < 16)
  | .stwActivate who cls index => who.wf && decide (cls < 16) && decide (index < 16)
  | .stwSetBoot who cls => who.wf && decide (cls < 16)
  | .stwFlashErase who _ => who.wf
  | .stwFlashWrite who _ => who.wf
  | .stwFlashVerify who _ => who.wf
  | .stwSelftest who cls index => who.wf && decide (cls < 16) && decide (index < 16)
  | .stwFuse who => who.wf
  | .stwCommandDone _ => true
  | .rfxYieldWrite who _ => who.wf
  | .activateTimeout => true
  | .fuseUnlockWrite who _ => who.wf
  | .powerCapSelect who cap => who.wf && decide (cap < 8)
  | .powerExcursion => true
  | .tempSensorUpdate _ => true
  | .thermalThrottleStep => true
  | .thermalTrip => true
  | .debugHaltRequest _ hart _ => hartIds.contains hart
  | .debugResumeRequest _ hart => hartIds.contains hart
  | .debugAccessRegister _ hart reg _ => hartIds.contains hart && reg.wf
  | .debugProgbufExec _ hart _ => hartIds.contains hart
  | .debugNdmreset _ => true
  | .tlgAuthWrite who _ => who.wf
  | .engineHaltWrite who _ => who.wf
  | .obpFiredClear who k => who.wf && decide (k < 4)
  | .tlgCntSelWrite who c _ => who.wf && decide (c < 512)
  | .tlgCntClr who => who.wf
  | .tlgSample => true
  | .pcieInboundWrite port addr _ found => decide (port < 2) && decide (addr < 2 ^ 48) && (found.all fun e => e.word % 8 = 0)
  | .pcieInboundRead port addr size found => decide (port < 2) && decide (addr < 2 ^ 48) && decide (1 ≤ size) && (found.all fun e => e.word % 8 = 0)
  | .pcieMsiWrite port _ => decide (port < 2)
  | .pcieLinkDown port _ => decide (port < 2)
  | .pcieLinkUp port _ _ => decide (port < 2)
  | .pcieCompletion port tag _ _ => decide (port < 2) && decide (tag < 65536)
  | .pcieCompletionTimeout port tag => decide (port < 2) && decide (tag < 65536)
  | .pcieErrorMessage port _ => decide (port < 2)
  | .pcieRetrain who port _ => who.wf && decide (port < 2)
  | .pciePerstWrite who port _ => who.wf && decide (port < 2)
  | .ethFrameReceive port _ _ _ ns => decide (port < 4) && decide (ns < 1000000000)
  | .ethQueueTailWrite who port _ queue _ => who.wf && decide (port < 4) && decide (queue < 8)
  | .ethTxFrameDone port queue _ ns _ => decide (port < 4) && decide (queue < 8) && decide (ns < 1000000000)
  | .gclGo who port _ => who.wf && decide (port < 4)
  | .gclSwap port => decide (port < 4)
  | .gateTransition port => decide (port < 4)
  | .csiNoClock port => decide (port < 8)
  | .canFrameReceive port _ _ => decide (port < 2)
  | .canFrameTransmit port _ _ => decide (port < 2)
  | .spiGo who master _ => who.wf && decide (master < 6)
  | .spiTransferDone master _ => decide (master < 6)
  | .i2cTransfer controller _ _ => decide (controller < 4)
  | .i2cRecover who controller => who.wf && decide (controller < 4)
  | .beat upsets _ _ => upsets.all fun e => e.word % 8 = 0
  | .railBackInTolerance rail => decide (rail < 8)
  | .cinDemandRelease => true
  | .cinRunWindowExpiry => true
  | .ethLinkChange port _ => decide (port < 4)
  | .shzBadCrcFlit port _ => decide (port < 2)

end Sys2Proof
end

