-- ==== Sys2Proof/Tests/Slice0.lean ====
section
/-!
SUPPORT. Tests/Slice0.lean: small checks of single steps, ill-formed commands that WellFormed refuses, and for every
statement with hypotheses a state and operands that meet them together.
-/

set_option Elab.async false

namespace Sys2Proof.Tests

open Sys2Proof Sys2Proof.Machine

/-! ### Small states -/

/-- The block with its main domain running. -/
def up : State := State.reset.flag Reg.sysStatus 0

/-- `s` with these registers written. -/
def put (s : State) (l : List (Nat × Word)) : State := l.foldl (fun s p => s.rset p.1 p.2) s

/-- A direct write that reaches its register. -/
theorem takes {s : State} {who : Initiator} {a : Nat} {v : Word}
    (h : (s.reachable a && !(regRow a).isNone && s.regPermits who a v && (isTrusted who || !s.vouched a) &&
      !s.committed.contains a && decide (spGet (fun _ => (0 : Word)) s.touched a = 0)) = true) : s.Takes who a v := by
  simp only [Bool.and_eq_true, Bool.or_eq_true, Bool.not_eq_true', decide_eq_true_eq] at h
  obtain ⟨⟨⟨⟨⟨h1, h2⟩, h3⟩, h4⟩, h5⟩, h6⟩ := h
  exact ⟨h1, h2, h3, h4, h5, h6⟩

/-- Word w of memory holds no bad code and no soft error. -/
theorem clean_of {s : State} {a n : Nat} (h : (decide (s.memPending = []) && (dwordsOf a n).all fun w => !s.suspect w) = true) :
    s.Clean a n := by
  simp only [Bool.and_eq_true, decide_eq_true_eq, List.all_eq_true, Bool.not_eq_true'] at h
  exact ⟨h.1, fun w hw => h.2 w hw⟩

/-- An address of Tier B. -/
def tierB0 : Nat := 0x10000000000

/-- An address of Tier A. -/
def tierA0 : Nat := 0x100000000

/-- Does the command lead to a state of which `f` holds. -/
def after (c : Instr) (s : State) (f : State → Bool) : Bool :=
  match exec c s with
  | .next t => f t
  | _ => false

/-- Tier B is trained, and pocket 0 holds all of Tier A and admits every class of initiator. -/
def memUp : State := put (up.flag Reg.trbStatus 0) [(Reg.canPocketActiveN 0, 0xFFFFF401)]

/-! ### Registers and memory -/

theorem witness_refused_writes :
    State.reset.writeOf (.hideEnable .steward) = some (.steward, Reg.hidCtrl, 1) ∧
      State.reset.reachable Reg.hidCtrl = false ∧ up.reachable Reg.hidCtrl = true := by decide +kernel

theorem witness_denied_write :
    up.writeOf (.wdogKick (.app 0) 0) = some (.app 0, Reg.cinWdogKick, 0) ∧ (regRow Reg.cinWdogKick).isNone = false ∧
      up.reachable Reg.cinWdogKick = true ∧ up.regPermits (.app 0) Reg.cinWdogKick 0 = false := by decide +kernel

/-- Loop 0's SP is the vouched destination 0. -/
def vouching : State := put up [(Reg.cinVdAddr 0, toWord (Reg.loopReg 0 0x7C)), (Reg.cinVdShape 0, 0x01000000)]

theorem witness_vouched_write :
    vouching.writeOf (.trajStartHiWrite (.app 0) 0 1) = some (.app 0, Reg.loopReg 0 0x7C, 1) ∧
      (regRow (Reg.loopReg 0 0x7C)).isNone = false ∧ vouching.reachable (Reg.loopReg 0 0x7C) = true ∧
      vouching.regPermits (.app 0) (Reg.loopReg 0 0x7C) 1 = true ∧ isTrusted (.app 0) = false ∧
      vouching.vouched (Reg.loopReg 0 0x7C) = true := by decide +kernel

theorem witness_committed_write :
    let s := { up with committed := [Reg.bkl 3] }
    s.writeOf (.buckleSet .steward 3 1 []) = some (.steward, Reg.bkl 3, 1) ∧ s.reachable (Reg.bkl 3) = true ∧
      s.regPermits .steward (Reg.bkl 3) 1 = true ∧ s.committed.contains (Reg.bkl 3) = true := by decide +kernel

theorem witness_committed_register_write :
    let s := { up with committed := [Reg.bkl 3] }
    inBlock (Reg.bkl 3) = true ∧ Reg.bkl 3 % 4 = 0 ∧ s.reachable (Reg.bkl 3) = true ∧
      s.regPermits .steward (Reg.bkl 3) 1 = true ∧ s.vouched (Reg.bkl 3) = false := by decide +kernel

theorem witness_hole :
    inBlock 0x1012FFFC = true ∧ up.reachable 0x1012FFFC = true ∧ (regRow 0x1012FFFC).isNone = true := by decide +kernel

theorem test_register_write_of_a_hole :
    after (.registerWrite (.app 0) 0x1012FFFC 5 0) up (fun t => decide (t = up.respond .done)) = true := by decide +kernel

/-- A register of Tier B's controllers has no rule of its own. -/
theorem witness_plain_register :
    inBlock Reg.trbScrubCfg = true ∧ Reg.trbScrubCfg % 4 = 0 ∧ up.Takes .steward Reg.trbScrubCfg 7 ∧
      (∃ r, regRow Reg.trbScrubCfg = some r ∧ r.FieldsApart) ∧ PlainRegister .steward Reg.trbScrubCfg :=
  ⟨by decide +kernel, by decide +kernel, takes (by decide +kernel), ⟨_, rfl, by decide +kernel, by decide +kernel⟩, fun _ _ => rfl⟩

theorem witness_clearing_read :
    inBlock Reg.hidCycClr = true ∧ up.reachable Reg.hidCycClr = true ∧ (regRow Reg.hidCycClr).isSome = true := by decide +kernel

theorem witness_processor_access :
    isProcessor (.app 0) = true ∧ sizeOk 8 = true ∧ alignedFor (.app 0) tierB0 8 = true ∧ inMemory tierB0 ∧
      memUp.Clean tierB0 8 ∧ memUp.longDenied (.app 0) tierB0 8 = none ∧ memUp.readable tierB0 = true ∧
      memUp.readable (tierB0 + 7) = true ∧ cachedFor (.app 0) tierB0 = true ∧ cachedFor (.reflex 0) tierB0 = false ∧
      alignedFor (.reflex 0) tierB0 8 = true :=
  ⟨by decide +kernel, by decide +kernel, by decide +kernel, by unfold inMemory; decide +kernel, clean_of (by decide +kernel), by decide +kernel, by decide +kernel, by decide +kernel,
    by decide +kernel, by decide +kernel, by decide +kernel⟩

theorem test_cluster_sees_its_cache :
    { memUp with cache := [(tierB0, some ⟨[4, 3, 2, 1, 0, 0, 0, 0], some 0⟩)] }.seenNat (.app 5) tierB0 2 = 0x0304 := by decide +kernel

theorem test_others_do_not_snoop :
    after (.processorLoad (.reflex 1) tierB0 2 []) { memUp with cache := [(tierB0, some ⟨[4, 3, 2, 1, 0, 0, 0, 0], some 0⟩)] }
      (fun t => decide (t.resp = .data 0)) = true := by decide +kernel

/-- Core 0 has written to a word of Tier B that the cluster holds. -/
def dirtyLine : State := { memUp with cache := [(tierB0, some ⟨List.replicate 8 1, some 0⟩)] }

theorem witness_cache_block :
    isProcessor (.app 0) = true ∧ dirtyLine.buffers = [] ∧ cachedFor (.app 0) tierB0 = true ∧ dirtyLine.memPending = [] ∧
      (∀ w ∈ lineWords tierB0, dirtyLine.writeDenied (.app 3) w 8 = none) ∧
      (∀ w ∈ lineWords tierB0, (dirtyLine.cachedWord w).all fun c => c.bytes.length = 8) ∧
      isProcessor (.reflex 0) = true ∧ cachedFor (.reflex 0) tierB0 = false := by decide +kernel

theorem test_clean_writes_the_line :
    after (.processorStore (.app 1) .clean (tierB0 + 5) 8 0 []) dirtyLine
      (fun t => decide (t.readByte tierB0 = 1 ∧ (t.cachedWord tierB0).isSome)) = true := by decide +kernel

theorem test_inval_drops_the_line :
    after (.processorStore (.app 1) .inval tierB0 8 0 []) dirtyLine
      (fun t => decide (t.readByte tierB0 = 0 ∧ t.cachedWord tierB0 = none)) = true := by decide +kernel

/-- A word of Tier B and one of Tier A that cannot be corrected. -/
def badWords : State := { memUp with bad := [tierB0, tierA0] }

theorem witness_uncorrectable_word (a : Nat) (h : a = tierB0 ∨ a = tierA0) :
    inMemory a ∧ badWords.buffers = [] ∧ badWords.memPending = [] ∧ a ∈ dwordsOf a 4 ∧ badWords.bad.contains a = true ∧
      (regionOf a = .tierA ∨ regionOf a = .tierB) ∧ badWords.cachedWord a = none ∧ badWords.readable a = true ∧
      badWords.readable (a + 3) = true ∧ badWords.longDenied (.reflex 0) a 4 = none ∧ ¬ (a ≤ a ∧ a + 8 ≤ a + 4) := by
  obtain rfl | rfl := h <;> (unfold inMemory; decide +kernel)

theorem test_bad_word_is_not_delivered :
    after (.processorLoad (.reflex 0) tierA0 4 []) badWords
      (fun t => decide (t.resp = .accessFault ∧ t.rget Reg.canEccUeCount = 1)) = true := by decide +kernel

theorem test_bad_word_of_tier_b :
    after (.processorLoad (.reflex 0) (tierB0 + 6) 1 []) badWords
      (fun t => decide (t.resp = .accessFault ∧ t.rget Reg.trbUeCount = 1 ∧ t.rget Reg.trbErrAddrHi = 0x100)) = true := by decide +kernel

theorem witness_atomic_elsewhere : regionOf tierA0 ≠ .tierB := by decide +kernel

theorem witness_atomic :
    isProcessor (.app 0) = true ∧ regionOf tierB0 = .tierB ∧ tierB0 % 8 = 0 ∧ memUp.Clean tierB0 8 ∧
      memUp.readable tierB0 = true ∧ memUp.readable (tierB0 + 7) = true ∧ memUp.longDenied (.app 0) tierB0 8 = none ∧
      memUp.buffers = [] ∧ memUp.holds (.app 0) tierB0 = false ∧
      { memUp with reservations := [(initCode (.app 0), lineOf tierB0)] }.holds (.app 0) tierB0 = true :=
  ⟨by decide +kernel, by decide +kernel, by decide +kernel, clean_of (by decide +kernel), by decide +kernel, by decide +kernel, by decide +kernel, by decide +kernel, by decide +kernel, by decide +kernel⟩

theorem test_amo_add_wraps : atomicResult .add 32 0xFFFFFFFF 2 = 1 := by decide +kernel

theorem test_sc_without_reservation :
    after (.lrScAmo (.app 0) .sc tierB0 4 5 []) memUp (fun t => decide (t.resp = .data 1 ∧ t.readByte tierB0 = 0)) = true := by decide +kernel

/-! ### Buckles and waits -/

theorem witness_buckle_set :
    (16383 : Nat) < 16384 ∧ up.mainOn = true ∧ up.Takes .steward (Reg.bkl 16383) 5 ∧
      (∀ g ∈ [(⟨.app 0, false, 2, false⟩ : Signal), ⟨.ingress, true, 9, false⟩], g.isSet = true → signalRank g < sourceRank .steward) ∧
      isTrusted .steward = true :=
  ⟨by decide +kernel, by decide +kernel, takes (by decide +kernel), by decide +kernel, by decide +kernel⟩

theorem test_buckle_set_and_add :
    after (.buckleSet .steward 3 5 [⟨.app 0, false, 2, false⟩]) up (fun t => decide (t.buckle 3 = 7)) = true := by decide +kernel

theorem witness_buckle_add :
    up.Takes (.app 0) (Reg.bklAdd 0 4095) 0xFFFFFFFF ∧ isProtected 4095 = false ∧
      (∀ g ∈ [(⟨.app 1, false, 2, false⟩ : Signal)], g.isSet = false) :=
  ⟨takes (by decide +kernel), by decide +kernel, by decide +kernel⟩

theorem test_buckle_add_wraps :
    after (.buckleAdd (.app 0) 4095 0xFFFFFFFF [⟨.app 1, false, 2, false⟩]) up (fun t => decide (t.buckle 4095 = 1)) = true := by decide +kernel

/-- The first and the last protected buckle. -/
theorem witness_protected_buckle :
    isProtected 16383 = true ∧ isProtected 0 = false ∧ up.Takes (.app 0) (Reg.bkl 16383) 1 ∧
      up.Takes (.app 0) (Reg.bklAdd 3 4095) 1 ∧ isTrusted (.app 0) = false :=
  ⟨by decide +kernel, by decide +kernel, takes (by decide +kernel), takes (by decide +kernel), by decide +kernel⟩

theorem test_protected_buckle_faults :
    after (.buckleSet (.app 0) 16383 1 []) up
      (fun t => decide (t.resp = .accessFault ∧ t.buckle 16383 = 0 ∧ t.rget (Reg.bklFaultCount 3) = 1)) = true := by decide +kernel

/-- Slot 63 of block 3 watches buckle 7 and waits for 4. -/
def waiting : State :=
  put up [(Reg.bklWaitCfg 3 63, 7), (Reg.bklWaitTarget 3 63, 4), (Reg.bklWaitStatus 3 63, 1)]

theorem witness_wait_signal :
    waiting.Takes .steward (Reg.bkl 7) 4 ∧ waiting.bit (Reg.bklWaitStatus 3 63) 0 = true ∧
      waiting.fget (Reg.bklWaitCfg 3 63) 13 0 = 7 ∧
      waitSatisfied (waiting.bit (Reg.bklWaitCfg 3 63) 17) 4 (waiting.rget (Reg.bklWaitTarget 3 63)) = true ∧
      waitSatisfied (waiting.bit (Reg.bklWaitCfg 3 63) 17) 3 (waiting.rget (Reg.bklWaitTarget 3 63)) = false :=
  ⟨takes (by decide +kernel), by decide +kernel, by decide +kernel, by decide +kernel, by decide +kernel⟩

theorem test_wait_hits :
    after (.buckleSet .steward 7 4 []) waiting (fun t => decide (t.rget (Reg.bklWaitStatus 3 63) = 2)) = true := by decide +kernel

theorem test_wait_equal_only :
    waitSatisfied true 5 4 = false ∧ waitSatisfied false 5 4 = true ∧ waitSatisfied false 3 0xFFFFFFFF = true := by decide +kernel

theorem witness_wait_writes :
    up.Takes .steward (Reg.bklWaitCfg 3 63) (waitCfgWord 16383 true true) ∧
      up.Takes .steward (Reg.bklWaitCfg 0 0) (waitCfgWord 0 false false) ∧ waiting.Takes .steward (Reg.bklWaitTarget 3 63) 0 ∧
      waitSatisfied true (up.buckle 16383) (up.rget (Reg.bklWaitTarget 3 63)) = true ∧
      waitSatisfied false (waiting.buckle 7) (waiting.rget (Reg.bklWaitTarget 3 63)) = false ∧
      waitSatisfied (waiting.bit (Reg.bklWaitCfg 3 63) 17) (waiting.buckle 7) 0 = true :=
  ⟨takes (by decide +kernel), takes (by decide +kernel), takes (by decide +kernel), by decide +kernel, by decide +kernel, by decide +kernel⟩

theorem test_wait_disarm_keeps_hit :
    after (.waitDisarm .steward 3 63 7 false) (waiting.rset (Reg.bklWaitStatus 3 63) 3)
      (fun t => decide (t.rget (Reg.bklWaitStatus 3 63) = 2)) = true := by decide +kernel

theorem test_wait_arm_hits_at_once :
    after (.waitArm .steward 0 0 5 false) up (fun t => decide (t.rget (Reg.bklWaitStatus 0 0) = 2)) = true := by decide +kernel

theorem test_wait_target_write :
    after (.waitTargetWrite .steward 3 63 0) waiting (fun t => decide (t.rget (Reg.bklWaitStatus 3 63) = 2)) = true := by decide +kernel

/-! ### Cantle and Tier B -/

theorem witness_pocket_commit :
    up.Takes .steward Reg.canPocketCommit 1 ∧ (up.bput Reg.canStatus 0 false).Takes .steward Reg.canPocketCommit 1 ∧
      up.bit Reg.canStatus 0 = true ∧ (up.bput Reg.canStatus 0 false).bit Reg.canStatus 0 = false :=
  ⟨takes (by decide +kernel), takes (by decide +kernel), by decide +kernel, by decide +kernel⟩

theorem test_pocket_commit :
    after (.pocketCommitGo .steward) (put up [(Reg.canPocketCfgN 7, 0xF0401)])
      (fun t => decide (t.rget (Reg.canPocketActiveN 7) = 0xF0401)) = true := by decide +kernel

theorem test_pocket_commit_refused :
    after (.pocketCommitGo .steward) (put (up.bput Reg.canStatus 0 false) [(Reg.canPocketCfgN 7, 0xF0401)])
      (fun t => decide (t.rget (Reg.canPocketActiveN 7) = 0 ∧ t.bit Reg.canStatus 1 = true)) = true := by decide +kernel

/-- The scrubbers run. -/
def scrubbing : State := put memUp [(Reg.canScrubCfg, 1), (Reg.trbScrubCfg, 1)]

theorem witness_scrub :
    scrubbing.mainOn = true ∧ scrubbing.fget Reg.canScrubCfg 15 0 ≠ 0 ∧ scrubbing.fget Reg.trbScrubCfg 15 0 ≠ 0 ∧
      regionOf (tierA0 + 0xFFFFFF8) = .tierA ∧ scrubbing.readable (tierA0 + 0xFFFFFF8) = true ∧ regionOf tierB0 = .tierB ∧
      scrubbing.readable tierB0 = true ∧ scrubbing.bad.contains tierB0 = false := by decide +kernel

theorem test_scrub_is_late :
    after (.cantleScrubPass false [⟨tierA0, .correctable⟩]) scrubbing
      (fun t => decide (t.rget Reg.canEccCeCount = 1 ∧ t.bit Reg.canStatus 4 = true)) = true := by decide +kernel

theorem test_scrub_uncorrectable :
    after (.trbScrubPass [⟨tierB0, .uncorrectable⟩]) scrubbing
      (fun t => decide (t.rget Reg.trbUeCount = 1 ∧ t.bad = [tierB0])) = true := by decide +kernel

/-- A window flags one hot pseudo-channel where the threshold is low, and not at the reset threshold of its own. -/
theorem witness_imbalance :
    up.mainOn = true ∧ windowFlagged (put up [(Reg.trbImbCfg, 0x01000100)]) (loadsOf up.seed [(tierB0, 2048)]) ∧
      ¬ windowFlagged up (loadsOf up.seed []) := by
  refine ⟨by decide +kernel, by unfold windowFlagged; decide +kernel, by unfold windowFlagged; decide +kernel⟩

theorem witness_stack_throttle : (3 : Nat) < 4 ∧ up.mainOn = true := by decide +kernel

theorem test_stack_throttle_stays :
    after (.stackThrottle 3 .temperature false) { up with throttles := [(3, .current)] }
      (fun t => decide (t.bit Reg.trbStatus 14 = true ∧ t.bit Reg.trbStatus 10 = true)) = true := by decide +kernel

/-- Tier B trains. -/
def training : State := { up with stw := { up.stw with training := true } }

theorem witness_training : training.stw.training = true ∧ (∀ k, k < 4 → k ∈ [0, 1, 2, 3]) := by decide +kernel

theorem test_training_done :
    after (.trbTrainingDone [0, 1, 2, 3]) training (fun t => decide (t.bit Reg.trbStatus 0 = true)) = true := by decide +kernel

theorem witness_stall_clear :
    up.Takes .steward Reg.hidCycClr 1 ∧ up.Takes .steward Reg.tlgCntClr 1 :=
  ⟨takes (by decide +kernel), takes (by decide +kernel)⟩

/-! ### The tensor IOMMU -/

/-! ### The tensor IOMMU -/

/-- An entry of the IOTLB and one of the non-leaf cache. -/
def cachedWalks : State :=
  { up with
    tlb := [⟨0, 7, 0x5000, 12, 0x10000005000, true, true, false⟩, ⟨0, 8, 0x200000, 21, 0x10000200000, true, false, true⟩]
    dirs := [⟨0, 7, 1, 0, 0x10000001⟩] }

theorem witness_iommu_commands :
    cachedWalks.mainOn = true ∧ cachedWalks.cqStopped = false ∧
      (cachedWalks.flag Reg.iomCqcsr 8).cqStopped = true := by decide

theorem test_iotinval_vma_by_address :
    after (.iotinvalVma (some 0x5FFF) none) cachedWalks (fun t => decide (t.tlb.map (·.pscid) = [8])) = true := by decide

theorem test_iotinval_vma_keeps_global :
    after (.iotinvalVma none (some 8)) cachedWalks (fun t => decide (t.tlb.map (·.pscid) = [7, 8])) = true := by decide

theorem witness_iofence :
    inTiers tierB0 = true ∧ memUp.readable tierB0 = true ∧ tierB0 % 4 = 0 ∧ memUp.Clean tierB0 4 ∧ memUp.cqStopped = false :=
  ⟨by decide, by decide, by decide, clean_of (by decide), by decide⟩

theorem test_iofence_stores :
    after (.iofenceC (some (tierB0, 0x01020304))) memUp (fun t => decide (t.readBytes tierB0 4 = [4, 3, 2, 1])) = true := by
  decide

/-- Device 0 has Sv48 with the root table at 0x10000001000; its first entry is a leaf of 512 GiB at the base of Tier B. -/
def walking : State :=
  { put memUp [(Reg.iomDdtpLo, 2)] with
    devCtxs := [(0, ⟨1, 0, 9 * 2 ^ 60 + 0x10000001⟩)]
    mem := [(0x10000001000, 0xD7), (0x10000001004, 0x40)] }

/-- What a translation finds. -/
def found (s : State) (iova : Nat) : Option Nat :=
  match (s.walkFill 0 0 0 iova 0x10000001 false).2 with
  | .ok l => some l.size
  | .error _ => none

theorem witness_walk :
    walking.mainOn = true ∧ regionOf 0x5000 ≠ .tierA ∧ (walking.hpmCount 1 0 0 0).space 0 0 =
      (walking.hpmCount 1 0 0 0, .sv48 0x10000001 0) ∧ canonical 0x5000 = true ∧ found walking 0x5000 = some 39 ∧
      found walking 0x8000000000 = none ∧ canonical 0x8000000000 = true ∧ walking.ten.run = none := by decide +kernel

theorem test_walk_fills :
    after (.iotlbWalkComplete 0 0 0x5000 false none) walking
      (fun t => decide (t.tlb.map (·.pa) = [0x10000000000] ∧ t.rget Reg.iomMissCount = 1)) = true := by decide +kernel

/-- Swap slot 7 swaps process 1 of device 0, whose process directory stands at 0x10000002000 and its device context at 0x10000004000; its context is valid. -/
def swapping : State :=
  { put memUp [(Reg.iomDdtpLo, 0x1002), (Reg.iomDdtpLo + 4, 0x40), (Reg.iomSwapId 7, 1), (Reg.iomSwapRootLo 7, 0x10000003)] with
    tlb := [⟨0, 5, 0x5000, 12, 0x10000005000, true, true, false⟩, ⟨0, 0, 0x5000, 12, 0x10000005000, true, true, false⟩]
    mem := [(0x10000002010, 1), (0x10000002011, 0x50), (0x10000004000, 0x21), (0x10000004018, 2), (0x1000000401B, 0x10),
      (0x1000000401F, 0x10)] }

/-- What the swap would replace. -/
def swapFinds (s : State) : Option Nat :=
  match (State.swapTargets 1 (s.putRw (Reg.iomSwapRootHi 7) 0) [0]).2 with
  | .ok xs => some xs.length
  | .error _ => none

theorem witness_root_swap :
    swapping.Takes .steward (Reg.iomSwapRootHi 7) 0 ∧ swapping.bit (Reg.iomSwapStatus 7) 0 = false ∧
      swapFinds swapping = some 1 ∧ inTiers (0x10000003 * 4096) = true ∧ inTiers 0 = false ∧
      swapFinds { swapping with mem := [] } = none ∧ swapping.memPending = [] ∧ swapping.upsets = [] ∧
      (swapping.flag (Reg.iomSwapStatus 7) 0).Takes .steward (Reg.iomSwapRootHi 7) 0 :=
  ⟨takes (by decide +kernel), by decide +kernel, by decide +kernel, by decide, by decide, by decide +kernel, by decide,
    by decide, takes (by decide +kernel)⟩

theorem test_root_swap :
    after (.iomSwapRootHiWrite .steward 7 0 0 false) swapping
      (fun t => decide (t.readBytes 0x10000002018 8 = [3, 0, 0, 0x10, 0, 0, 0, 0x90] ∧ t.tlb.map (·.pscid) = [0])) = true := by
  decide +kernel

theorem test_root_swap_refused :
    after (.iomSwapRootHiWrite .steward 7 0 0 false) (swapping.flag (Reg.iomSwapStatus 7) 0)
      (fun t => decide (t.fget (Reg.iomSwapStatus 7) 11 8 = 1 ∧ t.tlb = swapping.tlb)) = true := by decide +kernel

/-- Slot 7 waits for one old walk, slot 6 for none. -/
def oldWalks : State :=
  { (swapping.flag (Reg.iomSwapStatus 7) 0).flag (Reg.iomSwapStatus 6) 0 with
    swapRuns := [⟨6, 0, [(0, 9)]⟩, ⟨7, 1, [(0, 0x10000001)]⟩] }

theorem witness_swap_done :
    oldWalks.bit (Reg.iomSwapStatus 6) 0 = true ∧ (∀ r ∈ oldWalks.swapRuns, r.slot = 6 → r.walksLeft = 0) ∧
      (∃ r ∈ oldWalks.swapRuns, r.slot = 7 ∧ 0 < r.walksLeft) ∧ oldWalks.ten.run = none ∧
      (oldWalks.swapRuns.find? fun r => r.slot = 7 ∧ 0 < r.walksLeft).isSome = true := by decide +kernel

theorem test_swap_done_waits :
    after (.iomSwapDone 7) oldWalks (fun t => decide (t = oldWalks)) = true ∧
      after (.iomSwapDone 6) oldWalks (fun t => decide (t.bit (Reg.iomSwapStatus 6) 1 = true)) = true := by decide +kernel

/-! ### Transactions -/

/-- Transaction 63 is OPEN, and transaction 62 has committed; the Steward owns both. -/
def opened : State := put memUp [(Reg.txnStatus 63, 0x1001), (Reg.txnStatus 62, 0x1003), (Reg.txnAtLo 63, 4)]

theorem plain_of {s : State} {n : Nat}
    (h : (decide ((s.txn n).seals = []) && !s.cin.queue.contains n && (s.linkOf n).isNone && !s.bit (Reg.txnDone n) 30) = true) :
    txnPlain s n := by
  simp only [Bool.and_eq_true, Bool.not_eq_true', decide_eq_true_eq, Option.isNone_iff_eq_none] at h
  exact ⟨h.1.1.1, by simpa using h.1.1.2, h.1.2, h.2⟩

theorem witness_transaction_commands :
    up.Takes .steward (Reg.txnCtrl 63) 1 ∧ up.txnState 63 = 0 ∧ initCode .steward ≠ 0xFF ∧ opened.txnState 63 ≠ 0 ∧
      opened.Takes .steward (Reg.txnCtrl 63) (toWord (2 + 16 * b2n false)) ∧ opened.isOwner .steward 63 = true ∧
      opened.txnState 63 = 1 ∧ opened.txnLate 63 false = false ∧ opened.needsVouch 63 = false ∧ opened.linkOf 63 = none ∧
      opened.txnState 62 = 3 ∧ opened.Takes .steward (Reg.txnCtrl 62) 4 ∧ opened.isOwner .steward 62 = true ∧
      txnPlain opened 63 ∧ (opened.rset (Reg.txnAtLo 63) 3).txnLate 63 false = true ∧ opened.txnExpired 63 = false ∧
      ({ put opened [(Reg.txnTimeout 63, 1)] with txns := [(63, { Txn.idle with openBeat := 0 })] }.set64 Reg.tmbBeatLo 500).txnExpired 63 = true :=
  ⟨takes (by decide +kernel), by decide +kernel, by decide, by decide +kernel, takes (by decide +kernel), by decide +kernel,
    by decide +kernel, by decide +kernel, by decide +kernel, by decide +kernel, by decide +kernel, takes (by decide +kernel),
    by decide +kernel, plain_of (by decide +kernel), by decide +kernel, by decide +kernel, by decide +kernel⟩

theorem test_txn_open :
    after (.txnOpen (.app 3) 63) up (fun t => decide (t.rget (Reg.txnStatus 63) = 0x301 ∧ t.fget Reg.txnGlobalStatus 6 0 = 1)) = true := by
  decide +kernel

theorem test_txn_arm_on_time :
    after (.txnArm .steward 63 false false) opened (fun t => decide (t.txnState 63 = 2)) = true := by decide +kernel

theorem test_txn_arm_late :
    after (.txnArm .steward 63 false false) (opened.rset (Reg.txnAtLo 63) 3)
      (fun t => decide (t.txnState 63 = 4 ∧ t.fget (Reg.txnStatus 63) 7 4 = 7)) = true := by decide +kernel

theorem test_txn_abort_by_another :
    after (.txnAbort (.app 0) 63) opened (fun t => decide (t.txnState 63 = 1)) = true := by decide +kernel

theorem test_txn_release :
    after (.txnRelease .steward 62) opened (fun t => decide (t.rget (Reg.txnStatus 62) = 0x1000)) = true := by decide +kernel

/-- The stage of transaction 63 holds an entry for buckle 5, the first of its entries. -/
def staging : State := put opened [(Reg.txnStageAddrLo 63, toWord (Reg.bkl 5)), (Reg.txnStageDataLo 63, 9)]

/-- 256 entries stand in the list. -/
def fullTxn : State := { staging with txns := [(63, { Txn.idle with entries := List.replicate 256 ⟨0, Reg.bkl 5, 9, 0⟩ })] }

theorem witness_staging :
    staging.Takes .steward (Reg.txnStagePush 63) 1 ∧ staging.isOwner .steward 63 = true ∧ staging.txnState 63 = 1 ∧
      (staging.txn 63).entries.length < 256 ∧ staging.targetAccepts (staging.txnOwner 63) (staging.stagedEntry 63) = true ∧
      (fullTxn.txn 63).entries.length = 256 ∧ txnPlain fullTxn 63 ∧
      (let s := staging.rset (Reg.txnStageAddrLo 63) 0x2000; s.targetAccepts (s.txnOwner 63) (s.stagedEntry 63)) = false ∧
      staging.txnState 62 ≠ 1 ∧ staging.Takes .steward (Reg.txnStagePush 62) 1 :=
  ⟨takes (by decide +kernel), by decide +kernel, by decide +kernel, by decide +kernel, by decide +kernel, by decide +kernel,
    plain_of (by decide +kernel), by decide +kernel, by decide +kernel, takes (by decide +kernel)⟩

theorem test_stage_push :
    after (.txnStagePush .steward 63) staging
      (fun t => decide ((t.txn 63).entries = [⟨0, Reg.bkl 5, 9, 0⟩] ∧ t.buckle 5 = 0)) = true := by decide +kernel

theorem test_stage_push_overflows :
    after (.txnStagePush .steward 63) fullTxn (fun t => decide (t.fget (Reg.txnStatus 63) 7 4 = 9)) = true := by decide +kernel

/-- The beat runs, and transaction 63 is due with one memory word. -/
def due : State :=
  { put memUp [(Reg.sysStatus, 3), (Reg.txnStatus 63, 0x1002)] with
    txns := [(63, { Txn.idle with entries := [⟨1, tierA0, 0x11, 0x22⟩] })]
    tmb := { memUp.tmb with started := true } }

theorem witness_commit :
    due.beating = true ∧ due.mainOn = true ∧ due.placeOpen 8 = true ∧ due.dueTxns = [63] ∧ due.txnState 63 = 2 ∧
      txnPlain due 63 ∧ due.bit (Reg.txnDone 63) 31 = false ∧ due.txnExpired 63 = false ∧ due.vouchNeeded 63 = false ∧
      due.commitReason 63 = 0 ∧ (∀ e ∈ (due.txn 63).entries, e.isMemory = true) ∧
      (∀ e ∈ (due.txn 63).entries, due.targetAccepts (due.txnOwner 63) e = true) ∧ up.placeOpen 8 = true ∧
      (due.txn 62).entries = [] ∧ up.beating = false :=
  ⟨by decide +kernel, by decide +kernel, by decide +kernel, by decide +kernel, by decide +kernel, plain_of (by decide +kernel),
    by decide +kernel, by decide +kernel, by decide +kernel, by decide +kernel, by decide +kernel, by decide +kernel,
    by decide +kernel, by decide +kernel, by decide +kernel⟩

theorem witness_guard :
    let s := put due [(Reg.txnGuard 63, 0x80000005), (Reg.txnGuardVal 63, 1)]
    s.bit (Reg.txnGuard 63) 31 = true ∧ s.buckle (s.fget (Reg.txnGuard 63) 13 0) ≠ s.rget (Reg.txnGuardVal 63) ∧
      s.dueTxns = [63] := by decide +kernel

theorem test_commit :
    after .txnCommitBeat due
      (fun t => decide (t.txnState 63 = 3 ∧ t.readByte tierA0 = 0x11 ∧ t.readByte (tierA0 + 4) = 0x22 ∧ t.mem = [])) = true := by
  decide +kernel

theorem test_commit_guarded :
    after .txnCommitBeat (put due [(Reg.txnGuard 63, 0x80000005), (Reg.txnGuardVal 63, 1)])
      (fun t => decide (t.fget (Reg.txnStatus 63) 7 4 = 5 ∧ t.readByte tierA0 = 0)) = true := by decide +kernel

theorem witness_memory_entry :
    let s := { memUp with memPending := [⟨1, tierB0, 1, 2⟩] }
    s.memPending ≠ [] ∧ ∀ w ∈ dwordsOf tierB0 8, s.suspect w = false := by decide +kernel

theorem test_memory_entry_write :
    after .txnMemoryEntryWrite { memUp with memPending := [⟨1, tierB0, 1, 2⟩] }
      (fun t => decide (t.mem = [(tierB0, 1), (tierB0 + 4, 2)] ∧ t.memPending = [])) = true := by decide +kernel

/-- Snapshot slot 7 was latched with one word, and slot 6 named a range that is not valid. -/
def latched : State :=
  { up.flag Reg.txnSnapStatus 7 with
    snaps := [⟨7, (Reg.bkl 5 - 0x10000000) / 4, 1, 2, some [9]⟩, ⟨6, 0, 33, 2, some []⟩, ⟨5, 0, 1, 0, none⟩] }

theorem witness_snapshots :
    up.Takes .steward Reg.txnSnapGo (toWord (2 ^ 7)) ∧ up.bit Reg.txnSnapStatus 7 = false ∧
      latched.snaps.find? (fun r => r.slot = 7) = some ⟨7, (Reg.bkl 5 - 0x10000000) / 4, 1, 2, some [9]⟩ ∧
      snapValid ((Reg.bkl 5 - 0x10000000) / 4) 1 = true ∧ snapValid 0 33 = false :=
  ⟨takes (by decide +kernel), by decide +kernel, by decide +kernel, by decide +kernel, by decide +kernel⟩

theorem test_snapshot_complete :
    after (.snapshotComplete 7) latched
      (fun t => decide (t.rget (Reg.txnSnapData 7 0) = 9 ∧ t.rget (Reg.txnSnapBeatLo 7) = 2)) = true := by decide +kernel

theorem test_snapshot_error :
    after (.snapshotComplete 6) latched (fun t => decide (t.bit Reg.txnSnapStatus 14 = true)) = true := by decide +kernel

/-! ### Units, windows and rings -/

theorem witness_unit_switch :
    up.Takes .steward Reg.hidCtrl 0 ∧ up.Takes .steward Reg.visCtrl 1 ∧ up.fget (unitStatus 1) 1 0 = 0 ∧
      (put up [(unitStatus 5, 1)]).fget (unitStatus 5) 1 0 = 1 ∧ (put up [(unitStatus 5, 3)]).fget (unitStatus 5) 1 0 = 3 ∧
      up.ten.run = none :=
  ⟨takes (by decide +kernel), takes (by decide +kernel), by decide +kernel, by decide +kernel, by decide +kernel, by decide⟩

theorem test_hide_drains :
    after (.hideDisable .steward) (put up [(unitStatus 1, 1)]) (fun t => decide (t.fget (unitStatus 1) 1 0 = 2)) = true ∧
      after (.hideDisable .steward) up (fun t => decide (t.fget (unitStatus 1) 1 0 = 3)) = true := by decide +kernel

theorem test_vision_returns :
    after (.visionEnable .steward) (put up [(unitStatus 5, 3)]) (fun t => decide (t.fget (unitStatus 5) 1 0 = 0)) = true := by
  decide +kernel

/-- Some 32-bit words in memory order. -/
def words (l : List Nat) : List Byte := (l.map (natToBytes 4)).flatten

/-- A tensor descriptor of rank 2 with rows of `s1` bytes. -/
def tdesc (fmt mode addr d0 d1 s1 : Nat) : List Byte :=
  words [1 + 16 * fmt + 256 * mode + 65536, 0, addr % 2 ^ 32, addr / 2 ^ 32, 0, 0, d0, d1, 1, 1, s1, 0, 0, 0, 0, 0]

/-- An op descriptor with words 0x40 to 0x48. -/
def opDesc (opcode m n k : Nat) : List Byte :=
  words ([1 + 256 * opcode] ++ List.replicate 15 0 ++ [m, n, k] ++ List.replicate 13 0)

/-- An op that passed its checks. -/
def anOp (index : Word) (desc : List Byte) (tds : List (List Byte)) : OpEntry := ⟨index, desc, tds, 0, 0, 0, 0, 0, 0⟩

/-- A MATMUL of one element on INT8 operands of Tier A, its N side in place or in window 0. -/
def tinyMatmul (mode : Nat) : OpEntry :=
  anOp 4 (opDesc 0x10 1 1 1) [tdesc 0 0 tierB0 1 1 4, tdesc 8 0 tierA0 1 1 1, tdesc 8 mode (if mode = 0 then tierA0 + 64 else tierB0 + 64) 1 1 1, [], [], [], [], []]

/-- The tensor IOMMU maps every address to itself. -/
def tensorUp : State := put memUp [(Reg.iomDdtpLo, 1)]

/-- Window 0 is set up at the base of Tier A, and the MATMUL at the head of ring 0 waits for its record. -/
def windowed : State :=
  { put tensorUp [(Reg.latWinCfg 0, 0x0F01), (Reg.latWinStatus 0, 0), (Reg.calRingStatus 0, 1)] with
    ten := { tensorUp.ten with q0 := [tinyMatmul 0x21] } }

/-- The window is full of another record. -/
def fullWindow : State :=
  { windowed with ten := { windowed.ten with wins := [(0, { Window.idle with wr := 16 * 65536 })] } }

/-- A byte of a record has no room yet in window 0. -/
def leftOver : State :=
  { windowed with ten := { windowed.ten with wins := [(0, { Window.idle with rest := [7] })] } }

/-- The feed is past slot 0. -/
def fedWindow : State :=
  { windowed with ten := { windowed.ten with wins := [(0, { Window.idle with wr := 65540, rd := 65537 })] } }

theorem witness_windows :
    windowed.winReady 0 = true ∧ (windowed.fillNext 0).isSome = true ∧
      (windowed.window 0).wr < ((windowed.window 0).freed + windowed.slotCount 0) * windowed.slotSize 0 ∧
      fullWindow.winReady 0 = true ∧ (fullWindow.fillNext 0).isSome = true ∧
      ((fullWindow.window 0).freed + fullWindow.slotCount 0) * fullWindow.slotSize 0 ≤ (fullWindow.window 0).wr ∧
      (windowed.window 0).rest = [] ∧ { windowed with ten := tensorUp.ten }.fillNext 0 = none ∧
      leftOver.winReady 0 = true ∧ (leftOver.window 0).rest ≠ [] ∧ (leftOver.winWrite 0 0 [7]).2 = 0 ∧
      windowed.slotTake 0 = none ∧ (fedWindow.slotTake 0).isSome = true ∧ windowed.bit (Reg.latWinStatus 0) 0 = false ∧
      up.bit (Reg.latWinStatus 0) 0 = true ∧ up.Takes .steward (Reg.latWinRate 1) 7 ∧ up.Takes .steward (Reg.latWinBase 0) 0 ∧
      windowed.Takes .steward (Reg.latWinCfg 0) 1 := by
  refine ⟨?_, ?_, ?_, ?_, ?_, ?_, ?_, ?_, ?_, ?_, ?_, ?_, ?_, ?_, ?_, takes ?_, takes ?_, takes ?_⟩ <;> decide +kernel

theorem test_window_fill :
    after (.windowFill 0) { windowed with mem := [(tierB0 + 64, 5)] }
      (fun t => decide ((t.window 0).wr = 1 ∧ t.readByte tierA0 = 5 ∧ (t.window 0).recs.length = 1)) = true := by decide +kernel

theorem test_window_slot_free :
    after (.windowSlotFree 0) fedWindow (fun t => decide ((t.window 0).freed = 1)) = true := by decide +kernel

theorem test_window_cfg_refused :
    after (.latWinCfgWrite .steward 0 false 1) windowed
      (fun t => decide (t.bit (Reg.latWinStatus 0) 1 = true ∧ t.rget (Reg.latWinCfg 0) = 0x0F01)) = true := by decide +kernel

theorem witness_ring_writes :
    up.Takes .steward (Reg.calRingTail 1) 16 ∧ up.Takes .steward (Reg.calRingHead 1) 5 ∧ up.Takes .steward (Reg.calRingCfg 0) 0x400 ∧
      atOrAfter 16 (up.rget (Reg.calRingTail 1)) = true ∧ (16 - up.rget (Reg.calRingDone 1)).toNat ≤ (put up [(Reg.calRingCfg 1, 0x400)]).ringSlots 1 ∧
      ¬ ((17 - up.rget (Reg.calRingDone 1)).toNat ≤ (put up [(Reg.calRingCfg 1, 0x400)]).ringSlots 1) ∧ up.ringState 1 = 0 ∧
      (put up [(Reg.calRingStatus 1, 1)]).ringState 1 = 1 ∧ up.Takes .steward (Reg.calRingCtrl 0) 1 ∧
      up.Takes .steward (Reg.calRingCtrl 0) 0 ∧ up.Takes .steward (Reg.calRingCtrl 0) 5 ∧ up.Takes .steward (Reg.calRingCtrl 0) 3 ∧
      (put up [(Reg.calRingBaseHi 0, 0x100), (Reg.calRingCfg 0, 0x400)]).ringOk 0 = true ∧ up.ringOk 0 = false ∧
      (put up [(Reg.calRingStatus 0, 4)]).ringState 0 = 4 := by
  refine ⟨takes ?_, takes ?_, takes ?_, ?_, ?_, ?_, ?_, ?_, takes ?_, takes ?_, takes ?_, takes ?_, ?_, ?_, ?_⟩ <;> decide +kernel

theorem test_tail_beyond_the_ring :
    after (.ringTailWrite .steward 1 17) (put up [(Reg.calRingCfg 1, 0x400)])
      (fun t => decide (t.rget (Reg.calRingTail 1) = 0 ∧ t.bit (Reg.calRingStatus 1) 6 = true)) = true := by decide +kernel

theorem test_ring_enable :
    after (.ringEnable .steward 0) (put up [(Reg.calRingBaseHi 0, 0x100), (Reg.calRingCfg 0, 0x400)])
      (fun t => decide (t.ringState 0 = 1)) = true ∧
    after (.ringEnable .steward 0) up (fun t => decide (t.ringState 0 = 0 ∧ t.bit (Reg.calRingStatus 0) 7 = true)) = true := by
  decide +kernel

theorem test_ring_disable_halted :
    after (.ringDisable .steward 0) (put up [(Reg.calRingStatus 0, 4), (Reg.calRingCtrl 0, 1)])
      (fun t => decide (t.ringState 0 = 0)) = true := by decide +kernel

/-- The ring is held by a FENCE with HOLD. -/
def held : State :=
  { put up [(Reg.calRingStatus 0, 2), (Reg.calRingCfg 0, 0x400)] with ten := { up.ten with q0 := [anOp 0 (opDesc 1 1 0 0) []] } }

/-- The ring is stopping and has nothing in the Tensor Plane. -/
def stopping : State := put up [(Reg.calRingStatus 1, 3), (Reg.calRingCtrl 1, 1), (Reg.calRingHead 1, 5), (Reg.calRingDone 1, 3)]

theorem witness_ring_resume_and_stop :
    held.ringState 0 = 2 ∧ held.ringQ 0 = [anOp 0 (opDesc 1 1 0 0) []] ∧ held.bit (Reg.calRingCfg 0) 14 = false ∧
      (anOp 0 (opDesc 1 1 0 0) []).txn = none ∧ held.Takes .steward (Reg.calRingCtrl 0) 3 ∧ stopping.ringState 1 = 3 ∧
      stopping.ringBusy 1 = false := by
  refine ⟨?_, ?_, ?_, ?_, takes ?_, ?_, ?_⟩ <;> decide +kernel

theorem test_ring_resume :
    after (.ringResume .steward 0) held (fun t => decide (t.ringState 0 = 1 ∧ t.rget (Reg.calRingDone 0) = 1)) = true := by
  decide +kernel

theorem test_ring_stopped :
    after (.ringStopped 1) stopping (fun t => decide (t.ringState 1 = 4 ∧ t.rget (Reg.calRingHead 1) = 3)) = true := by
  decide +kernel

/-! ### Ops of the rings -/

/-- Ring 0 runs with one descriptor to read. -/
def reading : State :=
  put tensorUp [(Reg.calRingStatus 0, 1), (Reg.calRingBaseHi 0, 0x100), (Reg.calRingCfg 0, 0x400), (Reg.calRingTail 0, 1)]

theorem witness_descriptor_read :
    reading.mainOn = true ∧ reading.ringState 0 = 1 ∧
      isAfter (reading.rget (Reg.calRingTail 0)) (reading.rget (Reg.calRingHead 0)) = true ∧
      (reading.rget (Reg.calRingHead 0) - reading.rget (Reg.calRingDone 0)).toNat < 8 ∧
      reading.tlg.halted.contains 0x18 = false ∧ up.ringState 0 ≠ 1 ∧ up.ringState 0 ≠ 2 := by decide +kernel

theorem test_descriptor_read :
    after (.descriptorRead 0) reading
      (fun t => decide (t.rget (Reg.calRingHead 0) = 1 ∧ (t.ringQ 0).map (·.index) = [0])) = true := by decide +kernel

/-- Ring 0 runs, and this op is its first. -/
def first (e : OpEntry) : State := { put tensorUp [(Reg.calRingStatus 0, 1), (Reg.calRingCfg 0, 0x400)] with ten := { up.ten with q0 := [e] } }

theorem witness_quick_ops :
    (first (anOp 7 (opDesc 0 0 0 0) [])).mainOn = true ∧
      (first (anOp 7 (opDesc 0 0 0 0) [])).readyOp 0 = some (anOp 7 (opDesc 0 0 0 0) []) ∧
      (anOp 7 (opDesc 0 0 0 0) []).opcode = 0 ∧ (anOp 7 (opDesc 0 0 0 0) []).txn = none ∧
      (first (anOp 7 (opDesc 1 0 0 0) [])).readyOp 0 = some (anOp 7 (opDesc 1 0 0 0) []) ∧
      (anOp 7 (opDesc 1 0 0 0) []).opcode = 1 ∧ descField (anOp 7 (opDesc 1 0 0 0) []).desc 0x40 0 0 = 0 ∧
      (first (anOp 7 (opDesc 1 1 0 0) [])).readyOp 0 = some (anOp 7 (opDesc 1 1 0 0) []) ∧
      descField (anOp 7 (opDesc 1 1 0 0) []).desc 0x40 0 0 = 1 ∧
      (first { anOp 7 [] [] with code := 0x19 }).ringQ 0 = [{ anOp 7 [] [] with code := 0x19 }] ∧
      (first { anOp 7 [] [] with code := 0x19 }).bit (Reg.calRingCfg 0) 14 = false := by decide +kernel

theorem test_fence_holds :
    after (.fence 0) (first (anOp 7 (opDesc 1 1 0 0) [])) (fun t => decide (t.ringState 0 = 2)) = true := by decide +kernel

theorem test_nop_ends :
    after (.nop 0) (first (anOp 7 (opDesc 0 0 0 0) []))
      (fun t => decide (t.ringQ 0 = [] ∧ t.rget (Reg.calRingOpCount 0) = 1)) = true := by decide +kernel

theorem test_rejected_op_stops_the_ring :
    after (.rejectedOpEnd 0) (first { anOp 7 [] [] with code := 0x19, unit := 1, ucode := 2 })
      (fun t => decide (t.rget (Reg.calRingLastErr 0) = 0x20119 ∧ t.ringState 0 = 3)) = true := by decide +kernel

/-- The MATMUL waits at the issue slot. -/
def issuing : State := first (tinyMatmul 0)

theorem witness_issue :
    issueOf (.matmul 0) = some (0, 0x10) ∧ up.chosenOp 0 = none ∧ issuing.chosenOp 0 = some (tinyMatmul 0) ∧
      (tinyMatmul 0).opcode = 0x10 ∧ issuing.obpHits false 0 (tinyMatmul 0) = [] ∧
      (put issuing [(unitStatus 1, 3)]).chosenOp 0 = some (tinyMatmul 0) ∧
      (put issuing [(unitStatus 1, 3)]).issueCode (tinyMatmul 0) = (0x20, 1) ∧
      (put issuing [(Reg.tlgObpCfg 3, 0x15), (Reg.tlgObpOper 3, 0x30000)]).obpHits false 0 (tinyMatmul 0) = [3] ∧
      (put issuing [(Reg.tlgObpCfg 3, 0x15), (Reg.tlgObpOper 3, 0x30000)]).chosenOp 0 = some (tinyMatmul 0) := by decide +kernel

theorem test_matmul_issues :
    after (.matmul 0) issuing (fun t => decide ((t.ten.run.map (·.ring)) = some 0 ∧ t.fget (unitStatus 1) 1 0 = 1)) = true := by
  decide +kernel

theorem test_matmul_of_a_drained_unit :
    after (.matmul 0) (put issuing [(unitStatus 1, 3)])
      (fun t => decide ((t.ten.run.map fun r => (r.code, r.unit, r.finished)) = some (0x20, 1, true))) = true := by decide +kernel

/-- An op in the Tensor Plane. -/
def inPlane (e : OpEntry) : RunOp :=
  ⟨0, none, e, 0, 0, 0, false, false, 0, 1200, none, 0, 0, List.replicate 6 0, .empty, false, none, none, [], 0, [], false⟩

/-- The state with this op in the Tensor Plane. -/
def withRun (r : RunOp) : State := { first r.op with ten := { (first r.op).ten with run := some r } }

/-- Did the operands of the next tile come. -/
def operandsCome (s : State) (r : RunOp) : Bool :=
  match s.nLines r with
  | some (s, .ok _) =>
    match s.mLines r with
    | (_, .ok _) => true
    | _ => false
  | _ => false

/-- An ATTN_BWD whose next tile reduces over drained rows. -/
def attnRun : RunOp :=
  { inPlane (anOp 4 (opDesc 0x23 0 0 0) []) with tango := some { TangoRun.empty with plan := [⟨5, 0, 0, 0⟩] } }

theorem witness_tiles :
    (withRun (inPlane (tinyMatmul 0))).ten.run = some (inPlane (tinyMatmul 0)) ∧ (inPlane (tinyMatmul 0)).code = 0 ∧
      isMatrix (tinyMatmul 0).opcode = true ∧ (inPlane (tinyMatmul 0)).passes < (tinyMatmul 0).tiles ∧
      operandsCome (withRun (inPlane (tinyMatmul 0))) (inPlane (tinyMatmul 0)) = true ∧
      isMatrix attnRun.op.opcode = false ∧ usesHide attnRun.op.opcode = true ∧
      (withRun attnRun).tango.plan[attnRun.passes]? = some ⟨5, 0, 0, 0⟩ ∧
      attnRun.tileFed (withRun attnRun).tango.plan ⟨5, 0, 0, 0⟩ = true ∧
      (match ((withRun attnRun).stripTile attnRun ⟨5, 0, 0, 0⟩).2 with
        | .ok _ => true
        | .error _ => false) = true := by decide +kernel

/-- The product 3 × 4 in the live set. -/
theorem test_tile_k_pass :
    after (.tileKPassEnd 0 0) { withRun (inPlane (tinyMatmul 0)) with mem := [(tierA0, 3), (tierA0 + 64, 4)] }
      (fun t => decide ((t.ten.run.map fun r => (r.passes, r.shadow.isSome, r.held)) = some (1, true, false))) = true := by
  decide +kernel

theorem test_tile_waits_while_the_live_set_is_full :
    let s := withRun { inPlane (tinyMatmul 0) with held := true, shadow := some .empty, passes := 1 }
    after (.tileKPassEnd 0 0) s (fun t => decide (t = s)) = true := by decide +kernel

theorem test_tile_drain :
    after (.tileDrainEnd []) (withRun { inPlane (tinyMatmul 0) with shadow := some .empty, passes := 1 })
      (fun t => decide ((t.ten.run.map fun r => (r.drained, r.shadow.isSome)) = some (1, false) ∧ t.rget Reg.hidTileCount = 1)) = true := by
  decide +kernel

/-- A finished op, and a golden one. -/
def ending : State := withRun { inPlane (tinyMatmul 0) with finished := true, passes := 1, drained := 1 }

theorem witness_op_end :
    ending.ten.run.isSome = true ∧ (withRun (inPlane (tinyMatmul 0))).ten.run.isSome = true ∧
      max 1 (ending.fget Reg.calOverrunLimit 22 0) < 2 ^ 23 ∧ usesHide (tinyMatmul 0).opcode = true := by decide +kernel

theorem test_op_end :
    after (.opEnd 0 100 [] []) ending
      (fun t => decide (t.ten.run = none ∧ t.ringQ 0 = [] ∧ t.rget (Reg.calRingDone 0) = 1)) = true := by decide +kernel

theorem test_op_end_waits :
    after (.opEnd 0 100 [] []) issuing (fun t => decide (t = issuing)) = true := by decide +kernel

theorem test_overrun_counts_once :
    after (.opOverrun (2 ^ 23)) (withRun (inPlane (tinyMatmul 0)))
      (fun t => decide (t.rget (Reg.calRingOverrunCount 0) = 1 ∧ (t.ten.run.map (·.overrun)) = some true)) = true := by
  decide +kernel

theorem test_operand_parity :
    after (.operandUncorrectable true) (withRun (inPlane (tinyMatmul 0)))
      (fun t => decide ((t.ten.run.map fun r => (r.code, r.unit, r.ucode)) = some (0x21, 1, 2) ∧ t.rget Reg.hidParityCount = 1)) = true := by
  decide +kernel

/-- A golden run is pending and due; its latest beat was 10. -/
def golden : State :=
  { put tensorUp [(Reg.calGoldenStatus, 1), (Reg.calGoldenCfg, 0x00010311), (Reg.calGoldenBaseHi, 0x100)] with
    ten := { up.ten with goldDue := true, goldRuns := 6 } }

theorem witness_golden :
    golden.bit Reg.calGoldenStatus 0 = true ∧ golden.fget Reg.calGoldenCfg 31 16 ≠ 0 ∧
      (golden.set64 Reg.tmbBeatLo 1000).ten.goldBeat + beatsPerUs * (golden.set64 Reg.tmbBeatLo 1000).fget Reg.calGoldenCfg 31 16 ≤
        (golden.set64 Reg.tmbBeatLo 1000).beat ∧
      golden.mainOn = true ∧ golden.ten.run = none ∧ golden.ten.goldRun = none ∧ golden.fget Reg.tlgStatus 4 2 = 0 ∧
      golden.ten.clockReq = none ∧ golden.ten.goldDue = true ∧
      (golden.readOp 0 0x10000000000 0 true).2.code ≠ 0 := by decide +kernel

theorem test_golden_run_insert :
    after .goldenRunInsert golden
      (fun t => decide (t.ten.goldRun = some (2, 0) ∧ t.fget Reg.calGoldenStatus 13 8 = 3)) = true := by decide +kernel

theorem test_golden_latest :
    after .goldenLatestExpiry ({ golden with ten := { golden.ten with goldDue := false } }.set64 Reg.tmbBeatLo 125)
      (fun t => t.ten.goldDue) = true := by decide +kernel

/-- The Steward has asked for 900 MHz, in beat 0. -/
def slower : State := { put up [(Reg.stwPower, 0x04B00000)] with ten := { up.ten with clockReq := some (900, 0) } }

theorem witness_clock_change :
    slower.ten.clockReq = some (900, 0) ∧ slower.ten.run = none ∧ slower.fget Reg.tlgStatus 4 2 = 0 ∧
      900 ≤ slower.fget Reg.stwPower 26 16 ∧ slower.stewardActs = false ∧
      0 + 400 * beatsPerUs ≤ (slower.set64 Reg.tmbBeatLo 50000).beat := by decide +kernel

theorem test_tensor_clock_change :
    after .tensorClockChange slower (fun t => decide (t.fget Reg.stwPower 26 16 = 900 ∧ t.ten.clockReq = none)) = true := by
  decide +kernel

/-! ### The time base, triggers and captures -/

/-- The beat runs. -/
def ticking : State := { memUp with tmb := { memUp.tmb with started := true } }

theorem witness_time_steps :
    up.Takes .steward Reg.tmbRateHi 0xFF ∧ up.Takes .steward Reg.tmbStepGo (toWord 0) ∧ up.Takes .steward Reg.tmbStepGo (toWord 2) ∧
      up.fget Reg.tmbStepNs 29 0 ≤ 999999999 ∧ 999999999 < (put up [(Reg.tmbStepNs, 1000000000)]).fget Reg.tmbStepNs 29 0 ∧
      (ticking.steppedTime 0 5 7).isSome = true ∧ ticking.steppedTime 2 5 7 = none := by
  refine ⟨takes ?_, takes ?_, takes ?_, ?_, ?_, ?_, ?_⟩ <;> decide +kernel

theorem test_step_set :
    after .timeStepApply { ticking with tmb := { ticking.tmb with steps := [⟨0, 5, 7, 0⟩] } }
      (fun t => decide (t.timeNs = 5000000007 ∧ t.bit Reg.tmbStatus 2 = true)) = true := by decide +kernel

theorem test_step_below_zero_is_refused :
    after .timeStepApply { ticking with tmb := { ticking.tmb with steps := [⟨2, 5, 7, 0⟩] } }
      (fun t => decide (t.timeNs = 0 ∧ t.bit Reg.tmbStatus 3 = true)) = true := by decide +kernel

theorem test_step_waits_two_beats :
    after (.timeStepAdd .steward) (put ticking [(Reg.tmbStepNs, 9)])
      (fun t => decide (t.tmb.steps = [⟨1, 0, 9, 2⟩])) = true := by decide +kernel

theorem loops_idle {s : State} (h : s.stp.loops = []) (l : Nat) : (s.loop l).off = false ∧ ∀ p ∈ (s.loop l).steps, s.beat < p.due := by
  have : s.loop l = LoopRun.idle := by simp [State.loop, h, spGet]
  rw [this]
  exact ⟨rfl, by simp [LoopRun.idle]⟩

theorem witness_beat :
    nothingDue ticking ∧ ticking.tmb.started = true ∧ ticking.tmb.stopped = false ∧
      ticking.timeUnits + ticking.increment < 2 ^ 64 * 1000000000 * nsUnits ∧ State.reset.mainOn = false ∧ nothingDue State.reset := by
  have h (s : State) (hs : s.tmb.steps = [] ∧ s.snaps = [] ∧ s.stp.handover = none ∧ s.stp.loops = [] ∧ s.tlg.trcBeat = [] ∧
      s.pwr.asked = []) : nothingDue s :=
    ⟨by simp [hs.1], by simp [hs.2.1], by simp [hs.2.2.1], loops_idle hs.2.2.2.1, hs.2.2.2.2.1, hs.2.2.2.2.2⟩
  exact ⟨h _ (by decide +kernel), by decide +kernel, by decide +kernel, by decide +kernel, by decide +kernel, h _ (by decide +kernel)⟩

theorem test_beat :
    after (.beat [] [] []) { State.reset with tmb := { State.reset.tmb with started := true } }
      (fun t => decide (t.beat = 1 ∧ t.timeNs = 8)) = true := by decide +kernel

theorem test_beat_stops_with_its_reference :
    after (.evtLockLoss false) ticking (fun t => t.tmb.stopped) = true ∧
      after (.evtLockLoss true) ticking (fun t => !t.tmb.stopped) = true := by decide +kernel

theorem test_lock_regain :
    after .evtLockRegain { ticking with tmb := { ticking.tmb with stopped := true } } (fun t => t.beating) = true := by
  decide +kernel

/-- PPS output and input are on. -/
def pps : State := put ticking [(Reg.tmbPpsCfg, 0x103)]

theorem witness_pps :
    pps.beating = true ∧ pps.bit Reg.tmbPpsCfg 0 = true ∧ pps.secondInBeat = true ∧ pps.placeOpen 5 = true ∧
      pps.bit Reg.tmbPpsCfg 1 = true ∧ pps.bit Reg.tmbPpsCfg 2 = false ∧
      0 + beatsPerUs * max 1 (pps.fget Reg.tmbPpsCfg 23 8) ≤ (pps.set64 Reg.tmbBeatLo 125).beat := by decide +kernel

theorem test_pps_out :
    after .ppsOutPulse pps (fun t => decide (t.tmb.ppsHigh = some 0)) = true := by decide +kernel

theorem test_pps_in_counts :
    after (.ppsInEdge false 0) pps (fun t => decide (t.rget Reg.tmbPpsInCount = 1)) = true := by
  decide +kernel

/-- Trigger 15 has a width of 8 ns, a period of 16 ns, and TARGET 100 ns. -/
def trigUp : State :=
  { put ticking [(Reg.tmbTrgWidth 15, 8), (Reg.tmbTrgPeriod 15, 16)] with
    tmb := { ticking.tmb with trigs := [(15, { Trig.idle with target := 100 })] } }

theorem witness_trigger_arm :
    (∀ mode < 5, trigUp.Takes .steward (Reg.tmbTrgCfg 15) (trgWord 0 mode)) ∧ trigConditions trigUp 15 1 0 ∧
      trigConditions trigUp 15 2 0 ∧ ¬ trigConditions (trigUp.rset (Reg.tmbTrgWidth 15) 7) 15 1 0 ∧
      ¬ trigConditions (trigUp.rset (Reg.tmbTrgPeriod 15) 15) 15 2 0 ∧ ¬ trigConditions trigUp 15 2 0x40 ∧
      trigUp.timeUnits ≤ (trigUp.trig 15).target * nsUnits ∧
      (trigUp.trig 15).target * nsUnits < (trigUp.rset Reg.tmbTimeSecLo 1).timeUnits := by
  refine ⟨?_, ?_, ?_, ?_, ?_, ?_, by decide +kernel, by decide +kernel⟩
  · intro mode h
    obtain rfl | rfl | rfl | rfl | rfl : mode = 0 ∨ mode = 1 ∨ mode = 2 ∨ mode = 3 ∨ mode = 4 := by omega
    all_goals exact takes (by decide +kernel)
  all_goals unfold trigConditions; decide +kernel

theorem test_trigger_arm_missed :
    after (.triggerArmSingle .steward 15 0) (trigUp.rset Reg.tmbTimeSecLo 1)
      (fun t => decide (t.rget (Reg.tmbTrgStatus 15) = 4 ∧ t.bit Reg.tmbStatus 4 = true)) = true := by decide +kernel

theorem test_trigger_arm_periodic :
    after (.triggerArmPeriodic .steward 15 0) trigUp (fun t => decide (t.bit (Reg.tmbTrgStatus 15) 0 = true)) = true := by
  decide +kernel

/-- Trigger 15 was armed as SINGLE in an earlier beat, and its TARGET lies in this one. -/
def trigDue : State :=
  { put (ticking.set64 Reg.tmbBeatLo 9) [(Reg.tmbTrgCfg 15, 1), (Reg.tmbTrgStatus 15, 1), (Reg.tmbTrgWidth 15, 8)] with
    tmb := { ticking.tmb with trigs := [(15, { Trig.idle with target := 3 })] } }

/-- The pulse of trigger 15 ends in beat 9. -/
def pulsing : State := { trigDue with tmb := { ticking.tmb with trigs := [(15, { Trig.idle with pulse := some 76 })] } }

theorem witness_trigger_match :
    trigUp.Takes .steward (Reg.tmbTrgTgtSecHi 15) 0 ∧ trigDue.trigMatches 15 = true ∧ trigDue.trigMode 15 ≠ 2 ∧
      up.trigMatches 15 = false ∧ trigDue.bit (Reg.tmbTrgCfg 15) 5 = false ∧ (pulsing.trig 15).pulse = some 76 ∧
      76 / 8 = pulsing.beat ∧ 76 / 8 ≠ ticking.beat ∧ pulsing.beating = true := by
  refine ⟨takes ?_, ?_, ?_, ?_, ?_, ?_, ?_, ?_, ?_⟩ <;> decide +kernel

theorem test_trigger_target_is_applied_whole :
    after (.triggerTargetWrite .steward 15 0) (put trigUp [(Reg.tmbTrgTgtSecLo 15, 2), (Reg.tmbTrgTgtNs 15, 7)])
      (fun t => decide ((t.trig 15).target = 2000000007)) = true := by decide +kernel

theorem test_trigger_match :
    after (.triggerMatch 15) trigDue
      (fun t => decide (t.fget (Reg.tmbTrgStatus 15) 1 0 = 2 ∧ t.rget (Reg.tmbTrgMatches 15) = 1)) = true := by decide +kernel

theorem test_pulse_ends_in_its_beat :
    after (.triggerPulseEnd 15) pulsing (fun t => decide ((t.trig 15).pulse = none)) = true ∧
      after (.triggerPulseEnd 15) (pulsing.set64 Reg.tmbBeatLo 8) (fun t => decide ((t.trig 15).pulse = some 76)) = true := by
  decide +kernel

/-- Capture input 0 takes rising edges; its queue is one below full. -/
def capturing : State :=
  { put ticking [(Reg.tmbCapCfg 0, 3)] with
    tmb := { ticking.tmb with caps := [(0, { Capture.idle with queue := List.replicate 15 ⟨1, false, 0⟩ })] } }

/-- One stamp is on its way to the end of this beat. -/
def enqueuing : State :=
  { ticking with tmb := { ticking.tmb with caps := [(15, { Capture.idle with flight := [(⟨7, true, 0⟩, 0)] })] } }

theorem witness_captures :
    capturing.beating = true ∧ capturing.placeOpen 5 = true ∧ capturing.captureSelects 0 false = true ∧
      capturing.captureSelects 0 true = false ∧ capturing.captureFull 0 false = false ∧
      { capturing with tmb := { capturing.tmb with caps := [(0, { Capture.idle with queue := List.replicate 16 ⟨1, false, 0⟩ })] } }.captureFull 0 false = true ∧
      capturing.spiStreams 1 0 = [] ∧ (enqueuing.capture 15).flight = [(⟨7, true, 0⟩, enqueuing.beat)] ∧
      (enqueuing.capture 15).queue.length < 16 ∧ enqueuing.bit (Reg.tmbCapCfg 15) 3 = false ∧
      capturing.Takes .steward (Reg.tmbCapPop 0) 1 ∧ (capturing.capture 0).queue.length ≤ 16 := by
  refine ⟨?_, ?_, ?_, ?_, ?_, ?_, ?_, ?_, ?_, ?_, takes ?_, ?_⟩ <;> decide +kernel

theorem test_capture_edge :
    after (.captureEdge 0 false 0) capturing (fun t => decide ((t.capture 0).flight.map (·.2) = [2])) = true := by decide +kernel

theorem test_capture_enqueue :
    after (.captureEnqueue 15) enqueuing
      (fun t => decide (t.fget (Reg.tmbCapStatus 15) 4 0 = 1 ∧ t.rget (Reg.tmbCapHeadNs 15) % 2 ^ 30 = 7)) = true := by
  decide +kernel

theorem test_capture_pop :
    after (.capturePop .steward 0) capturing (fun t => decide (t.fget (Reg.tmbCapStatus 0) 4 0 = 14)) = true := by decide +kernel

/-! ### Sensor ingress -/

/-- Stream 39 takes RAW8 lines of 4 pixels, 2 to a frame, from camera port 7, virtual channel 3, into Reflex SRAM. -/
def camera : State :=
  put ticking [(Reg.ethCsiCfg 7, 0x100), (Reg.ingStrCfg 39, 1), (Reg.ingStrStatus 39, 1), (Reg.ingStrSrc 39, 0x2A37),
    (Reg.ingStrGeom 39, 0x20004), (Reg.ingStrBufLo 39, 0x40000000), (Reg.ingStrBufSize 39, 1)]

/-- A frame that has begun. -/
def begun : RawFrame := ⟨0, 0, 0, 0, 0, 0, 0, false, none, false, 0, 0⟩

/-- The stream has this open frame. -/
def withFrame (s : State) (n : Nat) (f : RawFrame) : State :=
  { s with ing := { s.ing with streams := [(n, { StreamRun.idle with open? := some f })] } }

theorem witness_camera :
    camera.cameras 7 3 = [39] ∧ camera.strState 39 = 1 ∧ camera.beating = true ∧ (camera.stream 39).open? = none ∧
      camera.bufferFree 39 = true ∧ (put camera [(Reg.ingStrSeq 39, 1)]).bufferFree 39 = false ∧
      ((withFrame camera 39 begun).stream 39).open? = some begun ∧ begun.dead = false ∧
      camera.fget (Reg.ingStrSrc 39) 13 8 = 0x2A ∧ 0x2A ∈ cameraTypes ∧ lineBytes 0x2A 4 = 4 ∧
      begun.units < camera.fget (Reg.ingStrGeom 39) 31 16 ∧
      ((withFrame camera 39 begun).frameStore 39 begun 0 [1, 2, 3, 4]).2 = true ∧ camera.strType 39 = 0 ∧
      begun.startBeat + beatsPerUs * max 1 (camera.fget (Reg.ingStrAux 39) 23 0) ≤ (camera.set64 Reg.tmbBeatLo 125).beat ∧
      (camera.cameras 7 3 = [39] ∧ up.beating = false) := by decide +kernel

theorem test_camera_line :
    after (.csi2Line 7 3 0x2A [1, 2, 3, 4] true true) (withFrame camera 39 begun)
      (fun t => decide (t.readBytes 0x40000000 4 = [1, 2, 3, 4] ∧ ((t.stream 39).open?.map (·.units)) = some 1)) = true := by
  decide +kernel

theorem test_camera_short_line :
    after (.csi2Line 7 3 0x2A [1, 2, 3] true true) (withFrame camera 39 begun)
      (fun t => decide (t.rget (Reg.ingStrErrCount 39) = 1 ∧ ((t.stream 39).open?.map (·.dead)) = some true)) = true := by
  decide +kernel

theorem test_camera_frame :
    after (.csi2FrameStart 7 3) camera (fun t => decide ((t.stream 39).open?.isSome)) = true ∧
      after (.csi2FrameEnd 7 3) (withFrame camera 39 { begun with units := 2 }) (fun t => decide ((t.stream 39).done.length = 1)) = true := by
  decide +kernel

theorem test_camera_timeout :
    after (.cameraTimeoutExpiry 39) ((withFrame camera 39 begun).set64 Reg.tmbBeatLo 125)
      (fun t => decide ((t.stream 39).open? = none ∧ t.rget (Reg.ingStrErrCount 39) = 1)) = true := by decide +kernel

/-- Stream 0 of each other kind: Ethernet (EtherType 0x88B5 at port 0), audio of one channel, and SPI reads of 2 bytes. -/
def other (type src : Word) : State :=
  put ticking [(Reg.ingStrCfg 0, 1 + 2 * type), (Reg.ingStrStatus 0, 1), (Reg.ingStrSrc 0, src), (Reg.ingStrGeom 0, 2),
    (Reg.ingStrBufLo 0, 0x40000000), (Reg.ingStrBufSize 0, 1), (Reg.ingStrAux 0, 0x02000001)]

/-- An SPI read is under way. -/
def spiReading : State :=
  let s := withFrame (other 3 0) 0 begun
  { s with ing := { s.ing with streams := [(0, { StreamRun.idle with open? := some begun, spiStarts := [⟨0, 0, none⟩] })] } }

theorem witness_unit_streams :
    (other 1 0x88B50000).ethStreams 0 0 0x88B5 = [0] ∧ (other 1 0x88B50000).bit (Reg.ingStrCfg 0) 8 = false ∧
      ((withFrame (other 1 0x88B50000) 0 begun).frameStore 0 begun 0 (unitRecord 9 0 [5])).2 = true ∧
      ((withFrame (other 1 0x88B50000) 0 begun).stream 0).open? = some begun ∧ (other 1 0x88B50000).strType 0 = 1 ∧
      { begun with units := 1 }.lastBeat + beatsPerUs * max 1 ((other 1 0x88B50000).fget (Reg.ingStrAux 0) 23 0) ≤
        ((other 1 0x88B50000).set64 Reg.tmbBeatLo 125).beat ∧
      (other 2 0).audioStreams 0 = [0] ∧ ((withFrame (other 2 0) 0 begun).frameStore 0 begun 0 [1, 2, 3, 4]).2 = true ∧
      (spiReading.stream 0).spiStarts = [⟨0, 0, none⟩] ∧ spiReading.fget (Reg.ingStrAux 0) 30 24 = 2 ∧
      ((spiReading.putStream 0 { spiReading.stream 0 with spiStarts := [], mosi := spiReading.spiCommand 0 }).frameStore 0 begun
        begun.bytes (unitRecord 9 0 [5, 6])).2 = true := by decide +kernel

theorem test_eth_packet :
    after (.ethStreamPacket 0 0 0x88B5 0 9 [5]) (withFrame (other 1 0x88B50000) 0 begun)
      (fun t => decide (((t.stream 0).open?.map (·.units)) = some 1)) = true := by decide +kernel

theorem test_eth_gap :
    after (.ethGapExpiry 0) ((withFrame (other 1 0x88B50000) 0 { begun with units := 1 }).set64 Reg.tmbBeatLo 125)
      (fun t => decide ((t.stream 0).done.map (·.incomplete) = [true])) = true := by decide +kernel

theorem test_audio_and_spi :
    after (.audioSample 0 16 9 true [1]) (withFrame (other 2 0) 0 begun)
      (fun t => decide (t.readBytes 0x40000000 4 = [0, 0, 1, 0])) = true ∧
    after (.spiStreamReadDone 0 9 [5, 6]) spiReading (fun t => decide ((t.stream 0).spiStarts = [])) = true := by decide +kernel

theorem test_fsync_loss :
    after (.tdmFsyncLoss 0) (withFrame (other 2 0) 0 begun) (fun t => decide (t.rget (Reg.ingStrErrCount 0) = 1)) = true := by
  decide +kernel

/-- A complete camera frame waits for the conditioner, or without conditioning for its delivery. -/
def complete (cond : Bool) : State :=
  let s := put camera [(Reg.ingStrCfg 39, if cond then 0x11 else 1), (Reg.ingStrRecLo 39, 0x40001000),
    (Reg.ingStrOutLo 39, 0x40002000), (Reg.ingStrOutSize 39, 1)]
  { s with ing := { s.ing with streams := [(39, { StreamRun.idle with done := [{ begun with units := 2, bytes := 128 }] })] } }

theorem witness_conditioner_and_delivery :
    (complete true).ing.cond = none ∧ (complete true).nextRaw = some 39 ∧ camera.nextRaw = none ∧
      (((complete true).putStream 39 { (complete true).stream 39 with done := [] }).rawLines 39 { begun with units := 2, bytes := 128 }).2.isSome = true ∧
      (complete false).strCond 39 = false ∧ (complete false).strState 39 = 1 ∧
      ((complete false).stream 39).done = [{ begun with units := 2, bytes := 128 }] ∧
      (((complete false).putStream 39 { (complete false).stream 39 with done := [] }).engineStore .ingress 0x40001000
        (frameRecord 39 0 0 0 { begun with units := 2, bytes := 128 })).2 = true := by decide +kernel

theorem test_frame_deliver :
    after (.frameDeliver 39) (complete false)
      (fun t => decide (t.rget (Reg.ingStrSeq 39) = 1 ∧ (t.stream 39).done = [])) = true := by decide +kernel

theorem test_frame_condition :
    after .frameConditionStart (complete true) (fun t => decide ((t.ing.cond.map (·.1)) = some 39)) = true := by decide +kernel

theorem witness_stream_switches :
    up.Takes .steward (Reg.ingStrRelease 39) 5 ∧ up.strState 39 = 0 ∧
      up.Takes .steward (Reg.ingStrCfg 39) (Machine.withField 0x10000 0 0 1) ∧
      (camera.rset (Reg.ingStrStatus 39) 0).strEnableOk 39 (Machine.withField 0x10000 0 0 1) = true ∧
      up.strEnableOk 39 (Machine.withField 0x10000 0 0 1) = false ∧ camera.Takes .steward (Reg.ingStrCfg 39) (Machine.withField 1 0 0 0) ∧
      (camera.stream 39).open? = none ∧ (camera.stream 39).done = [] ∧ (camera.stream 39).spiStarts = [] ∧
      up.Takes .steward Reg.ingCtrl 0 := by
  refine ⟨takes ?_, ?_, takes ?_, ?_, ?_, takes ?_, ?_, ?_, ?_, takes ?_⟩ <;> decide +kernel

theorem test_stream_enable :
    after (.streamEnable .steward 39 0x10000) (camera.rset (Reg.ingStrStatus 39) 0) (fun t => decide (t.strState 39 = 1)) = true ∧
      after (.streamEnable .steward 39 0x10000) up (fun t => decide (t.rget (Reg.ingStrStatus 39) = 0x80)) = true := by decide +kernel

theorem test_stream_disable :
    after (.streamDisable .steward 39 1) camera (fun t => decide (t.strState 39 = 0)) = true ∧
      after (.streamDisable .steward 39 1) (withFrame camera 39 begun) (fun t => decide (t.strState 39 = 2)) = true := by
  decide +kernel

theorem test_release_follows_a_buckle :
    after (.ingReleaseWrite .steward 39 5) (put up [(Reg.ingStrCfg 39, 0x4000)])
      (fun t => decide (t.rget (Reg.ingStrRelease 39) = 0)) = true := by decide +kernel

theorem test_ingress_disable :
    after (.ingressDisable .steward) up (fun t => decide (t.fget Reg.ingStatus 1 0 = 3)) = true := by decide +kernel
/-! ### Quadrille -/

/-- A job with these words from 0x0C on at the head of Quadrille's ring, and these bytes at other addresses. -/
def quad (job w3 : Nat) (rest : List Nat) (more : List (Nat × List Byte)) : State :=
  let s := put ticking [(Reg.qdrRingTail, 1), (Reg.qdrCtrl, 1), (Reg.qdrCalBase 0, 0x1000)]
  (((0x40000000, words ([1 + 256 * job, 0x80030000, 0, w3] ++ rest)) :: more).foldl (fun s p => s.writeBytes p.1 p.2) s)

/-- Camera 0: no rotation, focal lengths of 1, an image of 4 × 4, and points from 0 to 100 m. -/
def entry0 : List (Nat × List Byte) :=
  let one := 0x3F800000
  [(0x40001000, words [one, 0, 0, 0, one, 0, 0, 0, one, 0, 0, 0, one, one, one, one]),
   (0x40001054, words [0x00040004, 0, 0x42C80000, 0x42C80000, 1]),
   (0x40001C00, words [one, 0, 0, 0, one, 0, 0, 0, one, 0, 0, 0, 1])]

/-- One point at (1, 1, 1) m with the attribute 7. -/
def point0 : List (Nat × List Byte) := [(0x40002000, words [0x10000, 0x10000, 0x10000, 7])]

/-- A PROJECT or RANGE_VOTE of that point. -/
def pointJob (job : Nat) : State :=
  quad job 0 [0x40002000, 0, 1] (entry0 ++ point0)

/-- The same without writing the map and accumulating. -/
def accumulates : State :=
  (pointJob 1).writeBytes 0x40000000 (words [0x10101])

/-- The job that the state can start has this type and validity. -/
def starts (s : State) (job : Nat) (valid : Bool) : Bool := s.qdrNext.any fun d => qJob d = job && qValid d == valid

theorem witness_quadrille_jobs :
    camera.qdrNext = none ∧ starts (quad 0 0 [] []) 0 true = true ∧ starts (quad 0 1 [] []) 0 false = true ∧
      starts (quad 2 0 [] []) 2 true = true ∧ starts (quad 5 0 [] []) 5 true = true ∧ starts (quad 6 0 [] []) 6 true = true ∧
      starts (pointJob 1) 1 true = true ∧ starts (pointJob 3) 3 true = true ∧ starts (quad 7 0 [] []) 7 false = true := by
  decide +kernel

/-- The bytes can be read and hold no error. -/
theorem reads_of {s : State} {a n : Nat}
    (h : (s.readable a && s.readable (a + (n - 1)) && (dwordsOf a n).all fun w => !s.suspect w) = true) : readsClean s a n := by
  simp only [Bool.and_eq_true, List.all_eq_true, Bool.not_eq_true'] at h
  exact ⟨h.1.1, h.1.2, h.2⟩

/-- The state in which the job runs. -/
def runs (s : State) : State := s.fset Reg.qdrStatus 1 0 1

/-- The descriptor at the head of the ring. -/
def headDesc (s : State) : List Byte := (s.qdrHead).getD []

theorem witness_points :
    inReflex accumulates.calBase 4096 = true ∧ starts accumulates 1 true = true ∧
      readsClean (runs accumulates) ((runs accumulates).calBase) 128 ∧
      readsClean (runs accumulates) ((runs accumulates).calBase + 3072) 64 ∧
      countOk (headDesc accumulates) 1048576 = true ∧ countOk (headDesc (quad 1 0 [] entry0)) 1048576 = false ∧
      (runs (quad 3 0 [0x40002000, 0, 1] point0)).senValid 0 = false ∧ (runs accumulates).senValid 0 = true ∧
      qCount (headDesc accumulates) = 1 ∧ readsClean (runs accumulates) (descAddr (headDesc accumulates) 0x10) 16 ∧
      (runs accumulates).camValid 0 = true ∧ (runs accumulates).featSize (headDesc accumulates) = (4, 4) ∧
      qFlag (headDesc accumulates) 16 = true ∧ qFlag (headDesc accumulates) 17 = false ∧
      qFlag (headDesc accumulates) 19 = false ∧
      (pointOf ((runs accumulates).readBytes (descAddr (headDesc accumulates) 0x10) 16)).bad = false ∧
      (runs accumulates).projectPoint 0 0 (pointOf ((runs accumulates).readBytes (descAddr (headDesc accumulates) 0x10) 16)) =
        some (0x40000000, 0x40000000, 0x3F800000) := by
  refine ⟨?_, ?_, reads_of ?_, reads_of ?_, ?_, ?_, ?_, ?_, ?_, reads_of ?_, ?_, ?_, ?_, ?_, ?_, ?_, ?_⟩ <;> decide +kernel

/-- The point falls into the cell of column 2 and row 2. -/
theorem test_project :
    after .project accumulates
      (fun t => decide (t.accCell 10 = ⟨0x3F800000, 0x3F800000, 0x3F800000, 0x40E00000⟩ ∧ t.qdrState = 1)) = true := by
  decide +kernel

theorem test_grid_clear :
    after .gridClear { quad 2 0 [] [] with qdr := { up.qdr with votes := [(3, 1)] } } (fun t => decide (t.qdr.votes = [])) = true := by
  decide +kernel

/-- One detection at the origin for ASSOCIATE, and a track to predict. -/
def detects : State := quad 4 0 [0x40002000, 0, 1] [(0x40002000, words [0, 0, 0, 0x3F800000, 0x3F800000, 0x3F800000, 0x3F800000, 0])]

theorem witness_tables :
    starts detects 4 true = true ∧ countOk (headDesc detects) 256 = true ∧ countOk (headDesc (quad 4 0 [] [])) 256 = false ∧
      ((runs detects).readDets (headDesc detects) (qCount (headDesc detects)) 0 []).2.1 = 0 ∧
      (put (quad 6 0 [] []) [(Reg.qdrPubRelease, -2)]).pubFree = false := by decide +kernel

theorem test_associate_of_nothing :
    after .associate (quad 4 0 [] []) (fun t => decide (t.qdr.job.map (·.code) = some 3)) = true := by decide +kernel

/-- A publication has its buffer in Reflex SRAM, and the grid one cell. -/
def publishes : State :=
  { put (quad 6 0 [] []) [(Reg.qdrPubCfg, 1), (Reg.qdrPubBase, 0x8000)] with qdr := { up.qdr with nLog2 := 0 } }

/-- A track record has 128 bytes (R436). -/
theorem trackRecord_length (s : State) (n : Nat) : (s.trackRecord n).length = 128 := by
  unfold State.trackRecord
  split
  · rfl
  · simp [natToBytes_length, TrackAxis.cov]

theorem publication_length : ((runs publishes).publication (headDesc publishes)).length = 131140 := by
  have h : (runs publishes).gridN = 1 := by decide +kernel
  have hl (l : List Nat) : (l.flatMap (runs publishes).trackRecord).length = 128 * l.length := by
    induction l with
    | nil => rfl
    | cons x l ih => simp only [List.flatMap_cons, List.length_append, trackRecord_length, ih, List.length_cons]; omega
  simp only [State.publication, h, List.length_append, natToBytes_length, hl, List.length_range, List.length_replicate, bitmap,
    List.length_map, List.length_flatMap]
  simp

theorem publishes_clean : (runs publishes).Clean 0x40008000 131140 := ⟨by decide +kernel, fun _ _ => rfl⟩

/-- A publication is written to clean memory that Quadrille may write. -/
theorem publish_done {s : State} {d : List Byte} (a n : Nat) (hn : (s.publication d).length = n + 1)
    (ha : reflexBase + s.fget Reg.qdrPubBase 22 6 * 64 + s.pubStride * (s.qdr.pubSeq.toNat % s.pubBufs) = a)
    (hi : inReflex a (n + 1) = true) (hl : s.longDenied .quadrille a (n + 1) = none) (hc : s.Clean a (n + 1)) :
    (s.publish d).2 = 0 := by
  have he : (s.publication d).isEmpty = false := by
    cases h : s.publication d with
    | nil => rw [h] at hn; cases hn
    | cons => rfl
  unfold State.publish State.qdrStore
  simp only [ha, he, hn, hi, hl]
  rw [State.storeBytes_clean (by rw [hn]; exact hc)]
  simp only [Bool.not_true, Bool.false_eq_true, if_false, if_true]

theorem witness_publish : publishes.pubFree = true ∧ ((runs publishes).publish (headDesc publishes)).2 = 0 :=
  ⟨by decide +kernel, publish_done 0x40008000 131139 publication_length (by decide +kernel) (by decide +kernel)
    (by decide +kernel) publishes_clean⟩

theorem test_publish_skips :
    after .publish (put publishes [(Reg.qdrPubRelease, -2)])
      (fun t => decide (t.rget Reg.qdrPubSkipCount = 1)) = true := by decide +kernel

/-- A NOP whose job has taken its cycles. -/
def jobEnds : State :=
  { put (quad 0 0 [] []) [(Reg.qdrStatus, 1)] with
    qdr := { up.qdr with job := some ⟨0, 0, 0, headDesc (quad 0 0 [] []), none, 0, 0, 0, 0⟩ } }

/-- The same with an error, in DRAINING. -/
def jobFails : State :=
  { put (quad 0 0 [] []) [(Reg.qdrStatus, 2)] with qdr := { up.qdr with job := some ⟨0, 1, 5, [], none, 0, 0, 0, 0⟩ } }

theorem witness_job_end :
    (∀ j, jobEnds.qdr.job = some j → jobEnds.jobDue j = true ∧ j.code = 0 ∧ bitsOf (descWord j.desc 4) 31 31 = 1) ∧
      jobEnds.qdr.job.isSome = true ∧ jobEnds.qdr.clear = false ∧ jobEnds.mainOn = true ∧
      jobEnds.jobDue ⟨0, 0, 0, [], none, 0, 0, 0, 7⟩ = false ∧
      (∀ j, jobFails.qdr.job = some j → jobFails.jobDue j = true ∧ j.code = 5) ∧
      (quad 7 0 [] []).qdr.job = none ∧ starts (quad 7 0 [] []) 7 false = true ∧ starts (quad 6 0 [] []) 6 true = true :=
  ⟨fun j h => by cases h; decide +kernel, by decide +kernel, by decide +kernel, by decide +kernel, by decide +kernel,
    fun j h => by cases h; decide +kernel, by decide +kernel, by decide +kernel, by decide +kernel⟩

theorem test_job_end :
    after .qdrJobEnd jobEnds (fun t => decide (t.rget Reg.qdrRingHead = 1 ∧ t.buckle 3 = 1 ∧ t.qdrState = 0)) = true := by
  decide +kernel

theorem test_job_end_with_an_error :
    after .qdrJobEnd jobFails
      (fun t => decide (t.rget Reg.qdrLastErr = 0x105 ∧ t.bit Reg.qdrStatus 2 = true ∧ t.qdrState = 3)) = true := by decide +kernel

theorem witness_quadrille_registers :
    up.Takes .steward Reg.qdrRingTail 1 ∧ (1 - up.rget Reg.qdrRingHead).toNat ≤ up.qdrRingSize ∧
      up.qdrRingSize < (0x10000 - up.rget Reg.qdrRingHead).toNat ∧ up.Takes .steward Reg.qdrCtrl (0 ||| 2) ∧
      up.Takes .steward Reg.qdrCtrl (0 ||| 4) ∧ up.qdr.job = none ∧ jobEnds.qdr.job ≠ none ∧ jobEnds.qdrState = 1 ∧
      up.Takes .steward Reg.qdrCtrl (1 &&& ~~~ 1) ∧ jobEnds.Takes .steward Reg.qdrCtrl (1 &&& ~~~ 1) ∧
      up.Takes .steward Reg.qdrCtrl (0 ||| 1) ∧ 2 ≤ jobFails.qdrState ∧ up.Takes .steward Reg.qdrPubRelease 5 ∧
      up.Takes .steward (0x10120000 + 0x48) 0 ∧ up.Takes .steward (0x10120000 + 0x54) 1 ∧
      up.Takes .steward (0x10120000 + 0x58) 64 ∧ up.qdrQuiet = true ∧ (quad 0 0 [] []).qdrQuiet = false := by
  refine ⟨takes ?_, ?_, ?_, takes ?_, takes ?_, ?_, ?_, ?_, takes ?_, takes ?_, takes ?_, ?_, takes ?_, takes ?_, takes ?_,
    takes ?_, ?_, ?_⟩ <;> decide +kernel

theorem test_tail_beyond_quadrilles_ring :
    after (.qdrRingTailWrite .steward 0x10000) up (fun t => decide (t.bit Reg.qdrStatus 9 = true ∧ t.rget Reg.qdrRingTail = 0)) = true := by
  decide +kernel

theorem test_quadrille_drains :
    after (.qdrDisable .steward 1) jobEnds (fun t => decide (t.qdrState = 2)) = true ∧
      after (.qdrEnable .steward 0) jobFails (fun t => decide (t.qdrState = 1)) = true := by decide +kernel

/-! ### Stirrup -/

/-- The time base runs, and no safe-state command stands. -/
def permitted : State := put ticking [(Reg.cinStatus, 1)]

/-- The time base runs and loop `l` of Stirrup is in this state, with these registers. -/
def loopIs (l : Nat) (status : Word) (regs : List (Nat × Word)) : State :=
  put permitted ((Reg.loopReg l 0x84, status) :: regs.map fun p => (Reg.loopReg l p.1, p.2))

/-- The loop has this run data. -/
def withLoop (s : State) (l : Nat) (r : LoopRun) : State := s.putLoop l r

theorem witness_loop_writes :
    loopWriteOf (.loopEnable .steward 127 0) = some (.steward, 127, 0, 0 ||| 1) ∧ up.Takes .steward (Reg.loopReg 127 0) (0 ||| 1) ∧
      up.loopWriteRefused 127 0 (0 ||| 1) = false ∧ up.loopState 127 = 0 ∧ permitted.safeCommand = false ∧
      up.groupStopped 127 = false ∧ (put up [(Reg.stpEngStatus 3, 0xC)]).groupStopped 127 = true ∧
      (loopIs 127 1 []).loopWriteRefused 127 0x04 7 = true ∧ (loopIs 127 1 []).loopState 127 = 1 ∧
      (loopIs 127 2 []).loopState 127 = 2 ∧ ((loopIs 127 2 []).loop 127).returning = none ∧
      (loopIs 127 2 []).lf 127 0x84 6 6 = 0 ∧ (loopIs 127 0x42 []).lf 127 0x84 6 6 = 1 ∧
      up.loopWriteRefused 127 0x04 125 = false ∧ up.loopWriteRefused 127 0x7C 1 = false ∧ up.loopWriteRefused 127 0x6C 1 = false ∧
      up.loopWriteRefused 127 0x68 1 = false ∧ up.loopWriteRefused 127 0x80 1 = false ∧
      (loopIs 127 1 []).loopWriteRefused 127 0x80 2 = false ∧ up.Takes .steward (Reg.loopReg 127 0x80) 2 ∧
      (put up [(Reg.cinStatus, 4)]).safeCommand = true ∧
      (loopIs 127 1 []).loopWriteRefused 127 0 (up.rget (Reg.loopReg 127 0) ||| 1) = false ∧
      (loopIs 127 1 []).loopWriteRefused 127 0 (up.rget (Reg.loopReg 127 0) &&& ~~~ 1) = false := by
  refine ⟨?_, takes ?_, ?_, ?_, ?_, ?_, ?_, ?_, ?_, ?_, ?_, ?_, ?_, ?_, ?_, ?_, ?_, ?_, ?_, takes ?_, ?_, ?_, ?_⟩ <;> decide +kernel

theorem test_loop_enable :
    after (.loopEnable .steward 127 0) permitted (fun t => decide ((t.loop 127).returning = some 0)) = true ∧
      after (.loopEnable .steward 127 0) up (fun t => decide (t.rget (Reg.loopReg 127 0x84) = 0x1000)) = true := by decide +kernel

theorem test_loop_disable :
    after (.loopDisable .steward 127 (up.rget (Reg.loopReg 127 0))) (loopIs 127 1 [])
      (fun t => decide (t.loopState 127 = 2 ∧ t.lf 127 0x84 5 2 = 1 ∧ (t.loop 127).off = true)) = true := by decide +kernel

theorem test_loop_cfg_refused :
    after (.loopCfgWrite .steward 127 0x04 1250) (loopIs 127 1 []) (fun t => decide (t.bit (Reg.loopReg 127 0x84) 11 = true)) = true := by
  decide +kernel

theorem test_loop_safe :
    after (.loopSafe .steward 127) (loopIs 127 1 []) (fun t => decide (t.lf 127 0x84 5 2 = 8)) = true := by decide +kernel

/-- Loop 0 follows encoder 0 with KP = 1 within -100 to 100; its setpoint is 300, and beat 0 is a sample beat. -/
def samples (status : Word) : State :=
  loopIs 0 status [(0x04, 125), (0x18, 300), (0x20, 0x10000), (0x4C, -100), (0x50, 100)]

/-- The loops of group 0 that are due. -/
def dueOf (s : State) : List Nat := ((List.range 32).map (32 * 0 + ·)).filter s.loopDue

theorem witness_loop_samples :
    (samples 1).pwr.refLost = false ∧ spGet (fun _ => 0) (samples 1).stp.sampled 0 ≠ (samples 1).beat + 1 ∧
      dueOf (samples 1) = [0] ∧ dueOf (samples 2) = [0] ∧ dueOf (samples 0) = [] ∧
      (samples 1).engState ((samples 1).groupEngine 0) ≠ 3 ∧ (samples 1).groupEngine 0 < 5 ∧
      [SampleFinding.engineFault].contains .engineFault = true ∧
      (put (samples 1) [(Reg.stpGcfg, 1), (Reg.stpEngImage 4, 0x10000), (Reg.stpEngImage 0, 0x10000)]).canFailOver 0
        ((samples 1).fget Reg.stpGrpMap 18 16) = true ∧
      (samples 1).engRole ((samples 1).fget Reg.stpGrpMap 18 16) ≠ 2 ∧ ((samples 1).loop 0).returning = none ∧
      (samples 1).homeOwns 0 = false ∧ (samples 1).loopState 0 = 1 ∧ (samples 2).loopState 0 = 2 ∧
      ((samples 2).loop 0).entry ≠ some (samples 2).beat ∧
      ((put (samples 1) [(Reg.loopReg 0 0x18, 0x80000000)]).loopIn 0).1.nan = true ∧ ((samples 1).loopIn 0).1.nan = false ∧
      ((samples 1).loopIn 0).1.fresh = true ∧ (samples 1).lf 0 0x5C 31 16 = 0 ∧ (samples 1).lint 0 0x54 ≤ 0 ∧
      (samples 1).loopLimit 0 0x4C ≤ (samples 1).loopLimit 0 0x50 := by decide +kernel

/-- The control law reaches its limit. -/
theorem test_loop_sample :
    after (.loopSample 0 []) (samples 1)
      (fun t => match (t.loop 0).steps with
        | [.run 100 r] => decide (r.u = 100 ∧ r.err = 300 ∧ r.osat = true)
        | _ => false) = true := by decide +kernel

theorem test_loop_sample_not_a_number :
    after (.loopSample 0 []) (put (samples 1) [(Reg.loopReg 0 0x18, 0x80000000)]) (fun t => decide (t.lf 0 0x84 5 2 = 6)) = true := by
  decide +kernel

/-- Loop 127 has the output 9 for this beat, for PWM channel 23. -/
def outputDue : State :=
  (loopIs 127 1 [(0x0C, 0x5D0000)]).putLoop 127
    { (permitted.loop 127) with steps := [.run 0 ⟨0, 9, 0, 0, 0, 0, 0, 0, 0, false, false, none, none⟩] }

/-- Loop 127 was to turn off after its safe action, which is done. -/
def turnsOff : State :=
  ((loopIs 127 0x42 []).putLoop 127 { permitted.loop 127 with off := true, doneBeat := some 0 }).set64 Reg.tmbBeatLo 1

theorem witness_loop_outputs :
    outputDue.placeOpen 7 = true ∧ outputDue.pwr.refLost = false ∧ { outputDue with order := 8 }.placeOpen 7 = false ∧
      (outputDue.loop 127).steps = [.run 0 ⟨0, 9, 0, 0, 0, 0, 0, 0, 0, false, false, none, none⟩] ∧
      outputDue.lf 127 0x0C 17 16 = 1 ∧ (samples 1).lf 0 0x0C 17 16 = 0 ∧ turnsOff.placeOpen 7 = true ∧
      turnsOff.loopState 127 = 2 ∧ (turnsOff.loop 127).off = true ∧ (turnsOff.loop 127).doneBeat = some 0 ∧
      0 < turnsOff.beat := by decide +kernel

theorem test_loop_output :
    after (.loopOutputApply 127) outputDue
      (fun t => decide (t.rget (Reg.mioPwmDuty 23) = 9 ∧ t.rget (Reg.loopReg 127 0x9C) = 1)) = true := by decide +kernel

theorem test_loop_off :
    after (.loopOffEnter 127) turnsOff (fun t => decide (t.loopState 127 = 0)) = true := by decide +kernel

/-- Engine 4 shadows group 0 with enough samples. -/
def shadowing : State :=
  put permitted [(Reg.stpEngStatus 4, 2 + 4 * 1), (Reg.stpEngImage 4, 0x10000), (Reg.stpEngShadowSamples 4, 1), (Reg.stpShadowMin, 1)]

theorem witness_engines :
    up.Takes .steward (Reg.stpEngCtrl 4) (1 ||| 2) ∧ bitOf (1 ||| 2) 0 = true ∧ up.engRole 4 = 1 ∧ up.engState 4 < 2 ∧
      up.Takes .steward (Reg.stpEngCtrl 4) (1 ||| 4) ∧ bitOf (1 ||| 4) 0 = true ∧ bitOf (1 ||| 4) 1 = false ∧ shadowing.engRole 4 = 2 ∧
      shadowing.engState 4 < 2 ∧ shadowing.Takes .steward (Reg.stpEngCtrl 4) (1 ||| 4) ∧
      up.Takes .steward (Reg.stpEngCtrl 4) (1 &&& ~~~ 1) ∧ up.engRole 4 ≠ 0 ∧ up.engState 4 ≠ 3 ∧
      up.Takes .steward (Reg.stpEngCtrl 0) (1 &&& ~~~ 1) ∧ up.engRole 0 = 0 ∧ up.engState 0 < 2 ∧ up.stp.wakeUp = [] ∧
      up.groupEngine (up.engGroup 0) = 0 ∧ up.Takes .steward (Reg.stpEngCtrl 0) (0 ||| 1) ∧
      (put permitted [(Reg.stpEngStatus 0, 8)]).engState 0 = 2 ∧ (put permitted [(Reg.stpEngStatus 0, 12)]).engState 0 = 3 ∧
      (put permitted [(Reg.stpEngStatus 4, 13)]).engRole 4 = 1 ∧ (put permitted [(Reg.stpEngStatus 4, 13)]).engState 4 = 3 ∧
      (put permitted [(Reg.stpEngStatus 0, 12), (Reg.loopReg 31 0, 1)]).lf (32 * 0 + 31) 0 0 0 = 1 ∧
      up.Takes .steward Reg.stpHandover (0x40 ||| 0x80000000) ∧ shadowing.handoverErr (0x40 ||| 0x80000000) = 0 ∧
      up.handoverErr (0x40 ||| 0x80000000) ≠ 0 := by
  refine ⟨takes ?_, ?_, ?_, ?_, takes ?_, ?_, ?_, ?_, ?_, takes ?_, takes ?_, ?_, ?_, takes ?_, ?_, ?_, ?_, ?_, takes ?_, ?_, ?_,
    ?_, ?_, ?_, takes ?_, ?_, ?_⟩ <;> decide +kernel

/-- The hand-over of group 0 to engine 4 is due. -/
def handingOver : State := { shadowing with stp := { shadowing.stp with handover := some (0x80000040, 0) } }

theorem witness_handover :
    handingOver.stp.handover = some (0x80000040, 0) ∧ handingOver.beat = 0 ∧ fieldOf 0x80000040 6 4 = 4 ∧
      handingOver.groupEngine (fieldOf 0x80000040 1 0) ≠ 4 ∧
      { handingOver with stp := { handingOver.stp with handover := none } }.handoverErr 0x80000040 = 0 ∧
      (handingOver.set64 Reg.tmbBeatLo 1).beat ≠ 0 := by decide +kernel

theorem test_shadow_start :
    after (.shadowStart .steward 4 1) up (fun t => decide (t.engRole 4 = 2)) = true := by decide +kernel

theorem test_handover :
    after .handoverApply handingOver (fun t => decide (t.groupEngine 0 = 4 ∧ t.engRole 0 = 1)) = true := by decide +kernel

theorem test_handover_refused :
    after (.handoverGo .steward 0x40) up (fun t => decide (t.fget Reg.stpHandoverStatus 7 4 = 1 ∧ t.rget Reg.stpHandover = 0)) = true := by
  decide +kernel

/-! ### Motion I/O -/

/-- Encoder 15 has these inputs. -/
def pins (s : State) (a b z : PinFilter) : State := s.putEncPins 15 ⟨a, b, z⟩

/-- Encoder 15 counts; axis 31 names it. -/
def counting : State :=
  put permitted [(Reg.mioEncCfg 15, 0x201), (Reg.mioAxCfg 31, 1 + 4 * 15), (Reg.mioEncCount 15, 7), (Reg.mioEncIndexRef 15, 5)]

/-- Its index input has risen. -/
def indexed : State := pins counting .low .low ⟨true, 0, false⟩

/-- Axis 31 homes with encoder 15, in INDEX. -/
def homesIndex : State := put indexed [(Reg.mioHomeStatus, 2), (Reg.mioHomeCfg, 31), (Reg.mioHomePos, 100)]

theorem witness_encoders :
    up.beating = false ∧ { counting with order := 5 }.placeOpen 4 = false ∧ counting.beating = true ∧ counting.placeOpen 4 = true ∧
      (counting.encPins 15).a.raw ≠ true ∧ counting.encFilt 15 = 0 ∧ counting.bit (Reg.mioEncCfg 15) 0 = true ∧
      (((counting.encPins 15).a.sample 0 true).settle 0 0).level ≠ (counting.encPins 15).a.level ∧
      (((counting.encPins 15).b.sample 0 false).settle 0 0).level = (counting.encPins 15).b.level ∧ counting.homing = false ∧
      counting.fget (Reg.mioAxCfg 31) 1 0 = 1 ∧ counting.fget (Reg.mioAxCfg 31) 5 2 = 15 ∧
      (put counting [(Reg.mioEncCfg 15, 0x3D)]).encFilt 15 = 15 ∧
      (indexed.encPins 15).z.raw = true ∧ (indexed.encPins 15).z.due (indexed.encFilt 15) indexed.beat = true ∧
      indexed.indexQualified 15 = true ∧ (put indexed [(Reg.mioEncCfg 15, 0)]).indexQualified 15 = false ∧
      (counting.encPins 15).z.raw = false ∧ indexed.fget Reg.mioHomeStatus 2 0 ≠ 2 ∧ indexed.fget (Reg.mioEncCfg 15) 10 9 = 1 ∧
      homesIndex.fget Reg.mioHomeStatus 2 0 = 2 ∧ homesIndex.homeEnc = 15 := by decide +kernel

theorem test_filter_needs_its_beats :
    after (.encoderStateChange 15 true false false) (put counting [(Reg.mioEncCfg 15, 5)])
      (fun t => decide ((t.encPins 15).a = ⟨true, 0, false⟩ ∧ t.encCount 15 = 7)) = true := by decide +kernel

theorem test_double_change_is_a_fault :
    after (.encoderStateChange 15 true true false) counting
      (fun t => decide (t.bit (Reg.mioEncStatus 15) 0 = true ∧ t.bit (Reg.mioAxStatus 31) 3 = true)) = true := by decide +kernel

theorem test_index :
    after (.encoderIndex 15) indexed (fun t => decide (t.rget (Reg.mioEncIndexPos 15) = 7 ∧ t.encCount 15 = 5)) = true ∧
      after (.encoderIndex 15) homesIndex (fun t => decide (t.encCount 15 = 100)) = true := by decide +kernel

/-- Absolute input 7 reads codes of 8 bits in Gray code, every 100 beats. -/
def absolute : State := put permitted [(Reg.mioAbsCfg 7, 0x4F), (Reg.mioAbsPeriod 7, 100), (Reg.mioAbsOffset 7, 1)]

/-- Its frame is in progress, in which the line was high. -/
def absFraming : State := absolute.putAbs 7 { AbsIn.idle with start := some (0, true) }

theorem witness_absolute :
    absolute.beating = true ∧ absolute.bit (Reg.mioAbsCfg 7) 0 = true ∧
      absolute.beat % max 1 (absolute.fget (Reg.mioAbsPeriod 7) 23 0) = absolute.fget (Reg.mioAbsPhase 7) 23 0 ∧
      up.bit (Reg.mioAbsCfg 7) 0 = false ∧ (absFraming.absIn 7).start = some (0, true) ∧
      bitOf (absFraming.rget (Reg.mioAbsCfg 7)) 0 = true ∧
      0 + (2 * fieldOf (absFraming.rget (Reg.mioAbsCfg 7)) 18 9 * (absPeriods (absFraming.rget (Reg.mioAbsCfg 7)) - 1) +
        fieldOf (absFraming.rget (Reg.mioAbsCfg 7)) 24 19) ≤ absFraming.beat ∧
      absFraming.beat < 0 + (2 * fieldOf (0x24F : Word) 18 9 * (absPeriods 0x24F - 1) + fieldOf (0x24F : Word) 24 19) ∧
      max 1 (absFraming.fget (Reg.mioAbsCfg 7) 31 25) ≤ (absFraming.absIn 7).badRun + 1 := by decide +kernel

/-- Gray code 0b110 is 4. -/
theorem test_absolute_frame :
    after (.absFrameEnd 7 6 false true) absFraming (fun t => decide (t.rget (Reg.mioAbsPos 7) = 5 ∧ (t.absIn 7).frames = 1)) = true ∧
      after (.absFrameEnd 7 6 false true) (absolute.putAbs 7 { AbsIn.idle with start := some (0, false) })
        (fun t => decide (t.rget (Reg.mioAbsErrCount 7) = 1 ∧ t.rget (Reg.mioAbsPos 7) = 0)) = true := by decide +kernel

/-- Motion I/O is enabled, and pair 23 has a period of 100 beats and a dead time of 50 ns. -/
def pairs (cfg : Word) (duty : Word) : State :=
  put permitted [(Reg.mioStatus, 1), (Reg.mioPwmCfg 23, cfg), (Reg.mioPwmPeriod 23, 100), (Reg.mioPwmTiming 23, 50),
    (Reg.mioPwmDuty 23, duty)]

theorem witness_pwm :
    (pairs 1 0x8000).beat % max 1 ((pairs 1 0x8000).fget (Reg.mioPwmPeriod 23) 16 0) = (pairs 1 0x8000).fget (Reg.mioPwmTiming 23) 31 15 ∧
      (put (pairs 1 0) [(Reg.mioPwmTiming 23, 0x8000)]).fget (Reg.mioPwmTiming 23) 31 15 = 1 ∧
      (pairs 1 0x8000).mio.killed = false ∧ (pairs 1 0x8000).fget Reg.mioStatus 1 0 = 1 ∧ (put up [(Reg.mioStatus, 3)]).fget Reg.mioStatus 1 0 ≠ 1 ∧
      (pairs 2 0).fget (Reg.mioPwmCfg 23) 5 4 = 0 ∧ (pairs 2 0).fget (Reg.mioPwmCfg 23) 1 0 = 2 ∧
      ((pairs 2 0).rget (Reg.mioPwmDuty 23)).toInt ≤ 0 ∧ (pairs 2 0).rget (Reg.mioPwmDuty 23) ≠ qNan ∧
      65536 ≤ ((pairs 1 0x10000).rget (Reg.mioPwmDuty 23)).toInt ∧ (pairs 1 0x10000).fget (Reg.mioPwmPeriod 23) 16 0 ≠ 0 ∧
      ((pairs 0x31 0).pwmLatch 23).2 = true ∧ ((pairs 1 0x8000).pwmLatch 23).2 = false ∧
      up.Takes .steward Reg.mioCtrl (1 &&& ~~~ 1) ∧ ctrlBad (1 &&& ~~~ 1) = true ∧ up.Takes .steward Reg.mioCtrl (0xA01 &&& ~~~ 1) ∧
      ctrlBad (0xA01 &&& ~~~ 1) = false ∧ up.Takes .steward Reg.mioCtrl (0xA00 ||| 1) ∧ ctrlBad (0xA00 ||| 1) = false := by
  refine ⟨?_, ?_, ?_, ?_, ?_, ?_, ?_, ?_, ?_, ?_, ?_, ?_, ?_, takes ?_, ?_, takes ?_, ?_, takes ?_, ?_⟩ <;> decide +kernel

/-- Half of 800 ns, with 50 ns between the switches. -/
theorem test_pwm_dead_time :
    after (.pwmPeriodStart 23) (pairs 1 0x8000) (fun t => decide ((t.pwm 23).hi = [(0, 400)] ∧ (t.pwm 23).lo = [(450, 800)])) = true := by
  decide +kernel

theorem test_pwm_refuses_both_forced :
    after (.pwmPeriodStart 23) (pairs 0x31 0) (fun t => decide ((t.pwm 23).hi = [] ∧ t.rget (Reg.mioPwmRefusedCount 23) = 1)) = true := by
  decide +kernel

/-- Limit input 31 of axis 31 (LIMIT_POS, LIMIT_FAULT) is active and has held for a beat. -/
def limits : State :=
  put permitted [(Reg.mioLimCfg 31, 0x3FA002), (Reg.mioLimRaw, 0x80000000)]

theorem witness_limits :
    up.beating = false ∧ limits.beating = true ∧ limits.placeOpen 3 = true ∧ { limits with order := 4 }.placeOpen 3 = false ∧
      permitted.bit Reg.mioLimRaw 31 ≠ (true != permitted.bit (Reg.mioLimCfg 31) 0) ∧
      (put permitted [(Reg.mioLimState, 0x80000000)]).bit Reg.mioLimState 31 = (true != permitted.bit (Reg.mioLimCfg 31) 0) ∧
      limits.limHeld 31 = true ∧ limits.bit Reg.mioLimRaw 31 = true ∧ limits.bit (Reg.mioLimCfg 31) 15 = true ∧
      limits.limFaults 31 = true ∧ limits.homing = false ∧ limits.fget (Reg.mioLimCfg 31) 20 16 = 31 ∧
      limits.beat % 2 ^ limits.fget Reg.mioCtrl 12 8 = 0 ∧
      (limits.set64 Reg.tmbBeatLo 1).beat % 2 ^ (put limits [(Reg.mioCtrl, 0x400)]).fget Reg.mioCtrl 12 8 ≠ 0 ∧
      up.Takes .steward (Reg.mioAxStatus 31) 2 ∧ limits.causeHolds 31 1 = false ∧
      (put limits [(Reg.mioLimStatus 31, 1)]).causeHolds 31 1 = true := by
  refine ⟨?_, ?_, ?_, ?_, ?_, ?_, ?_, ?_, ?_, ?_, ?_, ?_, ?_, ?_, takes ?_, ?_, ?_⟩ <;> decide +kernel

theorem test_limit_trips :
    after .limitDebounceExpiry limits
      (fun t => decide (t.bit (Reg.mioLimStatus 31) 1 = true ∧ t.bit (Reg.mioAxStatus 31) 0 = true)) = true := by decide +kernel

theorem test_cause_clear :
    after (.axisCauseClear .steward 31 2) (put limits [(Reg.mioAxStatus 31, 3)]) (fun t => decide (t.rget (Reg.mioAxStatus 31) = 0)) = true := by
  decide +kernel

/-- Loop 0 is in RUN with encoder 15, axis 31 and home input 31. -/
def homeable : State :=
  put counting [(Reg.loopReg 0 0x84, 1), (Reg.loopReg 0 0x0C, 15 * 8), (Reg.mioLimCfg 31, 0x1FE002),
    (Reg.mioHomeCfg, 31 + 31 * 256)]

theorem witness_homing :
    up.Takes .steward Reg.mioHomeCtrl (0 ||| 1) ∧ bitOf (0 : Word) 1 = false ∧ homeable.homeReady = true ∧ up.homeReady = false ∧
      up.Takes .steward Reg.mioHomeCtrl (0 ||| 2) ∧ bitOf (0 : Word) 0 = false ∧ homesIndex.homing = true ∧ up.homing = false ∧
      up.fget Reg.mioHomeStatus 2 0 ≠ 4 := by
  refine ⟨takes ?_, ?_, ?_, ?_, takes ?_, ?_, ?_, ?_, ?_⟩ <;> decide +kernel

theorem test_home_go :
    after (.homeGo .steward 0) homeable (fun t => decide (t.fget Reg.mioHomeStatus 2 0 = 1 ∧ t.mio.homeStart = 7)) = true ∧
      after (.homeGo .steward 0) up (fun t => decide (t.fget Reg.mioHomeStatus 7 4 = 9)) = true := by decide +kernel

theorem test_home_abort :
    after (.homeAbort .steward 0) homesIndex (fun t => decide (t.fget Reg.mioHomeStatus 7 4 = 7)) = true := by decide +kernel

/-- UART 3 is enabled for 7-bit bytes, and has these queues. -/
def uartWith (r : Uart) : State :=
  let s := put up [(Reg.mioUartCfg 3, 0x100000)]
  { s with mio := { s.mio with uarts := [(3, r)] } }

theorem witness_uart :
    (uartWith .idle).bit (Reg.mioUartCfg 3) 20 = true ∧ ((uartWith .idle).uart 3).rx.length < 64 ∧
      64 ≤ ((uartWith ⟨List.replicate 64 (0, false, false), [], none⟩).uart 3).rx.length ∧
      up.Takes .steward (Reg.mioUartPop 3) 1 ∧ up.Takes .steward (Reg.mioUartTx 3) (toWord 255) ∧ (up.uart 3).sending = none ∧
      ((uartWith ⟨[], [6], some 5⟩).uart 3).sending ≠ none := by
  refine ⟨?_, ?_, ?_, takes ?_, takes ?_, ?_, ?_⟩ <;> decide +kernel

theorem test_uart_receives :
    after (.uartRxFrame 3 0xC1 false true 0) (uartWith .idle) (fun t => decide (t.uart 3 = ⟨[(0x41, false, false)], [], none⟩)) = true := by
  decide +kernel

theorem test_uart_sends_in_order :
    after (.uartTxFrameDone 3) (uartWith ⟨[], [6, 7], some 5⟩) (fun t => decide (t.uart 3 = ⟨[], [7], some 6⟩)) = true := by decide +kernel

/-! ### The sparse solver -/

/-- A problem of one row: 0.5 x = 0.25, to 2⁻¹⁰, with a deadline of one beat and an update of buckle 3. -/
def solves : State :=
  ([(0x40000000, words [1, 1, 1, 0xA0001, 0, 0, 0x100, 0x200, 0x300, 0x400, 0x500, 0x600, 0x8003, 1]),
    (0x40000100, words [0, 1]), (0x40000300, words [0x40000000]), (0x40000400, words [0x4000])] : List (Nat × List Byte)).foldl
    (fun s p => s.writeBytes p.1 p.2) permitted

/-- Its start in beat 0, as latched. -/
def problem : SsuStart :=
  let d := solves.readBytes 0x40000000 64
  ⟨0, some d, (ssuArrays d).map fun r => (r.1, solves.readBytes r.1 r.2), none⟩

/-- The start waits. -/
def pendingSolve : State := put { solves with ssu := { Ssu.idle with pending := [(7, problem)] } } [(Reg.ssuPStatus 7, 1)]

/-- The solve runs, in this beat. -/
def solving (beat : Nat) : State :=
  (put { solves with ssu := { Ssu.idle with running := some (7, problem) } } [(Reg.ssuStatus, 1), (Reg.ssuPStatus 7, 2)]).set64
    Reg.tmbBeatLo beat

theorem witness_solver_starts :
    up.Takes .steward (Reg.ssuPCtrl 7) (0 ||| 1) ∧ spGet (fun _ => 0) ({ up with ssu := { up.ssu with starts := [(7, 1)] } } : State).ssu.starts 7 =
        up.beat + 1 ∧ spGet (fun _ => 0) up.ssu.starts 7 ≠ up.beat + 1 ∧ up.ssuBusy 7 = false ∧ up.fget Reg.ssuStatus 1 0 ≠ 3 ∧
      pendingSolve.ssuBusy 7 = true ∧ up.Takes .steward (Reg.ssuPCtrl 7) (0 ||| 2) ∧ bitOf (0 : Word) 0 = false ∧ up.ssuNext = none ∧
      pendingSolve.fget Reg.ssuStatus 1 0 = 0 ∧ pendingSolve.ssu.running = none ∧ pendingSolve.ssuNext = some (7, problem) ∧
      pendingSolve.ssuLate problem = false ∧ up.Takes .steward Reg.ssuCtrl (1 &&& ~~~ 1) ∧ (solving 0).fget Reg.ssuStatus 1 0 = 1 ∧
      (solving 0).ssu.running ≠ none ∧ up.Takes .steward Reg.ssuCtrl (0 ||| 1) := by
  refine ⟨takes ?_, ?_, ?_, ?_, ?_, ?_, takes ?_, ?_, ?_, ?_, ?_, ?_, ?_, takes ?_, ?_, ?_, takes ?_⟩ <;> decide +kernel

theorem test_ssu_go :
    after (.ssuGo .steward 7 0) up (fun t => decide (t.fget (Reg.ssuPStatus 7) 1 0 = 1)) = true ∧
      after (.ssuGo .steward 7 0) pendingSolve (fun t => decide (t.rget Reg.ssuOverlapCount = 1)) = true := by decide +kernel

theorem test_solve_start :
    after .ssuSolveStart pendingSolve (fun t => decide (t.fget Reg.ssuStatus 4 2 = 7 ∧ t.fget Reg.ssuStatus 1 0 = 1)) = true := by
  decide +kernel

theorem witness_solve_ends :
    up.ssu.running = none ∧ (solving 0).ssu.running = some (7, problem) ∧ (solving 0).fget Reg.ssuStatus 1 0 = 1 ∧
      (solving 0).ssuIntact problem = true ∧ (solving 1).ssuLate problem = true ∧
      ((solving 1).ssuOutcome problem (some (0, ssuTimeout))).1 = ssuTimeout ∧
      ((solving 0).writeBytes 0x40000300 [1]).ssuIntact problem = false ∧ inReflex (ssuOut (problem.desc.getD [])) 16 = true ∧
      bitsOf (descWord (problem.desc.getD []) 0x30) 15 15 = 1 ∧ (solving 0).mainOn = true := by decide +kernel

/-- One iteration reaches the tolerance. -/
theorem test_solve_converges :
    after (.ssuSolveEnd 9 none) (solving 0)
      (fun t => decide (t.fget (Reg.ssuPLast 7) 7 0 = 0 ∧ t.fget (Reg.ssuPLast 7) 23 8 = 1 ∧ t.buckle 3 = 1)) = true := by decide +kernel

theorem test_solve_times_out :
    after (.ssuDeadlineExpiry 0 9) (solving 1) (fun t => decide (t.fget (Reg.ssuPLast 7) 7 0 = 5)) = true := by decide +kernel

/-! ### Cinch -/

/-- Cinch in this state, after a frame of beats, with this hidden part. -/
def cinchIs (st : Nat) (c : Cinch) (regs : List (Nat × Word)) : State :=
  { put ticking ((Reg.cinStatus, toWord (st + (if st = 1 then 0 else 4))) :: (Reg.sysRailStatus, 255) :: regs) with cin := c }

theorem witness_faults :
    causeOf up .lockstepMismatch = some 1 ∧ causeOf up .cinEccError = some 2 ∧ causeOf up .vinMainLoss = some 5 ∧
      causeOf up .outputReadbackMismatch = some 9 ∧ causeOf up .cinClockDeviation = some 10 ∧ causeOf up .cinDemand = some 11 ∧
      causeOf ((cinchIs 1 { Cinch.boot with wdog := some 0 } [(Reg.cinWdogCfg, 0x10000)]).set64 Reg.tmbBeatLo 126) .wdogExpiry = some 3 ∧
      causeOf up (.beatMonitorCheck 0) = some 4 ∧ up.Takes .cinch Reg.cinCtrl (0 ||| maskOf 3 3) ∧ fieldOf (0 : Word) 2 0 = 0 ∧
      (cinchIs 1 .boot []).cinState = 1 ∧ (cinchIs 1 .boot []).fget Reg.cinFault 7 0 = 0 ∧
      (cinchIs 2 .boot [(Reg.cinFault, 3)]).fget Reg.cinFault 7 0 ≠ 0 ∧ (cinchIs 2 .boot []).cinState = 2 := by
  refine ⟨?_, ?_, ?_, ?_, ?_, ?_, ?_, ?_, takes ?_, ?_, ?_, ?_, ?_, ?_⟩ <;> decide +kernel

theorem test_fault_in_run :
    after .cinEccError (cinchIs 1 .boot [(Reg.cinOutStatus, 0xD)])
      (fun t => decide (t.cinState = 2 ∧ t.rget Reg.cinFault = 0x20002 ∧ t.fget Reg.cinOutStatus 3 0 = 0 ∧ t.safeCommand = true)) =
      true := by decide +kernel

theorem test_firmware_fault :
    after (.cinFwFault .cinch 0x4200) (cinchIs 1 .boot []) (fun t => decide (t.fget Reg.cinFault 15 0 = 0x4208)) = true := by decide +kernel

theorem witness_cinch_commands :
    up.Takes .cinch Reg.cinCtrl (0 ||| maskOf 0 0) ∧ fieldOf (0 : Word) 3 1 = 0 ∧ (cinchIs 0 .boot []).cinState = 0 ∧
      (cinchIs 0 .boot []).causeStands = false ∧ (cinchIs 0 { Cinch.boot with held := [3] } []).causeStands = true ∧
      (cinchIs 3 .boot []).cinState = 3 ∧ (cinchIs 3 .boot []).bit Reg.cinReq 2 = false ∧
      (cinchIs 3 .boot [(Reg.cinReq, 4)]).bit Reg.cinReq 2 = true ∧ up.Takes .cinch Reg.cinCtrl (0 ||| maskOf 1 1) ∧
      bitOf (0 : Word) 0 = false ∧ fieldOf (0 : Word) 3 2 = 0 ∧ (cinchIs 1 .boot []).cinState = 1 ∧
      up.Takes .cinch Reg.cinCtrl (0 ||| maskOf 2 2) ∧ fieldOf (0 : Word) 1 0 = 0 ∧ bitOf (0 : Word) 3 = false ∧
      (cinchIs 2 .boot []).conditionHolds = false ∧ (cinchIs 2 .boot []).bit Reg.cinStatus 10 = false ∧
      (cinchIs 2 { Cinch.boot with demand := true } []).conditionHolds = true ∧
      up.Takes .steward Reg.cinReq (0 ||| 1) ∧ up.Takes .steward Reg.cinReq (0 ||| 2) ∧ up.Takes .steward Reg.cinReq 4 := by
  refine ⟨takes ?_, ?_, ?_, ?_, ?_, ?_, ?_, ?_, takes ?_, ?_, ?_, ?_, takes ?_, ?_, ?_, ?_, ?_, ?_, takes ?_, takes ?_, takes ?_⟩ <;>
    decide +kernel

theorem test_stop :
    after (.cinStop .cinch 0) (cinchIs 1 .boot [(Reg.cinOutStatus, 0xD)])
      (fun t => decide (t.cinState = 3 ∧ t.fget Reg.cinOutStatus 3 0 = 0 ∧ t.cin.command = true)) = true := by decide +kernel

theorem test_rearm :
    after (.cinRearm .cinch 0) (cinchIs 2 { Cinch.boot with held := [3] } [])
      (fun t => decide (t.bit Reg.cinStatus 11 = true ∧ t.cin.held = [])) = true := by decide +kernel

theorem test_core_hold :
    after (.coreHoldWrite .steward 4) (cinchIs 3 { Cinch.boot with wdog := some 0 } [])
      (fun t => decide (t.bit Reg.cinReq 2 = true ∧ t.cin.wdog = none)) = true := by decide +kernel

/-- A RUN write of beat 0 waits. -/
def runAsked : State := cinchIs 0 { Cinch.boot with runReq := some 0 } []

/-- RUN is to be entered in this beat. -/
def enters : State := cinchIs 0 { Cinch.boot with entry := some 0, runReq := some 0 } []

theorem witness_cinch_run :
    up.edgeCompletes = false ∧ runAsked.edgeCompletes = true ∧ runAsked.cin.faultBeat ≠ some runAsked.beat ∧
      { runAsked with cin := { runAsked.cin with faultBeat := some 0 } }.edgeCompletes = true ∧ up.cin.entry = none ∧
      enters.cin.entry = some 0 ∧ enters.beat = 0 ∧ (enters.set64 Reg.tmbBeatLo 1).beat ≠ 0 ∧ enters.causeStands = false ∧
      { enters with cin := { enters.cin with held := [3] } }.causeStands = true ∧
      { enters with cin := { enters.cin with held := [3] } }.handoffNow = false ∧
      (put { enters with cin := { enters.cin with handoffBeat := some 0 } } [(Reg.cinStatus, 0x404)]).handoffNow = true ∧
      (cinchIs 2 .boot [(Reg.cinStatus, 0x806)]).bit Reg.cinStatus 11 = true ∧
      (cinchIs 2 .boot []).cin.rearmBeat + tenSeconds ≤ ((cinchIs 2 .boot []).set64 Reg.tmbBeatLo tenSeconds).beat ∧
      (cinchIs 2 .boot []).beat < (cinchIs 2 .boot []).cin.rearmBeat + tenSeconds ∧ runAsked.cin.runReq = some 0 ∧
      runAsked.cin.entry = none := by decide +kernel

theorem test_run_entry :
    after .cinchRunEntry enters (fun t => decide (t.cinState = 1 ∧ t.fget Reg.cinOutStatus 3 0 = 0xD ∧ t.safeCommand = false)) = true := by
  decide +kernel

theorem test_restart_edge :
    after .restartEdge runAsked (fun t => decide (t.cin.entry = some 1)) = true := by decide +kernel

/-- The watchdog runs from beat 0: a kick is good from 125 to 250 beats on. -/
def watched (beat : Nat) : State :=
  (cinchIs 1 { Cinch.boot with wdog := some 0 } [(Reg.cinWdogCfg, 0x20001)]).set64 Reg.tmbBeatLo beat

theorem witness_watchdog :
    up.Takes .cinch Reg.cinWdogKick 0xC1A5 ∧ (watched 125).cin.wdog = some 0 ∧ fieldOf (0xC1A5 : Word) 15 0 = 0xC1A5 ∧
      0 + beatsPerUs * (watched 125).fget Reg.cinWdogCfg 15 0 ≤ (watched 125).beat ∧ wdogOver (watched 250) = false ∧
      wdogOver (watched 251) = true ∧ (watched 124).beat < 0 + beatsPerUs * (watched 124).fget Reg.cinWdogCfg 15 0 ∧
      up.cin.wdog = none ∧ beatWrong (put up [(Reg.tmbStatus, 1)]) 1250 = false ∧
      { watched 0 with cin := { Cinch.boot with phase := 4 } }.cinState = 1 := by
  refine ⟨takes ?_, ?_, ?_, ?_, ?_, ?_, ?_, ?_, ?_, ?_⟩ <;> decide +kernel

theorem test_kick :
    after (.wdogKick .cinch 0xC1A5) (watched 125) (fun t => decide (t.cin.wdog = some 125)) = true ∧
      after (.wdogKick .cinch 0xC1A5) (watched 124) (fun t => decide (t.fget Reg.cinFault 7 0 = 3)) = true := by decide +kernel

theorem test_outputs_toggle :
    after (.beatMonitorCheck 1250) { put (cinchIs 1 .boot [(Reg.tmbStatus, 1), (Reg.cinOutStatus, 0xD)]) [] with
        cin := { Cinch.boot with phase := 4 } } (fun t => decide (t.fget Reg.cinOutStatus 1 0 = 2)) = true := by decide +kernel

/-- The safe-state command waits, with loop 127 in RUN. -/
def commands : State :=
  { put ticking [(Reg.cinStatus, 6), (Reg.loopReg 127 0x84, 1)] with cin := { Cinch.boot with command := true } }

/-- A transaction that touches the vouched destination of `vouching` is armed. -/
def armedVouch : State :=
  { put vouching [(Reg.txnStatus 63, 0x1002)] with txns := [(63, { Txn.idle with entries := [⟨0, Reg.loopReg 0 0x7C, 1, 0⟩] })] }

theorem witness_safe_state_command :
    commands.cin.command = true ∧ commands.placeOpen 1 = true ∧ { commands with order := 2 }.placeOpen 1 = false ∧
      up.cin.command = false ∧ commands.loopState 127 = 1 ∧ (commands.loop 127).returning = none ∧ armedVouch.txnState 63 = 2 ∧
      armedVouch.needsVouch 63 = true ∧ up.killDue = false ∧ { up with cin := { up.cin with killNow := true } }.killDue = true := by
  decide +kernel

theorem test_safe_state_command :
    after .safeStateCommand commands (fun t => decide (t.loopState 127 = 2 ∧ t.lf 127 0x84 5 2 = 2)) = true := by decide +kernel

/-- Transaction 63 of an application core waits for its verdict, in RUN. -/
def awaits : State :=
  { put (cinchIs 1 { Cinch.boot with queue := [63] } []) [(Reg.txnStatus 63, 2 + 256 * toWord (initCode .steward))] with
    txns := [(63, { Txn.idle with queued := true, gateThen := some true })] }

/-- Every list of a transaction fits its buffer. -/
theorem fits_of {s : State} (h : (s.txns.all fun e => decide (e.2.entries.length ≤ 256 ∧ ∀ r ∈ e.2.seals, r < 16)) = true) :
    s.TxnsFit := by
  unfold State.TxnsFit State.txn
  generalize s.txns = l at h
  induction l with
  | nil => exact fun n => ⟨Nat.zero_le _, fun r hr => by cases hr⟩
  | cons e l ih =>
    rw [List.all_cons, Bool.and_eq_true] at h
    intro n
    by_cases he : e.1 = n
    · simpa [spGet, he] using of_decide_eq_true h.1
    · simpa [spGet, he] using ih h.2 n

theorem witness_verdicts :
    awaits.Takes .cinch Reg.cinVerdict (63 + 256) ∧ awaits.cin.queue = 63 :: [] ∧ awaits.txnState 63 = 2 ∧
      awaits.cin.faultBeat ≠ some awaits.beat ∧ fieldOf (63 + 256 : Word) 5 0 = 63 ∧ bitOf (63 + 256 : Word) 8 = true ∧
      awaits.cinState = 1 ∧ awaits.bit Reg.cfgStatus 4 = false ∧ isTrusted (awaits.txnOwner 63) = true ∧ awaits.gateFor 63 = true ∧
      awaits.linkOf 63 = none ∧ awaits.TxnsFit ∧ fieldOf (62 : Word) 5 0 ≠ 63 ∧ bitOf (63 : Word) 8 = false ∧
      { awaits with regs := (put awaits [(Reg.cinStatus, 7)]).regs }.cinState ≠ 1 ∧ up.Takes .cinch (Reg.cinSealCtrl 15) (0 ||| 4) ∧
      up.Takes (.reflex 0) (Reg.cinSealCtrl 15) (0 ||| 4) := by
  refine ⟨takes ?_, ?_, ?_, ?_, ?_, ?_, ?_, ?_, ?_, ?_, ?_, fits_of ?_, ?_, ?_, ?_, takes ?_, takes ?_⟩ <;> decide +kernel

theorem test_vouch :
    after (.cinVerdictWrite .cinch (63 + 256)) awaits
      (fun t => decide (t.bit (Reg.txnStatus 63) 26 = true ∧ t.rget Reg.cinVouchCount = 1)) = true := by decide +kernel

theorem test_veto :
    after (.cinVerdictWrite .cinch (63 + 0x50000)) awaits
      (fun t => decide (t.txnState 63 = 4 ∧ t.rget Reg.cinVetoLast = 0x5063F)) = true := by decide +kernel

/-- Frames of 100 beats with a deadline at beat 50, watched since beat 0. -/
def frames (beat : Nat) (result : Bool) : State :=
  { (put ticking [(Reg.cinFrameCfg, 0x10), (Reg.cinFramePeriod, 100), (Reg.cinFrameDeadline, 50)]).set64 Reg.tmbBeatLo beat with
    cin := { Cinch.boot with watch := [⟨0, 50, result⟩], frameStart := some 0 } }

/-- The grid of the frame closes: a block of one sensor, 64 × 64 cells of 50 mm. -/
def closes : State :=
  ([(cinchBase + 0x1000, words [6 + 50 * 65536]), (cinchBase + 0x100C, words [0x10000, 0x2000])] : List (Nat × List Byte)).foldl
    (fun s p => s.writeBytes p.1 p.2) (put (frames 0 false) [(Reg.cinGridCfg, 0x1001)])

theorem witness_frames :
    up.frameStarts = false ∧ (frames 100 true).frameStarts = true ∧ (frames 49 true).bit Reg.cinFrameCfg 4 = true ∧
      (frames 49 true).beat < 50 ∧ 50 ≤ (frames 50 true).beat ∧ (frames 50 false).cin.watch = [⟨0, 50, false⟩] ∧
      min 255 ((frames 50 false).fget Reg.cinFrameStatus 15 8 + 1) ≤ (put (frames 50 false) [(Reg.cinFrameCfg, 0x1C)]).fget Reg.cinFrameCfg 3 2 ∧
      (frames 50 false).fget Reg.cinFrameCfg 3 2 < min 255 ((frames 50 false).fget Reg.cinFrameStatus 15 8 + 1) ∧
      up.gridDue = false ∧ closes.gridDue = true ∧ closes.memPending = [] := by decide +kernel

theorem test_frame_start :
    after .cinFrameStart (frames 100 true) (fun t => decide (t.rget Reg.cinFrameNum = 1 ∧ t.cin.frameStart = some 100)) = true := by
  decide +kernel

theorem test_frame_missed :
    after .frameDeadlineCheck (frames 50 false)
      (fun t => decide (t.rget Reg.cinFrameMissCount = 1 ∧ t.bit Reg.cinFault 21 = true)) = true := by decide +kernel

/-! ### Shauz -/

/-- Node `n` of a ring of two: both ports are UP, and both nodes can be reached; `n` 8 holds no number. -/
def node (n : Nat) : State :=
  put { memUp with tmb := { memUp.tmb with started := true } }
    [(Reg.shzPStatus 0, 2), (Reg.shzPStatus 1, 2), (Reg.shzNode, toWord ((if n < 8 then n + 8 else 0) + 0x30120)), (Reg.shzCtrl, 1)]

/-- Node 0 is the head. -/
def headNode : State := put (node 0) [(Reg.shzCfg, 1)]

/-- The first flit of node 7's port, with a message to node 0. -/
def firstFlit (typ op len addr : Nat) (payload : List Byte) : Flit := ⟨1, typ, 7, 0, 0, 1, 0, false, 1, 0, len, op, 0, addr, payload⟩

/-- The state in which the port's flit acts. -/
def taken (s : State) (f : Flit) : State := (s.linkTake 1 f).1

theorem accepted_of {s : State} {f : Flit} (h : (s.linkTake 1 f).2 = true) : Accepted s (taken s f) 1 f := Prod.ext rfl h

/-- Port 1 has sent the flits 1 and 2. -/
def replays : State :=
  (node 0).putShzPort 1 { ShzPort.down with txSeq := 2, out := [firstFlit 1 0 4 0 [], { firstFlit 1 0 4 0 [] with seq := 2 }] }

theorem witness_ports :
    up.portUp 1 = false ∧ replays.portUp 1 = true ∧ (replays.shzPort 1).badRun < 4 ∧ (firstFlit 0 0 0 0 []).nak = false ∧
      replays.numbered = true ∧ (firstFlit 0 0 0 0 []).gen = replays.ringGen ∧ { firstFlit 1 0 4 0 [] with gen := 2 }.gen ≠ replays.ringGen ∧
      (firstFlit 1 0 4 0 []).typ ≠ 0 ∧ flitCrcOk [] = false ∧
      replays.beat < (replays.shzPort 1).waits + 2 * beatsPerUs ∧ (replays.shzPort 1).out ≠ [] ∧
      (replays.shzPort 1).waits + 2 * beatsPerUs ≤ (replays.set64 Reg.tmbBeatLo 250).beat := by decide +kernel

set_option maxRecDepth 100000 in
theorem witness_discarded_flits :
    flitCrcOk (flitBytes { firstFlit 1 0 4 0 [] with gen := 2 }) = true ∧ flitCrcOk (flitBytes (firstFlit 1 0 4 0 [])) = true ∧
      replays.flitDiscarded (flitBytes { firstFlit 1 0 4 0 [] with gen := 2 }) = true ∧
      replays.flitDiscarded (flitBytes (firstFlit 1 0 4 0 [])) = false :=
  ⟨by decide +kernel, by decide +kernel, by decide +kernel, by decide +kernel⟩

theorem test_acknowledged_flits_leave :
    after (.shzIdle 1 { firstFlit 0 0 0 0 [] with ack := 1 }) replays (fun t => decide ((t.shzPort 1).out.map (·.seq) = [2])) = true := by
  decide +kernel

theorem test_bad_crc :
    after (.shzBadCrcFlit 1 []) replays (fun t => decide ((t.shzPort 1).nak = true ∧ t.rget (Reg.shzPCrcCount 1) = 1)) = true := by
  decide +kernel

/-- The message has come twice. -/
def seenBefore : State := (node 0).putShzPeer 7 { ShzPeer.fresh0 with accepted := 1 }

theorem witness_messages :
    e2eOf (.shzWrite 1 (firstFlit 1 0 4 0 [])) = some (1, firstFlit 1 0 4 0 []) ∧
      Accepted (node 0) (taken (node 0) (firstFlit 1 0 4 0 [])) 1 (firstFlit 1 0 4 0 []) ∧
      Accepted (node 8) (taken (node 8) (firstFlit 1 0 4 0 [])) 1 (firstFlit 1 0 4 0 []) ∧
      (taken (node 8) (firstFlit 1 0 4 0 [])).numbered = false ∧ (taken (node 8) (firstFlit 1 0 4 0 [])).portUp 0 = true ∧
      (taken (node 0) { firstFlit 1 0 4 0 [] with srcEpoch := 1 }).epochOf 7 ≠ 1 ∧
      Accepted (node 0) (taken (node 0) { firstFlit 1 0 4 0 [] with srcEpoch := 1 }) 1 { firstFlit 1 0 4 0 [] with srcEpoch := 1 } ∧
      ForThisNode (taken seenBefore (firstFlit 1 0 4 0 [])) (firstFlit 1 0 4 0 []) ∧
      1 = ((taken seenBefore (firstFlit 1 0 4 0 [])).shzPeer 7).accepted % 65536 ∧
      Accepted seenBefore (taken seenBefore (firstFlit 1 0 4 0 [])) 1 (firstFlit 1 0 4 0 []) ∧
      NextMessage (taken (node 0) (firstFlit 1 0 4 0 [])) (firstFlit 1 0 4 0 []) ∧
      Accepted (node 0) (taken (node 0) (firstFlit 5 0 0 0 [])) 1 (firstFlit 5 0 0 0 []) := by
  refine ⟨rfl, accepted_of ?_, accepted_of ?_, ?_, ?_, ?_, accepted_of ?_, ?_, ?_, accepted_of ?_, ?_, accepted_of ?_⟩ <;>
    first | decide +kernel | (unfold NextMessage ForThisNode; decide +kernel) | (unfold ForThisNode; decide +kernel)

theorem test_duplicate :
    after (.shzWrite 1 (firstFlit 1 0 4 tierB0 [1, 2, 3, 4])) seenBefore
      (fun t => decide (t.rget Reg.shzDupCount = 1 ∧ t.readByte tierB0 = 0)) = true := by decide +kernel

/-- A write of 4 bytes to Tier B, and a read of them. -/
def remoteWrite : Flit := firstFlit 1 0 4 tierB0 [1, 2, 3, 4]
def remoteRead : Flit := firstFlit 2 0 4 tierB0 []

/-- A read of node 7 waits. -/
def remoteReading : State := { node 0 with shz := { (node 0).shz with reads := [⟨0, 7, 0, 4, 0⟩] } }

/-- Node 7 belongs to the ring as well. -/
def reachesSeven : State := put (node 0) [(Reg.shzNode, 0x810128)]

theorem witness_remote :
    NextMessage (taken (node 0) remoteWrite) remoteWrite ∧ Accepted (node 0) (taken (node 0) remoteWrite) 1 remoteWrite ∧
      requestShape remoteWrite = true ∧ regionOf remoteWrite.addr = .tierB ∧
      (taken (node 0) remoteWrite).longDenied .shauz tierB0 4 = none ∧ (taken (node 0) remoteWrite).Clean tierB0 4 ∧
      remoteWrite.payload.length = remoteWrite.len ∧ requestShape { remoteWrite with len := 3 } = false ∧
      (taken reachesSeven { remoteWrite with len := 3 }).nodeReachable 7 = true ∧
      NextMessage (taken reachesSeven { remoteWrite with len := 3 }) { remoteWrite with len := 3 } ∧
      Accepted reachesSeven (taken reachesSeven { remoteWrite with len := 3 }) 1 { remoteWrite with len := 3 } ∧
      Accepted reachesSeven (taken reachesSeven remoteRead) 1 remoteRead ∧ NextMessage (taken reachesSeven remoteRead) remoteRead ∧
      requestShape remoteRead = true ∧ readTarget tierB0 = true ∧ (taken reachesSeven remoteRead).readable tierB0 = true ∧
      (taken reachesSeven remoteRead).readable (tierB0 + 3) = true ∧ (taken reachesSeven remoteRead).Clean tierB0 4 ∧
      readTarget 0x10000000 = false ∧ Accepted remoteReading (taken remoteReading (firstFlit 3 0 4 0 [])) 1 (firstFlit 3 0 4 0 []) ∧
      (taken remoteReading (firstFlit 3 0 4 0 [])).shz.reads = [⟨0, 7, 0, 4, 0⟩] ∧
      Accepted (node 0) (taken (node 0) (firstFlit 4 1 4 4095 [1])) 1 (firstFlit 4 1 4 4095 [1]) ∧ isProtected 4095 = false ∧
      (taken (node 0) (firstFlit 4 1 4 4095 [1])).mainOn = true ∧ isProtected 16383 = true ∧
      Accepted (node 0) (taken (node 0) (firstFlit 9 1 0 0 [])) 1 (firstFlit 9 1 0 0 []) := by
  refine ⟨?_, accepted_of ?_, ?_, ?_, ?_, clean_of ?_, ?_, ?_, ?_, ?_, accepted_of ?_, accepted_of ?_, ?_, ?_, ?_, ?_, ?_,
    clean_of ?_, ?_, accepted_of ?_, ?_, accepted_of ?_, ?_, ?_, ?_, accepted_of ?_⟩ <;>
    first | decide +kernel | (unfold NextMessage ForThisNode; decide +kernel)

theorem test_remote_write :
    after (.shzWrite 1 remoteWrite) (node 0) (fun t => decide (t.readBytes tierB0 4 = [1, 2, 3, 4])) = true := by decide +kernel

theorem test_remote_signal :
    after (.shzBkl 1 (firstFlit 4 1 4 5 [3])) (node 0) (fun t => decide (t.buckle 5 = 3)) = true := by decide +kernel

theorem witness_remote_timers :
    remoteReading.shz.reads.find? (fun q => q.tag = 0) = some ⟨0, 7, 0, 4, 0⟩ ∧
      0 + beatsPerUs * max 1 (remoteReading.fget Reg.shzRdTimeout 15 0) ≤
        (remoteReading.set64 Reg.tmbBeatLo (beatsPerUs * max 1 (remoteReading.fget Reg.shzRdTimeout 15 0))).beat ∧
      remoteReading.beat < 0 + beatsPerUs * max 1 (remoteReading.fget Reg.shzRdTimeout 15 0) ∧ ((node 0).shzPeer 7).fresh = 0 ∧
      (((node 0).putShzPeer 7 { ShzPeer.fresh0 with fresh := 1 }).shzPeer 7).fresh ≠ 0 ∧
      ((node 0).putShzPeer 7 { ShzPeer.fresh0 with fresh := 1 }).portUp ((node 0).routePort 7) = true := by decide +kernel

/-- Link slot 7 coordinates (`role` 0) or follows node 7 (`role` 2) for the armed transaction 63 of group 5, whose stamp is near. -/
def linked (role st : Word) : State :=
  put (node 0) [(Reg.shzLinkCfg 7, 1 + role + 63 * 4 + 7 * 256 + 0x800000), (Reg.shzLinkGroup 7, 5), (Reg.txnStatus 63, 0x1000 + st)]

/-- A message of the group. -/
def groupFlit (op : Nat) : Flit := { firstFlit 6 op 16 0 [] with tag := 5 }

theorem witness_linked :
    NextMessage (taken (linked 0 2) (groupFlit 0)) (groupFlit 0) ∧ Accepted (linked 0 2) (taken (linked 0 2) (groupFlit 0)) 1 (groupFlit 0) ∧
      (taken (linked 0 2) (groupFlit 0)).slotsOf false 5 = [7] ∧ (taken (linked 0 2) (groupFlit 0)).TxnsFit ∧
      Accepted (linked 2 2) (taken (linked 2 2) (groupFlit 1)) 1 (groupFlit 1) ∧
      Accepted (linked 2 1) (taken (linked 2 1) (groupFlit 2)) 1 (groupFlit 2) ∧
      (taken (linked 2 1) (groupFlit 2)).slotsUnder (groupFlit 2) = [7] ∧ slotTxn (linked 2 1) 7 = 63 ∧
      (taken (linked 2 1) (groupFlit 2)).txnState 63 = 1 ∧ (taken (linked 2 2) (groupFlit 2)).txnState 63 = 2 ∧
      Accepted (linked 0 2) (taken (linked 0 2) (groupFlit 3)) 1 (groupFlit 3) ∧
      (linked 0 2).leadReached 7 = true ∧ (put (linked 0 2) [(Reg.txnAtLo 63, 1)]).leadReached 7 = false ∧
      (linked 0 2).bit (Reg.shzLinkCfg 7) 0 = true ∧ (linked 0 2).bit (Reg.shzLinkCfg 7) 1 = false ∧
      (linked 0 2).fget (Reg.shzLinkStatus 7) 2 0 < 3 ∧ (linked 0 2).txnState 63 = 2 ∧ (linked 0 2).linkMissing 7 ≠ [] := by
  refine ⟨?_, accepted_of ?_, ?_, fits_of ?_, accepted_of ?_, accepted_of ?_, ?_, ?_, ?_, ?_, accepted_of ?_, ?_, ?_, ?_, ?_, ?_, ?_, ?_⟩ <;>
    first | decide +kernel | (unfold NextMessage ForThisNode; decide +kernel)

theorem test_link_abort :
    after (.shzLinkAbort 1 (groupFlit 2)) (linked 2 2) (fun t => decide (t.txnState 63 = 4 ∧ t.fget (Reg.txnStatus 63) 7 4 = 1)) = true := by
  decide +kernel

theorem witness_time_exchange :
    Accepted (node 0) (taken (node 0) (firstFlit 7 0 0 0 [])) 1 (firstFlit 7 0 0 0 []) ∧
      ((taken ((node 0).putShzPort 1 { ShzPort.down with t1 := some 100 }) (firstFlit 7 0 0 0 [])).shzPort 1).t1 = some 100 ∧
      (put (node 0) [(Reg.shzSyncCfg, 0x10001)]).bit Reg.shzSyncCfg 16 = true ∧ (node 0).portUp 1 = true ∧ (node 0).syncDue 1 = true ∧
      ((node 0).putShzPort 1 { ShzPort.down with synced := some 0 }).syncDue 1 = false := by
  refine ⟨accepted_of ?_, ?_, ?_, ?_, ?_, ?_⟩ <;> decide +kernel

/-- Stamps 100, 150, 160 and 190: the offset is 10 and the delay 40. -/
theorem test_time_exchange :
    after (.shzTime 1 (firstFlit 7 1 0 0 []) 190 (some (150, 160))) ((node 0).putShzPort 1 { ShzPort.down with t1 := some 100 })
      (fun t => decide (t.rget (Reg.shzPOffset 1) = 10 ∧ t.fget (Reg.shzPDelay 1) 15 0 = 40)) = true := by decide +kernel

/-- The flit of a control message. -/
def ctlFlit : Flit := firstFlit 8 0 0 0 []

/-- The head waits for its walk. -/
def enumWalk : State := { headNode with shz := { headNode.shz with walk := some [] } }

theorem witness_numbering :
    headNode.Takes .steward Reg.shzCtrl (1 ||| 2) ∧ bitOf (1 : Word) 0 = true ∧ bitOf (1 : Word) 2 = false ∧ headNode.isHead = true ∧
      headNode.portUp 0 = true ∧ (node 0).isHead = false ∧ (node 0).Takes .steward Reg.shzCtrl (1 ||| 2) ∧
      Accepted (node 8) (taken (node 8) ctlFlit) 1 ctlFlit ∧ (taken (node 8) ctlFlit).isHead = false ∧
      (taken (node 8) ctlFlit).portUp 0 = true ∧ Accepted enumWalk (taken enumWalk ctlFlit) 1 ctlFlit ∧ (taken enumWalk ctlFlit).isHead = true ∧
      (([⟨9, 1, true, true, none⟩] : List WalkEntry).head?.map fun e => e.uid) ≠ some (taken enumWalk ctlFlit).ownUid ∧
      (([⟨0, 1, true, true, none⟩] : List WalkEntry).head?.map fun e => e.uid) = some (taken enumWalk ctlFlit).ownUid ∧
      (taken enumWalk ctlFlit).shz.walk = some [] ∧ (taken enumWalk ctlFlit).shz.secondWalk = false ∧ (taken enumWalk ctlFlit).TxnsFit ∧
      (taken (node 8) ctlFlit).fget Reg.shzStatus 1 0 ≠ 3 ∧
      ([(0, 7)] : List (Nat × Nat)).find? (fun g => g.1 = (taken (node 8) ctlFlit).ownUid) = some ((taken (node 8) ctlFlit).ownUid, 7) ∧
      ([(1, 7)] : List (Nat × Nat)).find? (fun g => g.1 = (taken (node 8) ctlFlit).ownUid) = none ∧
      (taken { headNode with shz := { headNode.shz with holders := [(7, 5)] } } ctlFlit).numbered = true ∧
      (taken { headNode with shz := { headNode.shz with holders := [(7, 5)] } } ctlFlit).ownNode = 0 ∧
      (7, 5) ∈ (taken { headNode with shz := { headNode.shz with holders := [(7, 5)] } } ctlFlit).shz.holders := by
  refine ⟨takes ?_, ?_, ?_, ?_, ?_, ?_, takes ?_, accepted_of ?_, ?_, ?_, accepted_of ?_, ?_, ?_, ?_, ?_, ?_, fits_of ?_, ?_, ?_, ?_, ?_, ?_, ?_⟩ <;>
    decide +kernel

theorem test_assignment :
    after (.shzEnumAssign 1 ctlFlit ⟨[(9, 0), (0, 3)], true, [], 2⟩) (node 8)
      (fun t => decide (t.ownNode = 3 ∧ t.numbered = true ∧ t.fget Reg.shzNode 7 4 = 2)) = true := by decide +kernel

theorem test_enumeration_starts :
    after (.shzEnum .steward 1) headNode (fun t => decide ((t.shzPort 0).out.map (·.typ) = [8] ∧ t.shz.walk = some [])) = true := by
  decide +kernel

theorem witness_beacons :
    Accepted (node 1) (taken (node 1) ctlFlit) 1 ctlFlit ∧ (taken (node 1) ctlFlit).isHead = false ∧ headNode.isHead = true ∧
      headNode.numbered = true ∧ headNode.shz.beaconSent + 10 * beatsPerUs ≤ (headNode.set64 Reg.tmbBeatLo 1250).beat ∧
      headNode.beat < headNode.shz.beaconSent + 10 * beatsPerUs ∧ (node 1).numbered = true ∧ (node 1).ownNode ≠ 0 ∧
      (node 1).fget Reg.shzStatus 1 0 ≠ 3 ∧ ((put (node 1) [(Reg.shzCfg, 4)]).set64 Reg.tmbBeatLo 2500).beaconLate = true ∧ (node 1).TxnsFit ∧
      (node 1).beaconLate = false ∧ (put (node 1) [(Reg.shzCfg, 4)]).bit Reg.shzCfg 2 = true := by
  refine ⟨accepted_of ?_, ?_, ?_, ?_, ?_, ?_, ?_, ?_, ?_, ?_, fits_of ?_, ?_, ?_⟩ <;> decide +kernel

theorem test_isolation :
    after .shzIsolateExpiry (put ((node 1).set64 Reg.tmbBeatLo 2500) [(Reg.shzCfg, 4), (Reg.loopReg 127 0x84, 1)])
      (fun t => decide (t.fget Reg.shzStatus 1 0 = 3 ∧ t.loopState 127 = 2)) = true := by decide +kernel

/-- Node 1 leaves since beat 0, and holds a message. -/
def leaves : State :=
  ({ node 1 with shz := { (node 1).shz with leaving := some 0 } }).putShzPeer 7 { ShzPeer.fresh0 with held := [firstFlit 1 0 4 0 []] }

theorem witness_port_changes :
    up.TxnsFit ∧ up.mainOn = true ∧ up.shz.stayDown = false ∧ up.portUp 1 = false ∧ (up.shzPort 1).trained = none ∧
      ((up.putShzPort 1 { ShzPort.down with trained := some 0 }).shzPort 1).trained = some 0 ∧ up.beat < 0 + 1000 * beatsPerUs ∧
      (node 1).portUp 1 = true ∧ ((node 1).shzPort 1).replays < 8 ∧
      8 ≤ (((node 1).putShzPort 1 { ShzPort.down with replays := 8 }).shzPort 1).replays ∧ (node 1).TxnsFit ∧
      (node 1).Takes .steward Reg.shzCtrl (1 ||| 4) ∧ bitOf (1 : Word) 0 = true ∧ bitOf (1 : Word) 1 = false ∧
      (node 1).Takes .steward Reg.shzCtrl (1 &&& ~~~ 1) ∧ headNode.Takes .steward Reg.shzCtrl (1 &&& ~~~ 1) ∧ (node 1).isHead = false ∧
      headNode.isHead = true ∧ (node 1).shz.leaving = none ∧ leaves.shz.leaving = some 0 ∧ leaves.nothingHeld = false ∧
      leaves.beat < 0 + 1000 * beatsPerUs ∧ (node 1).nothingHeld = true := by
  refine ⟨fits_of ?_, ?_, ?_, ?_, ?_, ?_, ?_, ?_, ?_, ?_, fits_of ?_, takes ?_, ?_, ?_, takes ?_, takes ?_, ?_, ?_, ?_, ?_, ?_, ?_, ?_⟩ <;>
    decide +kernel

theorem test_port_down :
    after (.shzPortDown 1 true) (node 1) (fun t => decide (t.portUp 1 = false ∧ t.rget (Reg.shzPDownCount 1) = 1)) = true := by
  decide +kernel

theorem test_leave :
    after (.shzCtrlLeave .steward 1) (node 1) (fun t => decide (t.shz.leaving = some 0)) = true ∧
      after .shzLeavePortsDown (leaves.set64 Reg.tmbBeatLo 125000) (fun t => decide (t.portUp 0 = false ∧ t.shz.leaving = none)) = true := by
  decide +kernel

/-- The published check value of the CRC with this polynomial and initial value: the digits 1 to 9 in ASCII. -/
theorem test_crc24 : crc24 [0x31, 0x32, 0x33, 0x34, 0x35, 0x36, 0x37, 0x38, 0x39] = 0x21CF02 := by decide +kernel

/-! ### Reset, power and temperature -/

/-- Every rail is good, 10 ms after the last came back, in main reset. -/
def mayEnd : State := (put State.reset [(Reg.sysRailStatus, 255)]).set64 Reg.tmbBeatLo (10 * beatsPerMs)

/-- The Steward runs, with a reading of 110 °C at sensor 20 and a throttle point of 90 °C. -/
def warm : State := put up [(Reg.stwStatus, 2), (Reg.sysThermCfg, 0x0002735A), (Reg.sysTemp 20, 0x80000370)]

theorem witness_resets :
    up.mainOn = true ∧ up.TxnsFit ∧ up.memPending = [] ∧ up.cin.command = false ∧ commands.cin.command = true ∧
      commands.loopState 127 = 1 ∧ (put up [(Reg.sysTemp 16, 0x80000398)]).anyAt 17 (put up [(Reg.sysTemp 16, 0x80000398)]).tripC = true ∧
      up.anyAt 17 up.tripC = false ∧ up.Takes .steward Reg.sysReset (toWord (1 + 65536 * 0xA5C3)) ∧
      mainAddress Reg.hidCtrl = true ∧ regionOf 0x40000000 = .reflexSram := by
  refine ⟨?_, fits_of ?_, ?_, ?_, ?_, ?_, ?_, ?_, takes ?_, ?_, ?_⟩ <;> decide +kernel

theorem test_external_reset :
    after .resetNAssert (put up [(Reg.hidCtrl, 0), (Reg.loopReg 127 0x18, 5)])
      (fun t => decide (t.mainOn = false ∧ t.bit Reg.sysResetCause 1 = true ∧ t.rget (Reg.loopReg 127 0x18) = 5)) = true := by
  decide +kernel

theorem test_power_fault :
    after (.powerFault 7 false) up (fun t => decide (t.fget Reg.sysRailStatus 11 8 = 8 ∧ t.bit Reg.cinFault 20 = true)) = true := by
  decide +kernel

theorem test_reset_asked :
    after (.sysResetMain .steward 0xA5C3) up (fun t => decide (t.pwr.asked = [(1, 6)])) = true ∧
      after (.sysResetMain .steward 0xA5C4) up (fun t => decide (t.pwr.asked = [])) = true := by decide +kernel

theorem witness_main_reset_end :
    up.resetMayEnd = false ∧ mayEnd.resetMayEnd = true ∧ mayEnd.bit Reg.qdrPubCfg 2 = false ∧
      (∀ p < 8, bitsOf (mayEnd.readNat (reflexBase + mayEnd.fget (Reg.ssuPDesc p) 22 6 * 64 + 0x30) 4) 15 15 = 0) ∧
      mayEnd.bit Reg.sysRailStatus 7 = true ∧ (put up [(Reg.sysRailStatus, 0x7F)]).bit Reg.sysRailStatus 7 = false := by decide +kernel

theorem test_main_reset_ends :
    after (.mainResetEnd false) mayEnd (fun t => decide (t.mainOn = true ∧ t.stw.toBoot = true)) = true := by decide +kernel

theorem test_rails_are_good_again :
    after (.railBackInTolerance 7) { put up [(Reg.sysRailStatus, 0x7F)] with cin := { Cinch.boot with vinLost := true } }
      (fun t => decide (t.railsGood = true ∧ t.cin.vinLost = false)) = true := by decide +kernel

theorem witness_power :
    up.Takes .steward Reg.stwPower (toWord (4 % 8)) ∧ up.Takes .steward Reg.stwPower (toWord (5 % 8)) ∧ warm.stewardActs = true ∧
      up.stewardActs = false ∧ up.fget Reg.stwPower 2 0 < 4 ∧ (put up [(Reg.stwPower, 4)]).fget Reg.stwPower 2 0 = 4 ∧
      State.reset.mainOn = false ∧ 600 < ({ warm with pwr := { warm.pwr with capTen := 900 } } : State).pwr.capTen ∧
      600 < (put warm [(Reg.stwPower, 1000 * 65536)]).fget Reg.stwPower 26 16 ∧
      0 < min ({ warm with pwr := { warm.pwr with capApp := 900 } } : State).pwr.capApp warm.pwr.thermApp ∧
      ({ warm with pwr := { warm.pwr with stepBeat := some 0 } } : State).beat < 0 + beatsPerMs ∧ warm.pwr.stepBeat = none ∧
      warm.hot = true ∧ (put warm [(Reg.sysTemp 20, 0x80000000)]).hot = false ∧ (put warm [(Reg.sysTemp 20, 0x80000000)]).cooled = true ∧
      (put warm [(Reg.sysTemp 20, 0x800002C8)]).hot = false ∧ (put warm [(Reg.sysTemp 20, 0x800002C8)]).cooled = false := by
  refine ⟨takes ?_, takes ?_, ?_, ?_, ?_, ?_, ?_, ?_, ?_, ?_, ?_, ?_, ?_, ?_, ?_, ?_, ?_⟩ <;> decide +kernel

theorem test_throttle_step :
    after .thermalThrottleStep { warm with pwr := { warm.pwr with capTen := 1500 } }
      (fun t => decide (t.pwr.thermTen = 1400)) = true := by decide +kernel

theorem test_power_cap_5_is_ignored :
    after (.powerCapSelect .steward 5) up (fun t => decide (t.rget Reg.stwPower = up.rget Reg.stwPower)) = true := by decide +kernel

/-! ### The Steward -/

/-- A section table entry, and a header for `n` entries. -/
def entryWords (typ slot off len crc : Nat) : List Nat := [typ + 256 * slot, off, len, 0, 0, crc] ++ List.replicate 26 0
def headerWords (len n crc : Nat) : List Nat := [0x4339424C, 1, len, n] ++ List.replicate 59 0 ++ [crc]

/-- An unsigned package with Steward firmware of one word, and an unsigned image with that, one configuration record and a
cluster program of one word. Their CRCs are those of another program, which gives the published check value 0xE3069283. -/
def package : List Byte := words (headerWords 0x184 1 0xF4E7E953 ++ entryWords 1 0 0x180 4 0x29308CF4 ++ [0x04030201])
def bootable : List Byte :=
  words (headerWords 0x290 3 0xC3E86FFC ++ entryWords 1 0 0x280 4 0x29308CF4 ++ entryWords 7 2 0x284 8 0xA56566F2 ++
    entryWords 8 2 0x28C 4 0xC32173C3 ++ [0x04030201, 0x10400034, 0, 0x13])

/-- The Steward acts, with these arguments, and the package lies in Tier B. -/
def steward (a0 a1 : Word) : State :=
  put (memUp.writeBytes tierB0 package) [(Reg.stwStatus, 2), (Reg.stwArg0, a0), (Reg.stwArg1, a1), (Reg.stwPkgHi, 0x100)]

theorem free_of {s : State} {who : Initiator} {op cls index : Nat}
    (h : s.Takes who Reg.stwCmd (toWord (op + 256 * (cls % 16) + 4096 * (index % 16))))
    (h2 : (s.stewardActs && !s.bit Reg.stwCmdStatus 0) = true) : StewardFree s who op cls index := by
  simp only [Bool.and_eq_true, Bool.not_eq_true'] at h2
  exact ⟨h, h2.1, h2.2⟩

set_option maxRecDepth 100000 in
theorem witness_package :
    (steward 0 0).imageCode package true = 0 ∧ (∀ y ∈ sectionsOf package, sectionClass y.typ = 0) ∧
      ((sectionsOf package).find? (fun y => y.typ ≠ 5)).isSome = true ∧
      (steward 0 0).readBytes (stwPkg (steward 0 0)) (max 0x100 (imageLen package)) = package := by decide +kernel

theorem witness_steward_load :
    StewardFree (steward 0 0) .cinch 1 0 0 ∧ instanceOf (0 % 16) (0 % 16) = some 0 ∧ pkgOk (steward 0 0) ∧
      (steward 0 0).Clean (stwPkg (steward 0 0)) (max 0x100 (imageLen package)) ∧
      (steward 0 0).readable (stwPkg (steward 0 0)) = true ∧ (steward 0 0).readable (stwPkg (steward 0 0) + 0xFF) = true ∧
      (steward 0 0).readable (stwPkg (steward 0 0) + (max 0x100 (imageLen package) - 1)) = true ∧
      imageLen (package.take 0x100) = imageLen package ∧ imageLen package ≤ 33554432 ∧ instanceOf (5 % 16) (0 % 16) = none ∧
      isTrusted .cinch = true ∧ isTrusted (.app 0) = false := by
  refine ⟨free_of (takes ?_) ?_, ?_, ?_, clean_of ?_, ?_, ?_, ?_, ?_, ?_, ?_, ?_, ?_⟩ <;>
    first | decide +kernel | (unfold pkgOk; decide +kernel)

set_option maxRecDepth 100000 in
theorem test_load :
    after (.stwLoad .cinch 0 0) (steward 0 0)
      (fun t => decide ((t.pendingFw 0).map (·.image) = some [1, 2, 3, 4] ∧ (t.stw.cmd.map (·.code)) = some (some 0))) = true := by
  decide +kernel

/-- Firmware is pending for instance i. -/
def pendingFor (i : Nat) : State := { steward 1 0 with stw := { (steward 1 0).stw with waiting := [(i, ⟨[1], 2, 0, 0⟩)] } }

/-- The fuses were unlocked in this beat. -/
def unlocked : State := { steward 0 1 with stw := { (steward 0 1).stw with unlock := some 0 } }

theorem witness_steward_commands :
    StewardFree (pendingFor 0) .cinch 2 0 0 ∧ (pendingFor 0).pendingFw 0 = some ⟨[1], 2, 0, 0⟩ ∧ (steward 0 0).pendingFw 0 = none ∧
      instanceOf (1 % 16) (1 % 16) = some 2 ∧ (pendingFor 2).ringState 1 = 0 ∧ (put (pendingFor 2) [(Reg.calRingStatus 1, 1)]).ringState 1 = 1 ∧
      StewardFree (pendingFor 2) .cinch 2 1 1 ∧ instanceOf (2 % 16) (3 % 16) = some 6 ∧ StewardFree (pendingFor 6) .cinch 2 2 3 ∧
      (put (pendingFor 6) [(Reg.stwRfxYield, 8)]).bit Reg.stwRfxYield 3 = true ∧ StewardFree (steward 1 0) .cinch 3 4 0 ∧
      StewardFree (steward 0 0) (.app 0) 1 3 0 ∧ StewardFree (steward 0 0) .cinch 7 1 1 ∧ (steward 0 0).ten.run = none ∧
      StewardFree unlocked .cinch 8 0 0 ∧ (∀ b, unlocked.stw.unlock = some b → b ≤ unlocked.beat ∧ unlocked.beat ≤ b + beatsPerMs) ∧
      (steward 0 0).stw.unlock = none ∧ ((steward 0 1).rget Reg.cfgSecVer).toNat < stwArg1 (steward 0 1) := by
  refine ⟨free_of (takes ?_) ?_, ?_, ?_, ?_, ?_, ?_, free_of (takes ?_) ?_, ?_, free_of (takes ?_) ?_, ?_, free_of (takes ?_) ?_,
    free_of (takes ?_) ?_, free_of (takes ?_) ?_, ?_, free_of (takes ?_) ?_, ?_, ?_, ?_⟩ <;> decide +kernel

theorem test_activate :
    after (.stwActivate .cinch 0 0) (pendingFor 0) (fun t => decide ((t.firmware 0).map (·.version) = some 2 ∧ t.bit Reg.stwStatus 3 = true)) =
      true := by decide +kernel

theorem test_set_boot :
    after (.stwSetBoot .cinch 4) (steward 1 0) (fun t => decide (t.bit Reg.cfgBootSel 4 = true)) = true := by decide +kernel

/-- The flash commands may act below 64 MiB. -/
theorem allowed_of {s : State} {a n : Nat} (hb : s.bootRegion = none) (hn : 0 < n) (h : a + n ≤ 0x4000000) :
    s.flashAllowed a n = true := by
  unfold State.flashAllowed flashSize
  rw [hb]
  simp only [Bool.and_true, decide_eq_true_eq]
  omega

theorem not_allowed_of (s : State) (a : Nat) : s.flashAllowed a 0 = false := by simp [State.flashAllowed]

theorem witness_flash :
    StewardFree (steward 0 0x10000) .cinch 4 0 0 ∧ (steward 0 0x10000).flashAllowed 0 0x10000 = true ∧
      (steward 0x3FFFF00 0x100).flashAllowed 0x3FFFF00 0x100 = true ∧ (steward 0 0).flashAllowed 0 0 = false ∧
      StewardFree (steward 0 4) .cinch 5 0 0 ∧ pkgOk (steward 0 4) ∧ (steward 0 4).Clean (stwPkg (steward 0 4)) 4 ∧
      (steward 0 4).readable (stwPkg (steward 0 4)) = true ∧ (steward 0 4).readable (stwPkg (steward 0 4) + (4 - 1)) = true ∧
      ¬ pkgOk (put (steward 0 4) [(Reg.stwPkgLo, 4)]) ∧ StewardFree (steward 0 0) .cinch 6 0 0 ∧
      StewardFree (steward 0x2000000 0) .cinch 6 0 0 ∧ (steward 4 0).flash = Flash.erased := by
  refine ⟨free_of (takes ?_) ?_, allowed_of ?_ ?_ ?_, allowed_of ?_ ?_ ?_, not_allowed_of _ _, free_of (takes ?_) ?_, ?_, clean_of ?_, ?_, ?_, ?_,
    free_of (takes ?_) ?_, free_of (takes ?_) ?_, ?_⟩ <;>
    first | decide +kernel | (unfold pkgOk; decide +kernel)

/-- Programming clears bits only. -/
theorem test_flash_program :
    ((⟨[(1, 0xF0)], [], []⟩ : Flash).program 0 [0x0F, 0x3C]).byte 1 = 0x30 := by decide +kernel

/-- A command that has been carried out, or waits. -/
def commanded (op : Nat) (code : Option Nat) (beat : Nat) : State :=
  ({ put (steward 0 0) [(Reg.stwCmdStatus, 1)] with
    stw := { (steward 0 0).stw with cmd := some ⟨op, 2, 0, 7, 0, 0, true, 0, code⟩ } }).set64 Reg.tmbBeatLo beat

theorem witness_steward_ends :
    (commanded 4 (some 10) 0).stw.cmd.isSome = true ∧ (commanded 4 (some 10) 0).stw.queue = [] ∧
      0x10 ∉ (commanded 4 (some 10) 0).tlg.halted ∧ (commanded 4 (some 10) 0).mainOn = true ∧ up.stw.cmd = none ∧
      (commanded 7 none 0).stewardActs = true ∧ (commanded 7 none (7 * beatsPerMs)).beat ≤ 0 + 7 * beatsPerMs ∧
      0 + 7 * beatsPerMs < (commanded 7 none (7 * beatsPerMs + 1)).beat ∧ 0 + tenMs < (commanded 2 none (tenMs + 1)).beat ∧
      up.Takes (.reflex 3) Reg.stwRfxYield 8 ∧ up.Takes .steward Reg.cfgFuseUnlock 0xF05E ∧
      (commanded 4 none 0).Takes .cinch Reg.stwCmd (toWord (1 + 256 * (0 % 16) + 4096 * (0 % 16))) ∧
      (commanded 4 none 0).bit Reg.stwStatus 3 = false ∧ (commanded 4 none 0).bit Reg.stwCmdStatus 0 = true := by
  refine ⟨?_, ?_, ?_, ?_, ?_, ?_, ?_, ?_, ?_, takes ?_, takes ?_, takes ?_, ?_, ?_⟩ <;> decide +kernel

theorem test_command_done :
    after (.stwCommandDone false) (commanded 4 (some 10) 0)
      (fun t => decide (t.fget Reg.stwCmdStatus 15 0 = 0x4A2 ∧ t.stw.cmd = none)) = true := by decide +kernel

theorem test_second_command_is_refused :
    after (.stwLoad .cinch 0 0) (commanded 4 none 0) (fun t => decide (t.fget Reg.stwCmdStatus 7 4 = 1)) = true := by decide +kernel

theorem test_yield_is_ones_own :
    after (.rfxYieldWrite (.reflex 3) 0xF) up (fun t => decide (t.rget Reg.stwRfxYield = 8)) = true := by decide +kernel

/-- The cells of a flash that holds these bytes from address k on. -/
def cellsOf (l : List Byte) (k : Nat) : List (Nat × Byte) := ((l.zipIdx k).filter fun p => p.1 ≠ 0xFF).map fun p => (p.2, p.1)

/-- The Steward has left reset, and the flash holds the image in region 0. -/
def boots : State :=
  { (put up [(Reg.trbStatus, 0)]).set64 Reg.tmbBeatLo (50 * beatsPerUs) with
    pwr := { up.pwr with endBeat := some 0 }, stw := { Steward.idle with toBoot := true }
    flash := ⟨cellsOf bootable 0, [], []⟩ }

/-- A list of sections of which none can fail the image streams without a failure. -/
theorem stream_done {img : List Byte} {secs : List Section} :
    ∀ (xs : List Section), (∀ x ∈ xs, ∀ (last : Bool) (s : State), (s.streamSection img secs x last).2 = 0) →
      ∀ s : State, (s.streamSections img secs xs).2 = 0 := by
  intro xs
  induction xs with
  | nil => exact fun _ _ => rfl
  | cons x xs ih =>
    intro h s
    unfold State.streamSections
    have hx := h x (.head _) (!xs.any fun y => y.typ = 1) s
    split
    · exact ih (fun y hy => h y (.tail _ hy)) _
    · rename_i r hr
      exact hx

/-- The sections of the image. -/
def bootSections : List Section := sectionsOf bootable

theorem cells_below (d : Nat → Byte) : ∀ (l : List Byte) (k a : Nat), a < k → spGet d (cellsOf l k) a = d a
  | [], _, _, _ => rfl
  | b :: l, k, a, h => by
    have ih := cells_below d l (k + 1) a (by omega)
    unfold cellsOf at ih ⊢
    rw [List.zipIdx_cons]
    by_cases hb : b = 0xFF
    · simpa [hb] using ih
    · rw [List.filter_cons_of_pos (by simpa using hb)]
      simpa [spGet, show k ≠ a by omega] using ih

theorem cells_read (d : Nat → Byte) : ∀ (l : List Byte) (k i : Nat) (h : i < l.length), d (k + i) = 0xFF →
    spGet d (cellsOf l k) (k + i) = l[i]
  | b :: l, k, 0, _, hd => by
    have ih := cells_below d l (k + 1) k (by omega)
    unfold cellsOf at ih ⊢
    rw [List.zipIdx_cons]
    by_cases hb : b = 0xFF
    · simpa [hb, hd] using ih.trans hd
    · rw [List.filter_cons_of_pos (by simpa using hb)]
      simp [spGet]
  | b :: l, k, i + 1, h, hd => by
    have ih := cells_read d l (k + 1) i (by simpa using h) (by rw [← hd]; congr 1; omega)
    rw [show k + 1 + i = k + (i + 1) by omega] at ih
    unfold cellsOf at ih ⊢
    rw [List.zipIdx_cons]
    by_cases hb : b = 0xFF
    · simpa [hb] using ih
    · rw [List.filter_cons_of_pos (by simpa using hb)]
      simpa [spGet, show k ≠ k + (i + 1) by omega] using ih

theorem flash_bytes (l : List Byte) (n : Nat) (h : n ≤ l.length) : (⟨cellsOf l 0, [], []⟩ : Flash).bytes 0 n = l.take n := by
  refine List.ext_getElem (by simp [Flash.bytes, h]) fun i h1 h2 => ?_
  simp only [Flash.bytes, List.length_map, List.length_range] at h1
  simp only [Flash.bytes, List.getElem_map, List.getElem_range, List.getElem_take]
  exact cells_read _ l 0 i (by omega) rfl

set_option maxRecDepth 100000 in
theorem boot_image : boots.flash.image (0x2000000 * 0) = bootable := by
  have hl : bootable.length = 0x290 := by decide +kernel
  have hn : imageLen (bootable.take 0x100) = 0x290 := by decide +kernel
  show (⟨cellsOf bootable 0, [], []⟩ : Flash).image 0 = bootable
  unfold Flash.image
  rw [flash_bytes bootable 0x100 (by omega), hn]
  simp only [show (0x290 : Nat) ≤ 33554432 by decide, if_true, show max 0x100 0x290 = 0x290 by decide]
  rw [flash_bytes bootable 0x290 (by omega), List.take_of_length_le (by omega)]

set_option maxRecDepth 100000 in
theorem boot_facts :
    tableCode bootable false = 0 ∧ descField bootable 4 8 8 = 0 ∧
      bootSections.map (·.typ) = [1, 7, 8] ∧ slotLoads bootable bootSections 0 0 = true ∧
      (bootSections.map fun x => recordsOf (sectionBytes bootable x)) = [[], [(0x10400034, 0)], []] ∧
      bootSections.all (sectionOk bootable) = true ∧ inBlock 0x10400034 = true := by decide +kernel

/-- Neither the records nor the cluster program of the image fail it. -/
theorem boot_section (x : Section) (hx : x ∈ bootSections) (last : Bool) (s : State) :
    (s.streamSection bootable bootSections x last).2 = 0 := by
  obtain ⟨-, -, -, hl, hr, hk, hb⟩ := boot_facts
  have hok : sectionOk bootable x = true := List.all_eq_true.mp hk x hx
  have hrec (r : List (Nat × Nat)) (hr : r = [] ∨ r = [(0x10400034, 0)]) (s : State) : (s.applyRecords r).2 = true := by
    rcases hr with rfl | rfl
    · rfl
    · simp only [State.applyRecords, hb, Bool.not_true, Bool.false_eq_true, if_false]
      split <;> rfl
  have hmem : recordsOf (sectionBytes bootable x) ∈ bootSections.map fun x => recordsOf (sectionBytes bootable x) :=
    List.mem_map_of_mem hx
  rw [hr] at hmem
  unfold State.streamSection
  split
  · rw [show (s.applyRecords (recordsOf (sectionBytes bootable x))) =
      ((s.applyRecords (recordsOf (sectionBytes bootable x))).1, true) from Prod.ext rfl (hrec _ (by rcases (by simpa using hmem : _ ∨ _ ∨ _) with h | h | h <;> simp [h]) s)]
    simp [hok]
  · split
    · simp
    · simp [hl]

/-- What the Steward makes of the image does not depend on the rest of the state. -/
theorem boot_code {s : State} (hi : s.flash.image (0x2000000 * 0) = bootable) (hf : s.fuses.secureBoot = false)
    (hs : s.bit Reg.cfgStatus 6 = false) : (s.bootImage 0 false).2 = 0 := by
  have hsig : s.signatureCode bootable = 0 := by
    unfold State.signatureCode State.secure
    rw [if_pos boot_facts.2.1, hf, hs]
    rfl
  unfold State.bootImage
  rw [hi]
  simp only [boot_facts.1, hsig, Bool.false_eq_true, if_false, ne_eq, not_true_eq_false]
  have h := stream_done bootSections boot_section (s.startTraining bootable)
  rw [show sectionsOf bootable = bootSections from rfl]
  generalize State.streamSections _ bootable bootSections bootSections = r at h
  rcases r with ⟨t, c⟩
  cases h
  rfl

theorem bootClocks_flash (s : State) : s.bootClocks.flash = s.flash := rfl
theorem bootClocks_fuses (s : State) : s.bootClocks.fuses = s.fuses := rfl
theorem bootClocks_status (s : State) (i : Nat) : s.bootClocks.bit Reg.cfgStatus i = s.bit Reg.cfgStatus i := by
  unfold State.bit State.bootClocks State.withPwr State.fset
  rw [show ∀ (t : State) (p : Power), ({ t with pwr := p } : State).rget Reg.cfgStatus = t.rget Reg.cfgStatus from fun _ _ => rfl,
    State.rget_rset_ne _ _ (by decide)]
  rfl

theorem witness_boot :
    up.stewardOut = false ∧ boots.stewardOut = true ∧ boots.stw.toBoot = true ∧
      (((boots.fset Reg.stwStatus 1 0 1).bootClocks).bootImage 0 false).2 = 0 := by
  refine ⟨by decide +kernel, by decide +kernel, by decide +kernel, boot_code ?_ ?_ ?_⟩
  · rw [bootClocks_flash]; exact boot_image
  · rw [bootClocks_fuses]; decide +kernel
  · rw [bootClocks_status]; decide +kernel

theorem test_no_image_passes :
    after (.stewardBoot true true) boots (fun t => decide (t.stw.bootHart = none ∧ t.stw.toBoot = false)) = true := by
  decide +kernel

/-! ### Tooling -/

/-- The Caller 0x18 is halted and holds 5 in x3. -/
def halted : State := { memUp with tlg := { memUp.tlg with halted := [0x18], written := [(0x18, .gpr 3, 5)] } }

/-- DEBUG_LOCK is blown, and debug access is not open. -/
def locked : State := { up with fuses := { up.fuses with debugLock := true } }

theorem witness_test_port :
    up.fuses.debugLock = false ∧ locked.fuses.debugLock = true ∧ (up.tapScan (.reset false)).tlg.tap.ir = .idcode := by
  decide +kernel

theorem test_locked_port :
    (locked.tapScan (.ir .extest)).tlg.tap.ir = .bypass ∧ (locked.tapScan (.ir .dmi)).tlg.tap.ir = .dmi ∧
      (up.tapScan (.ir .extest)).tlg.tap.ir = .extest := by decide +kernel

theorem test_idcode :
    (up.tapScans [.reset true, .dr 0]).tlg.tap.out = 0x00960A3D := by decide +kernel

theorem witness_debug :
    locked.debugOpen = false ∧ up.debugOpen = true ∧ (up.tapScans [.ir .idcode]).tlg.tap.ir ≠ .dmi ∧
      (halted.tapScans [.ir .dmi]).tlg.tap.ir = .dmi ∧ 0x18 ∈ harts ∧ 0x18 ∉ up.tlg.halted ∧ 0x18 ∈ halted.tlg.halted ∧
      (up.flag Reg.tlgEngCtrl 1).bit Reg.tlgEngCtrl 1 = true ∧ hasReg 0x18 (.vec 0) = false ∧ hasReg 0x18 (.gpr 31) = true ∧
      inMemory tierB0 ∧ (.gpr 3 : HartReg) ≠ .gpr 0 := by
  unfold inMemory
  decide +kernel

theorem test_halt_request :
    after (.debugHaltRequest [.ir .dmi] 0x19 none) up (fun t => decide (t.tlg.halted = [0x19])) = true := by decide +kernel

theorem test_register_of_a_halted_hart :
    after (.debugAccessRegister [.ir .dmi] 0x18 (.gpr 3) none) halted (fun t => decide (t.tlg.data = 5 ∧ t.tlg.cmderr = 0)) = true := by
  decide +kernel

theorem test_register_of_a_running_hart :
    after (.debugAccessRegister [.ir .dmi] 0x19 (.gpr 3) none) halted (fun t => decide (t.tlg.cmderr = 4)) = true := by decide +kernel

theorem test_program_buffer_loads :
    after (.debugProgbufExec [.ir .dmi] 0x18 [.load tierB0 2]) (halted.writeBytes tierB0 [7, 1])
      (fun t => decide (t.resp = .data 0x107 ∧ t.tlg.cmderr = 0)) = true := by decide +kernel

/-- A load that the hart may make, and one of a word that no pocket holds. -/
theorem witness_debug_access :
    after (.processorLoad (initOf 0x18) tierB0 4 []) (halted.tapScans [.ir .dmi]) (fun t => decide (t.resp ≠ .accessFault)) = true ∧
      after (.processorLoad (initOf 0x18) tierA0 4 []) ((halted.rset (Reg.canPocketActiveN 0) 0).tapScans [.ir .dmi])
        (fun t => decide (t.resp = .accessFault)) = true := by decide +kernel

/-- Sampling runs in its beat, and its ring in Tier B has room. -/
def sampling : State := put memUp [(Reg.tlgSmpCfg, 1), (Reg.tlgSmpBaseHi, 0x100), (Reg.tlgSmpSize, 1)]

theorem witness_tooling :
    up.Takes .steward Reg.tlgAuth 1 ∧ up.Takes .steward Reg.tlgEngCtrl 1 ∧ up.ten.run = none ∧ up.ten.goldRun = none ∧
      up.Takes .steward (Reg.tlgObpStatus 3) 1 ∧ up.Takes .steward (Reg.tlgCntSel 511) 0x3F0003 ∧
      selValid 0x3F0003 = true ∧ selValid 0x0C0003 = false ∧ up.Takes .steward (Reg.tlgCntSel 511) 0x0C0003 ∧
      up.Takes .steward Reg.tlgCntClr 1 ∧ up.bit Reg.tlgSmpCfg 0 = false := by
  refine ⟨takes ?_, takes ?_, ?_, ?_, takes ?_, takes ?_, ?_, ?_, takes ?_, takes ?_, ?_⟩ <;> decide +kernel

theorem witness_sample :
    sampling.mainOn = true ∧ sampling.bit Reg.tlgSmpCfg 0 = true ∧
      sampling.beat % max 1 (sampling.fget Reg.tlgSmpInterval 26 0) = sampling.fget Reg.tlgSmpPhase 26 0 ∧
      ringRoom (sampling.rget Reg.tlgSmpWr).toNat (sampling.rget Reg.tlgSmpRd).toNat 4096 (sampling.stampRecord 1).length
        (sampling.bit Reg.tlgSmpCfg 1) = some 0 ∧
      (sampling.rget Reg.tlgSmpBaseLo).toNat / 4096 * 4096 + 2 ^ 32 * sampling.fget Reg.tlgSmpBaseHi 15 0 = tierB0 ∧
      regionOf tierB0 = .tierB ∧ sampling.longDenied .tooling tierB0 (sampling.stampRecord 1).length = none ∧
      sampling.Clean tierB0 (sampling.stampRecord 1).length :=
  ⟨by decide +kernel, by decide +kernel, by decide +kernel, by decide +kernel, by decide +kernel, by decide +kernel, by decide +kernel,
    clean_of (by decide +kernel)⟩

theorem test_sample_is_stamped :
    after .tlgSample { sampling with tlg := { sampling.tlg with smpSeq := 9 } }
      (fun t => decide (t.readByte tierB0 = 9 ∧ t.readByte (tierB0 + 4) = 1 ∧ t.rget Reg.tlgSmpWr = 128)) = true := by decide +kernel

theorem test_selection_that_is_not_listed :
    after (.tlgCntSelWrite .steward 511 0x0C0003) up (fun t => decide (t.bit Reg.tlgStatus 6 = true)) = true := by decide +kernel

/-! ### PCIe -/

/-- The controller runs with two ports, and aperture 3 of port 1 holds the first 4 KiB of Tier B. -/
def hosted : State :=
  put memUp [(Reg.pciCtrl, 1), (Reg.pciCfg, 1), (Reg.pciInwCtrl 1 3, 1), (Reg.pciInwBaseHi 1 3, 0x100), (Reg.pciInwSize 1 3, 1)]

theorem witness_inbound :
    hosted.mainOn = true ∧ [(1 : Byte), 2] ≠ [] ∧ hosted.inAperture 1 (tierB0 + 4094) 2 = true ∧
      hosted.longDenied .pcie (tierB0 + 4094) 2 = none ∧ hosted.Clean (tierB0 + 4094) 2 ∧
      hosted.inAperture 1 (tierB0 + 4095) 2 = false ∧ hosted.inAperture 0 tierB0 2 = false ∧
      hosted.readable (tierB0 + 4094) = true ∧ hosted.readable (tierB0 + 4094 + (2 - 1)) = true ∧ hosted.fget (Reg.pciPMsi 1) 3 0 < 12 :=
  ⟨by decide +kernel, by decide +kernel, by decide +kernel, by decide +kernel, clean_of (by decide +kernel), by decide +kernel,
    by decide +kernel, by decide +kernel, by decide +kernel, by decide +kernel⟩

/-- Whatever the number of identities of an interrupt file between these bounds: 1 is one of them, and 2³² − 1 is none. -/
theorem witness_msi (h : 0 < Config.imsicIdentities) (h' : Config.imsicIdentities < 0xFFFFFFFF) :
    (∃ v, v < 2 ^ 32 ∧ 0 < v ∧ v ≤ Config.imsicIdentities) ∧ ∃ v, v < 2 ^ 32 ∧ Config.imsicIdentities < v :=
  ⟨⟨1, by decide, by decide, h⟩, ⟨0xFFFFFFFF, by decide, h'⟩⟩

theorem test_inbound_write :
    after (.pcieInboundWrite 1 (tierB0 + 4094) [1, 2] []) hosted (fun t => decide (t.readBytes (tierB0 + 4094) 2 = [1, 2])) = true := by
  decide +kernel

theorem test_inbound_read_outside :
    after (.pcieInboundRead 1 (tierB0 + 4095) 2 []) hosted
      (fun t => decide (t.resp = .unsupported ∧ t.rget (Reg.pciPUrCount 1) = 1)) = true := by decide +kernel

/-- A memory read (tag 0), a configuration read (1) and a configuration write (2) of port 0 wait. -/
def waits : State :=
  { hosted with pcie := { hosted.pcie with reqs := [⟨0, 0, .memRead, 0x400000000000, 4, 0⟩, ⟨0, 1, .cfgRead, 0, 4, 0⟩,
    ⟨0, 2, .cfgWrite, 0, 4, 0⟩] } }

theorem witness_requests :
    waits.requestOf 0 0 = some ⟨0, 0, .memRead, 0x400000000000, 4, 0⟩ ∧ waits.requestOf 0 1 = some ⟨0, 1, .cfgRead, 0, 4, 0⟩ ∧
      waits.requestOf 0 2 = some ⟨0, 2, .cfgWrite, 0, 4, 0⟩ ∧ waits.requestOf 1 0 = none ∧
      waits.beat < 0 + 50 * beatsPerMs ∧ 0 + 50 * beatsPerMs ≤ (waits.set64 Reg.tmbBeatLo 6250000).beat ∧
      waits.mainOn = true := by decide +kernel

theorem test_completion :
    after (.pcieCompletion 0 0 .success 0x123456789) waits (fun t => decide (t.resp = .data 0x23456789)) = true := by decide +kernel

theorem test_no_function :
    after (.pcieCompletion 0 1 .unsupported 5) waits (fun t => decide (t.resp = .data 0xFFFFFFFF)) = true := by decide +kernel

theorem test_completion_timeout :
    after (.pcieCompletionTimeout 0 0) (waits.set64 Reg.tmbBeatLo 6250000)
      (fun t => decide (t.resp = .accessFault ∧ t.rget (Reg.pciPTimeoutCount 0) = 1 ∧ t.pcie.reqs.length = 2)) = true := by decide +kernel

theorem witness_links :
    hosted.mainOn = true ∧ hosted.bit Reg.pciCtrl 0 = true ∧ hosted.portExists 0 = true ∧ hosted.portExists 1 = true ∧
      hosted.linkIsUp 0 = false ∧ (waits.rset (Reg.pciPLink 0) 0x47).linkIsUp 0 = true ∧ (∃ r ∈ waits.pcie.reqs, r.port = 0) ∧
      hosted.Takes .steward (Reg.pciPCtrl 1) (0x10 ||| 2) ∧ hosted.Takes .steward (Reg.pciPCtrl 1) 1 ∧
      hosted.fget (Reg.pciPCtrl 1) 4 2 = 5 ∧ hosted.bifurcated = true ∧ (memUp.bput Reg.pciCtrl 0 false).bit Reg.pciCtrl 0 = false := by
  refine ⟨?_, ?_, ?_, ?_, ?_, ?_, ⟨_, List.mem_cons_self, rfl⟩, takes ?_, takes ?_, ?_, ?_, ?_⟩ <;> decide +kernel

theorem test_link_up :
    after (.pcieLinkUp 1 7 8) hosted
      (fun t => decide (t.fget (Reg.pciPLink 1) 3 1 = 5 ∧ t.fget (Reg.pciPLink 1) 7 4 = 4 ∧ t.bit Reg.pciStatus 2 = true)) = true := by
  decide +kernel

theorem test_link_down :
    after (.pcieLinkDown 0 3) (waits.rset (Reg.pciPLink 0) 0x47)
      (fun t => decide (t.pcie.reqs = [] ∧ t.resp = .accessFault ∧ t.rget (Reg.pciPDropCount 0) = 3)) = true := by decide +kernel

/-! ### Ethernet -/

/-- A frame of 60 bytes for the address 0xFEEDFACE0001, with an EtherType for local experiments. -/
def frame : List Byte := [0xFE, 0xED, 0xFA, 0xCE, 0, 1, 2, 0, 0, 0, 0, 2, 0x88, 0xB5] ++ List.replicate 46 0xA5

/-- Port 3 is up; its queues 0 are enabled and have one descriptor each at the start of Tier B, with a buffer of 60 bytes
1 KiB on. -/
def portUp : State :=
  (put memUp ([(Reg.ethPCfg 3, 0x1001), (Reg.ethPStatus 3, 1)] ++ [true, false].flatMap fun tx =>
    [((queueRegs tx 3 0).lo + 4, 0x100), ((queueRegs tx 3 0).cfg, 0x24), ((queueRegs tx 3 0).tail, 1)])).writeBytes tierB0
    ([0, 4, 0, 0, 0, 1, 60, 0, 1] ++ List.replicate 23 0)

/-- The frame lies in the buffer. -/
def toSend : State := portUp.writeBytes (tierB0 + 1024) frame

/-- The descriptor. -/
def desc : List Byte := [0, 4, 0, 0, 0, 1, 60, 0, 1] ++ List.replicate 23 0

theorem witness_ethernet :
    (3 < 4 ∧ portUp.mainOn = true ∧ portUp.bit (Reg.ethPCfg 3) 0 = true ∧ portUp.bit (Reg.ethPStatus 3) 0 = true ∧
        60 ≤ frame.length ∧ frame.length ≤ 9212) ∧
      (headOf frame).rtag = none ∧ isPtp frame (headOf frame) = false ∧ portUp.frameStreams 3 frame (headOf frame) = [] ∧
      ((headOf frame).vlan.map fun x => x.1).getD 0 < 8 ∧
      (∀ tx, portUp.bit (queueRegs tx 3 0).cfg 5 = true ∧ isAfter (portUp.rget (queueRegs tx 3 0).tail) (portUp.rget (queueRegs tx 3 0).head) = true ∧
        portUp.descAddr (queueRegs tx 3 0) = tierB0 ∧ portUp.bit (queueRegs tx 3 0).cfg 4 = false) ∧
      portUp.readable tierB0 = true ∧ portUp.readable (tierB0 + 31) = true ∧ portUp.readBytes tierB0 32 = desc ∧
      descField desc 8 0 0 = 1 ∧ bytesToNat (desc.take 6) = tierB0 + 1024 ∧ frame.length = bytesToNat ((desc.drop 6).take 2) ∧
      portUp.longDenied .ethernet (tierB0 + 1024) 60 = none ∧ portUp.longDenied .ethernet tierB0 32 = none := by decide +kernel

theorem witness_ethernet_memory :
    portUp.Clean tierB0 32 ∧ portUp.Clean (tierB0 + 1024) 60 ∧ toSend.Clean tierB0 32 ∧ toSend.Clean (tierB0 + 1024) 60 :=
  ⟨clean_of (by decide +kernel), clean_of (by decide +kernel), clean_of (by decide +kernel), clean_of (by decide +kernel)⟩

/-- The queue is disabled, has no frame, or its descriptor is software's. -/
theorem witness_no_descriptor :
    noDesc memUp (queueRegs true 3 0) ∧ noDesc (portUp.rset (queueRegs true 3 0).tail 0) (queueRegs true 3 0) ∧
      noDesc (portUp.writeBytes (tierB0 + 8) [0]) (queueRegs false 3 0) := by
  refine ⟨.inl (by decide +kernel), .inr (.inl (by decide +kernel)), .inr (.inr ⟨⟨clean_of ?_, ?_, ?_⟩, ?_⟩)⟩ <;> decide +kernel

/-- No entry of the port's FRER table names the frame's address. -/
theorem witness_transmit :
    toSend.bit (Reg.ethPCfg 3) 0 = true ∧ toSend.readBytes tierB0 32 = desc ∧ toSend.mayDiscard 3 0 = false ∧
      (toSend.rset (Reg.ethGclCtrl 3) 2).mayDiscard 3 0 = true ∧ (toSend.rset (Reg.ethGclCtrl 3) 2).maySend 3 0 5 60 = false ∧
      toSend.maySend 3 0 5 60 = true ∧ oneStep frame (headOf frame) (withLatency 5 (toSend.rget (Reg.ethPTsLatTx 3)).toInt) = frame ∧
      toSend.readBytes (tierB0 + 1024) 60 = frame ∧ toSend.readable (tierB0 + 1024) = true ∧ toSend.readable (tierB0 + 1024 + 59) = true ∧
      descField desc 8 1 1 = 0 ∧ toSend.frerEntry 3 (headOf frame) Config.frerGenerates = none := by
  refine ⟨by decide +kernel, by decide +kernel, by decide +kernel, by decide +kernel, by decide +kernel, by decide +kernel,
    by decide +kernel, by decide +kernel, by decide +kernel, by decide +kernel, by decide +kernel, ?_⟩
  refine List.find?_eq_none.mpr fun e he => ?_
  have h : (List.range 64).all (fun e => !(toSend.frerDmac 3 e == (headOf frame).dmac)) = true := by decide +kernel
  have := List.all_eq_true.mp h e he
  simp_all

theorem test_frame_fills_its_buffer :
    after (.ethFrameReceive 3 frame true 0 5) portUp
      (fun t => decide (t.readBytes (tierB0 + 1024) 60 = frame ∧ t.readByte (tierB0 + 8) = 0 ∧ t.rget (queueRegs false 3 0).head = 1)) = true := by
  decide +kernel

theorem test_bad_check_sequence :
    after (.ethFrameReceive 3 frame false 0 5) portUp (fun t => decide (t.rget (Reg.ethFcsCount 3) = 1)) = true := by decide +kernel

theorem witness_ethernet_registers :
    up.Takes .steward (queueRegs true 3 7).tail 1 ∧ up.Takes .steward (queueRegs false 0 0).tail 1 ∧ up.mainOn = true :=
  ⟨takes (by decide +kernel), takes (by decide +kernel), by decide +kernel⟩

/-- Port 3 has a list of 2 entries that waits for the time 0, and the one that runs ends its entry at 0. -/
def gated (g : GateRun) : State := { up with field := { up.field with gates := [(3, g)] } }

theorem witness_gates :
    up.Takes .steward (Reg.ethGclCtrl 3) (0x104 ||| 1) ∧ up.bit (Reg.ethGclStatus 3) 1 = false ∧
      (up.flag (Reg.ethGclStatus 3) 1).Takes .steward (Reg.ethGclCtrl 3) (0x104 ||| 1) ∧
      (up.flag (Reg.ethGclStatus 3) 1).bit (Reg.ethGclStatus 3) 1 = true ∧ (up.gates 3).swap = none ∧
      ((gated ⟨0, 0, 0, 0, 0, some (0, 1000, 2)⟩).gates 3).swap = some (0, 1000, 2) ∧
      0 ≤ (gated ⟨0, 0, 0, 0, 0, some (0, 1000, 2)⟩).timeNs ∧
      (gated ⟨0, 0, 0, 0, 0, some (5, 1000, 2)⟩).timeNs < 5 ∧ ((gated ⟨0, 1000, 2, 0, 0, none⟩).gates 3).cycle ≠ 0 ∧
      ((gated ⟨0, 1000, 2, 0, 0, none⟩).gates 3).until_ ≤ (gated ⟨0, 1000, 2, 0, 0, none⟩).timeNs ∧
      ((gated ⟨0, 0, 2, 0, 0, none⟩).gates 3).cycle = 0 := by
  refine ⟨takes ?_, ?_, takes ?_, ?_, ?_, ?_, ?_, ?_, ?_, ?_, ?_⟩ <;> decide +kernel

theorem test_gate_list_swaps :
    after (.gclSwap 3) (gated ⟨0, 0, 0, 0, 0, some (0, 1000, 2)⟩)
      (fun t => decide (t.bit (Reg.ethGclStatus 3) 0 = true ∧ (t.gates 3).cycle = 1000 ∧ (t.gates 3).swap = none)) = true := by decide +kernel

/-! ### CAN FD, SPI, I²C and CSI-2 -/

/-- Port 1 counts 256 transmit errors: it is bus-off. -/
def busOff : State := up.putCan 1 { CanPort.idle with tec := 256 }

theorem witness_field_ports :
    (up.canPort 1).busOff = false ∧ (busOff.canPort 1).busOff = true ∧
      (up.canPort 1).tx ++ [(⟨5, false, false, []⟩ : CanFrame), ⟨4, false, false, []⟩] ≠ [] ∧ up.Takes .steward (Reg.ethSpiGo 5) 3 ∧
      up.spiStreaming 5 = false ∧ (∀ x ∈ up.field.spi, x.1 ≠ 5) ∧
      (put up [(Reg.ingStrSrc 39, 5), (Reg.ingStrStatus 39, 1), (Reg.ingStrCfg 39, 7)]).spiStreaming 5 = true ∧
      (put up [(Reg.ingStrSrc 39, 5), (Reg.ingStrStatus 39, 1), (Reg.ingStrCfg 39, 7)]).Takes .steward (Reg.ethSpiGo 5) 3 ∧
      (∃ v, (5, v) ∈ { up with field := { up.field with spi := [(5, 3)] } }.field.spi) ∧ up.Takes .steward (Reg.ethI2c 3 0) 0 ∧
      up.bit (Reg.ethCsiCfg 7) 8 = false ∧ (up.flag (Reg.ethCsiCfg 7) 8).bit (Reg.ethCsiCfg 7) 8 = true := by
  refine ⟨?_, ?_, ?_, takes ?_, ?_, ?_, ?_, takes ?_, ⟨3, ?_⟩, takes ?_, ?_, ?_⟩ <;> decide +kernel

theorem test_transmission_of_the_lower_identifier :
    after (.canFrameTransmit 1 [⟨5, false, false, []⟩, ⟨4, false, false, []⟩] true) up (fun t => decide ((t.canPort 1).tx = [⟨5, false, false, []⟩])) = true := by
  decide +kernel

theorem test_spi_transfer :
    after (.spiTransferDone 5 9) { up with field := { up.field with spi := [(5, 3)] } }
      (fun t => decide (t.rget (Reg.ethSpiData 5) = 9 ∧ t.field.spi = [])) = true := by decide +kernel

/-! ### Reset and every step -/

theorem test_step_takes_the_front :
    (match step { up with pending := [.buckleSet .steward 3 5 [], .restartEdge] } with
      | .next t => decide (t.buckle 3 = 5 ∧ t.pending = [.restartEdge])
      | _ => false) = true := by decide +kernel

/-- No word spells a command. -/
theorem test_no_word_spells_a_command : decodeTableWord 32 0x12345678 = none ∧ State.reset.withFetchWord 32 0 = State.reset := ⟨rfl, rfl⟩

/-- The fields of every register lie apart where they are asked for. -/
theorem witness_reset_fields :
    ∃ r, regRow Reg.sysResetCause = some r ∧ r.FieldsApart ∧ r.flds ≠ [] := ⟨_, rfl, ⟨by decide +kernel, by decide +kernel⟩, by decide +kernel⟩

theorem witness_reset_ranges : (1 : Nat) < 2 ∧ (127 : Nat) < 128 := by decide

theorem witness_sound_state : up.TxnsFit ∧ up.RegsOk ∧ up.MemOk ∧ step up = .next up :=
  ⟨fun n => by
      have h : up.txn n = State.reset.txn n := rfl
      rw [h]
      exact ⟨Nat.zero_le _, fun r hr => absurd hr (List.not_mem_nil)⟩,
    by unfold State.RegsOk SpWf; decide +kernel, ⟨by decide +kernel, fun _ hp => absurd hp List.not_mem_nil⟩, rfl⟩

/-! ### Ill-formed commands: one for each check, beside a well-formed one -/

/-- A flit of node 1 for node 0. -/
def okFlit : Flit := firstFlit 1 0 4 tierB0 [1, 2, 3, 4]

theorem test_wf_initiators :
    [Initiator.app 12, .caller 2, .tensor 2, .reflex 4].all (fun w => !w.wf) = true ∧
      [Initiator.app 11, .caller 1, .tensor 1, .reflex 3, .steward].all Initiator.wf = true := by decide

theorem test_wf_accesses :
    [Instr.registerWrite .steward (2 ^ 48) 0 0, .rcRegisterRead (.app 12) 0 0, .processorLoad (.app 0) (2 ^ 48) 4 [],
      .processorLoad (.app 0) 0 3 [], .processorLoad (.app 0) 0 4 [⟨4, .correctable⟩], .processorStore (.app 0) .data 0 16 0 [],
      .lrScAmo (.app 0) .sc 0 2 0 [], .fenceInstruction (.app 0) 16 0, .fenceInstruction (.app 0) 0 16,
      .cantleScrubPass false [⟨1, .correctable⟩], .trbScrubPass [⟨2, .correctable⟩], .stackThrottle 4 .current true,
      .pcieInboundRead 0 0 0 [], .pcieInboundWrite 2 0 [] [], .beat [⟨4, .correctable⟩] [] []].all (fun c => !c.wf) = true ∧
      [Instr.processorLoad (.app 0) (2 ^ 48 - 1) 8 [⟨8, .correctable⟩], .lrScAmo (.app 0) .sc 0 4 0 [], .fenceInstruction (.app 0) 15 15,
        .beat [] [] []].all Instr.wf = true := by decide

theorem test_wf_slots :
    [Instr.iomSwapRootHiWrite .steward 8 0 0 false, .iomSwapDone 8, .iotlbWalkComplete 2 0 0 false none, .iotlbWalkComplete 0 131072 0 false none,
      .iotlbWalkComplete 0 0 0 false (some 8), .iodirInvalPdt 2 0, .iodirInvalPdt 0 131072, .buckleSet .steward 16384 0 [],
      .buckleSet .steward 0 0 [⟨.app 12, false, 0, false⟩], .buckleAdd .steward 16384 0 [], .waitArm .steward 4 0 0 false,
      .waitArm .steward 0 64 0 false, .waitArm .steward 0 0 16384 false, .txnOpen .steward 64, .txnTimeout 64, .txnSnapGo .steward 256,
      .snapshotComplete 8].all (fun c => !c.wf) = true ∧
      [Instr.iomSwapDone 7, .buckleAdd .steward 16383 0 [], .waitArm .steward 3 63 16383 true, .txnOpen .steward 63,
        .txnSnapGo .steward 255].all Instr.wf = true := by decide

theorem test_wf_plane :
    [Instr.windowFill 2, .ringTailWrite .steward 2 0, .matmul 2, .streamCfgWrite .steward 256 0 0, .ringStopped 2].all (fun c => !c.wf) = true ∧
      [Instr.windowFill 1, .ringTailWrite .steward 1 0, .matmul 1, .streamCfgWrite .steward 255 0 0].all Instr.wf = true := by decide

theorem test_wf_time_and_streams :
    [Instr.triggerArmSet .steward 16 0, .captureEnqueue 16, .csi2FrameStart 8 0, .csi2FrameStart 0 4, .csi2Line 0 0 64 [] 0 false,
      .cameraTimeoutExpiry 40, .ethStreamPacket 4 0 0 0 0 [], .ethStreamPacket 0 0 0 0 1000000000 [], .audioSample 6 0 0 0 [],
      .tdmFsyncLoss 2, .frameDeliver 40, .qdrConfigWrite .steward 65536 0].all (fun c => !c.wf) = true ∧
      [Instr.triggerArmSet .steward 15 0, .csi2FrameStart 7 3, .frameDeliver 39].all Instr.wf = true := by decide

theorem test_wf_loops_and_motion :
    [Instr.loopSample 4 [], .loopOutputApply 128, .loopCfgWrite .steward 128 0 0, .loopCfgWrite .steward 0 256 0,
      .shadowStart .steward 5 0, .encoderIndex 16, .absFrameStart 8 0, .pwmPeriodStart 24, .limitRawChange 32 true,
      .axisCauseClear .steward 32 0, .uartRxPop .steward 4, .ssuGo .steward 8 0].all (fun c => !c.wf) = true ∧
      [Instr.loopOutputApply 127, .encoderIndex 15, .pwmPeriodStart 23, .limitRawChange 31 true, .ssuGo .steward 7 0].all Instr.wf = true := by
  decide

theorem test_wf_chain_and_chip :
    [Instr.sealUnseal .steward 16 0, .shzWrite 2 okFlit, .shzReplayTimeout 2, .shzE2eAckTimer 8, .shzLinkLeadExpiry 8, .shzReadTimeout 65536,
      .powerFault 8 false, .sysResetMain .steward 65536, .stwLoad .steward 16 0, .stwLoad .steward 0 16, .powerCapSelect .steward 8,
      .debugHaltRequest [] 0x1A none, .debugAccessRegister [] 0x18 (.gpr 32) none, .debugAccessRegister [] 0x18 (.csr 4096) none,
      .obpFiredClear .steward 4, .tlgCntSelWrite .steward 512 0, .pcieMsiWrite 2 0, .pcieCompletion 0 65536 .success 0,
      .ethFrameReceive 4 [] true 0 0, .ethQueueTailWrite .steward 0 true 8 0, .gclSwap 4, .csiNoClock 8,
      .canFrameReceive 2 ⟨0, false, false, []⟩ 0, .spiGo .steward 6 0, .i2cRecover .steward 4].all (fun c => !c.wf) = true ∧
      [Instr.sealUnseal .steward 15 0, .shzWrite 1 okFlit, .debugHaltRequest [] 0x23 none, .tlgCntSelWrite .steward 511 0,
        .ethQueueTailWrite .steward 3 true 7 0].all Instr.wf = true := by decide

theorem test_wf_flits :
    [{ okFlit with gen := 16 }, { okFlit with typ := 16 }, { okFlit with src := 8 }, { okFlit with dst := 8 }, { okFlit with seq := 4096 },
      { okFlit with ack := 4096 }, { okFlit with op := 256 }, { okFlit with e2e := 65536 }, { okFlit with tag := 65536 },
      { okFlit with dstEpoch := 65536 }, { okFlit with srcEpoch := 65536 }, { okFlit with len := 97 },
      { okFlit with len := 3 }, { okFlit with addr := 2 ^ 48 }].all (fun f => !f.wf) = true ∧ okFlit.wf = true := by decide

end Sys2Proof.Tests
end

namespace Sys2Proof.Proofs.Atomics

open Sys2Proof Sys2Proof.Machine

theorem exec_lrScAmo (s : State) (who : Initiator) (op : AtomicOp) (a size v : Nat) (found : List ErrFinding) :
    exec (.lrScAmo who op a size v found) s = .next (s.atomic who op a size v found) := rfl

/-- Where the region is not Tier B, the first check refuses the access: no waiting store is drained, no reservation is taken
or given up, and the operands play no part (R50). -/
theorem atomic_of_not_tierB (s : State) (who : Initiator) (op : AtomicOp) (a size v : Nat) (found : List ErrFinding)
    (ha : regionOf a ≠ .tierB) : s.atomic who op a size v found = s.respond .accessFault := by
  have refused : (!isProcessor who || decide (regionOf a ≠ .tierB) || !(size = 4 || size = 8) || decide (a % size ≠ 0)) = true := by
    simp [ha]
  unfold State.atomic
  exact if_pos refused

/-- Settles O5: the region check of the atomic access comes before anything that changes the state. -/
theorem atomicsNeedTierB : Obligations.AtomicsNeedTierB := by
  intro s who op a size v found ha
  rw [exec_lrScAmo, atomic_of_not_tierB s who op a size v found ha]

end Sys2Proof.Proofs.Atomics

namespace Sys2Proof.Proofs.DirectWrites

open Sys2Proof Sys2Proof.Machine

/-! ### A counted bypass attempt (R20, R536) -/

theorem onlyRegs_countBypass (s : State) : State.OnlyRegs s s.countBypass :=
  ((State.regsOnly_bump s _ _).trans (State.regsOnly_flag _ _ _)).only

theorem rget_bypassCount_countBypass (s : State) :
    s.countBypass.rget Reg.cinBypassCount = s.rget Reg.cinBypassCount + 1 := by
  have notCounter : ¬ isEventCounter Reg.cinBypassCount := by unfold isEventCounter; decide
  unfold State.countBypass
  rw [State.rget_flag_ne _ _ (by decide), State.rget_bump _ _ _ notCounter, if_pos rfl]
  rfl

theorem bit_cinStatus_countBypass (s : State) : s.countBypass.bit Reg.cinStatus 6 = true := by
  unfold State.countBypass
  rw [State.bit_flag _ _ _ _ _ (by decide), if_pos ⟨rfl, rfl⟩]

theorem sameRegsBut_countBypass (s : State) :
    State.SameRegsBut s s.countBypass fun a => a = Reg.cinBypassCount ∨ a = Reg.cinStatus :=
  State.sameRegsBut_trans (State.sameRegsBut_bump s 1 (.inl rfl)) (State.sameRegsBut_rset _ _ (.inr rfl))

/-! ### REGISTER_WRITE as a direct write -/

/-- A committed register keeps its value, and an address without a register has none to lose: either way the write is
answered DONE. -/
theorem softWrite_committed_or_hole {s : State} {who : Initiator} {a : Nat} {v : Word} (hr : s.reachable a = true)
    (hp : s.regPermits who a v = true) (hf : isTrusted who = true ∨ s.vouched a = false)
    (hc : s.committed.contains a = true) (act : State → Word → State) :
    s.softWrite who a v act = s.respond .done := by
  cases hrow : regRow a with
  | none => exact State.softWrite_hole hr hrow who v act
  | some r => exact State.softWrite_committed hr (by rw [hrow]; rfl) hp hf hc act

theorem hwBits_zero (a : Nat) : hwBits a 0 = 0 := by
  unfold hwBits
  cases regRow a <;> simp

theorem hwBits_hole {a : Nat} (h : regRow a = none) (hw : Word) : hwBits a hw = 0 := by
  unfold hwBits
  rw [h]

/-- Where hardware sets no bit of the register in the cycle, REGISTER_WRITE takes the one path of direct writes. -/
theorem exec_registerWrite_of_hwBits_zero {s : State} {a : Nat} {hw : Word} (hb : inBlock a = true) (ha : a % 4 = 0)
    (hr : s.reachable a = true) (h : hwBits a hw = 0) (who : Initiator) (v : Word) :
    exec (.registerWrite who a v hw) s = .next (s.softWrite who a v fun s v => s.blockWrite who a v) := by
  have keepsValue : v &&& ~~~((0 : Word) &&& s.rget a) = v := by
    rw [show ~~~((0 : Word) &&& s.rget a) = BitVec.allOnes 32 from congrArg _ BitVec.zero_and, BitVec.and_allOnes]
  have noneRises : (0 : Word) &&& ~~~s.rget a = 0 := BitVec.zero_and
  show execRegisterWrite who a v hw s = _
  unfold execRegisterWrite State.regStore
  simp only [hb, hr, ha, h, keepsValue, noneRises, Bool.and_self, Bool.not_true, ne_eq, not_true_eq_false, decide_false,
    Bool.or_self, Bool.false_eq_true, ↓reduceIte]

/-- Settles O2: each row of the table is a direct write, and each clause is one refusal of the path of direct writes. -/
theorem refusedRegisterWritesHaveNoEffect : Obligations.RefusedRegisterWritesHaveNoEffect := by
  refine ⟨fun c s who a v hw => ?_, fun s who a v hw hb ha hr => ⟨fun hp hf hc => ?_, fun hrow => ?_⟩⟩
  · obtain ⟨act, hexec⟩ := writeOf_exec hw
    rw [hexec]
    refine ⟨fun hr => ?_, fun hr hn hp => ?_, fun hr hn hp hu hv => ?_, fun hr hp hf hc => ?_⟩
    · rw [State.softWrite_unreachable hr]
    · rw [State.softWrite_denied hr hn hp]
    · rw [State.softWrite_vouched hr hn hp hu hv]
      exact ⟨_, rfl, rfl, rget_bypassCount_countBypass s, bit_cinStatus_countBypass s,
        (onlyRegs_countBypass s).trans (State.onlyRegs_respond _ _), sameRegsBut_countBypass s⟩
    · rw [softWrite_committed_or_hole hr hp hf hc]
  · rw [exec_registerWrite_of_hwBits_zero hb ha hr (hwBits_zero a), softWrite_committed_or_hole hr hp hf hc]
    exact ⟨_, rfl, rfl, State.onlyRegs_respond s _, fun b => State.rget_respond s _ b⟩
  · rw [exec_registerWrite_of_hwBits_zero hb ha hr (hwBits_hole hrow hw), State.softWrite_hole hr hrow]

end Sys2Proof.Proofs.DirectWrites

namespace Sys2Proof.Proofs.WaitSlots

open Sys2Proof Sys2Proof.Machine

/-! ### The registers of a wait slot -/

theorem waitCfg_ne_status (k w : Nat) : Reg.bklWaitCfg k w ≠ Reg.bklWaitStatus k w := by
  unfold Reg.bklWaitCfg Reg.bklWaitStatus; omega

theorem waitTarget_ne_status (k w : Nat) : Reg.bklWaitTarget k w ≠ Reg.bklWaitStatus k w := by
  unfold Reg.bklWaitTarget Reg.bklWaitStatus; omega

theorem waitCfg_ne_target (k w : Nat) : Reg.bklWaitCfg k w ≠ Reg.bklWaitTarget k w := by
  unfold Reg.bklWaitCfg Reg.bklWaitTarget; omega

theorem bkl_ne_waitCfg (b k : Nat) {w : Nat} (hw : w < 64) : Reg.bkl b ≠ Reg.bklWaitCfg k w := by
  unfold Reg.bkl Reg.bklWaitCfg; omega

theorem bkl_ne_waitTarget (b k : Nat) {w : Nat} (hw : w < 64) : Reg.bkl b ≠ Reg.bklWaitTarget k w := by
  unfold Reg.bkl Reg.bklWaitTarget; omega

theorem bkl_ne_waitStatus (b k : Nat) {w : Nat} (hw : w < 64) : Reg.bkl b ≠ Reg.bklWaitStatus k w := by
  unfold Reg.bkl Reg.bklWaitStatus; omega

theorem waitStatus_not_counter (k : Nat) {w : Nat} (hw : w < 64) : ¬ isEventCounter (Reg.bklWaitStatus k w) := by
  unfold isEventCounter Reg.bklWaitStatus; omega

/-- BKL_WAITw_CFG in the register map. -/
def waitCfgRow : RegRow :=
  ⟨"BKL_WAIT_CFG", 0x10018000, [(0x10000, 4), (0x10, 64)], [⟨13, 0, .rw, 0⟩, ⟨16, 16, .wo, 0⟩, ⟨17, 17, .rw, 0⟩]⟩

theorem waitCfgRow_fieldsApart : waitCfgRow.FieldsApart := by
  unfold RegRow.FieldsApart waitCfgRow
  decide

theorem blockIndex_waitCfg {k w : Nat} (hk : k < 4) (hw : w < 64) : blockIndex (Reg.bklWaitCfg k w) = k + 1 := by
  unfold blockIndex inRegSpace Reg.bklWaitCfg
  simp only [Bool.and_eq_true, Nat.ble_eq]
  split <;> omega

theorem blockTable_bkl {k : Nat} (hk : k < 4) : blockTable (k + 1) = some tabBkl := by
  unfold blockTable
  rw [if_neg (by omega), if_pos (by omega)]

/-- The members of an array of arrays of registers. -/
theorem hits_twoDims (name : String) (base st c st' c' : Nat) (flds : List Fld) (a : Nat) :
    RegRow.hits ⟨name, base, [(st, c), (st', c')], flds⟩ a = true ↔
      base ≤ a ∧ (a - base) / st < c ∧ (a - base) % st / st' < c' ∧ (a - base) % st % st' = 0 := by
  simp [RegRow.hits, inDims]

theorem regRow_waitCfg {k w : Nat} (hk : k < 4) (hw : w < 64) : regRow (Reg.bklWaitCfg k w) = some waitCfgRow := by
  have beyondBuckles : ∀ name base flds, base = 0x10010000 ∨ base = 0x10014000 →
      ¬ RegRow.hits ⟨name, base, [(0x10000, 4), (0x4, 4096)], flds⟩ (Reg.bklWaitCfg k w) = true := by
    intro name base flds hbase
    rw [hits_twoDims]
    unfold Reg.bklWaitCfg
    omega
  have isMember : waitCfgRow.hits (Reg.bklWaitCfg k w) = true := by
    refine (hits_twoDims _ _ _ _ _ _ _ _).mpr ?_
    unfold Reg.bklWaitCfg
    omega
  unfold regRow
  rw [blockIndex_waitCfg hk hw, blockTable_bkl hk]
  show List.find? (fun r => r.hits (Reg.bklWaitCfg k w)) (_ :: _ :: waitCfgRow :: _) = _
  rw [List.find?_cons_of_neg, List.find?_cons_of_neg, List.find?_cons_of_pos]
  · exact isMember
  · exact beyondBuckles _ _ _ (.inr rfl)
  · exact beyondBuckles _ _ _ (.inl rfl)

/-! ### What the writes of a wait slot do -/

/-- A write of BKL_WAITw_CFG by its fields' types changes that register only. -/
theorem putRw_waitCfg {k w : Nat} (hk : k < 4) (hw : w < 64) (s : State) (v : Word) :
    s.putRw (Reg.bklWaitCfg k w) v =
      s.rset (Reg.bklWaitCfg k w) (writtenWord waitCfgRow (s.rget (Reg.bklWaitCfg k w)) v 0) := by
  unfold State.putRw State.putTyped
  rw [regRow_waitCfg hk hw]

/-- BUCKLE and EQUAL of BKL_WAITw_CFG take what is written. -/
theorem bitOf_writtenWaitCfg (old v : Word) {i : Nat} (hi : i ≤ 13 ∨ i = 17) :
    bitOf (writtenWord waitCfgRow old v 0) i = bitOf v i := by
  rcases hi with hi | rfl
  · exact bitOf_writtenWord waitCfgRow_fieldsApart (f := ⟨13, 0, .rw, 0⟩) (by decide) ⟨Nat.zero_le i, hi⟩ old v 0
  · exact bitOf_writtenWord waitCfgRow_fieldsApart (f := ⟨17, 17, .rw, 0⟩) (by decide) ⟨le_rfl, le_rfl⟩ old v 0

theorem fieldOf_writtenWaitCfg (old v : Word) :
    fieldOf (writtenWord waitCfgRow old v 0) 13 0 = fieldOf v 13 0 :=
  fieldOf_congr fun _ _ hi => bitOf_writtenWaitCfg old v (.inl hi)

theorem b2n_le_one (x : Bool) : b2n x ≤ 1 := by cases x <;> decide

theorem toNat_waitCfgWord (b : Nat) (arm equal : Bool) :
    (waitCfgWord b arm equal).toNat = b % 16384 + 65536 * b2n arm + 131072 * b2n equal := by
  unfold waitCfgWord toWord
  rw [BitVec.toNat_ofNat]
  have := b2n_le_one arm
  have := b2n_le_one equal
  omega

theorem fieldOf_waitCfgWord {b : Nat} (hb : b < 16384) (arm equal : Bool) :
    fieldOf (waitCfgWord b arm equal) 13 0 = b := by
  unfold fieldOf
  rw [toNat_waitCfgWord]
  omega

theorem bitOf_eq_decide (w : Word) (i : Nat) : bitOf w i = decide (w.toNat / 2 ^ i % 2 = 1) :=
  Nat.testBit_eq_decide_div_mod_eq

theorem bitOf_arm_waitCfgWord (b : Nat) (arm equal : Bool) : bitOf (waitCfgWord b arm equal) 16 = arm := by
  rw [bitOf_eq_decide, toNat_waitCfgWord]
  cases arm <;> cases equal <;> simp [b2n] <;> omega

theorem bitOf_equal_waitCfgWord (b : Nat) (arm equal : Bool) : bitOf (waitCfgWord b arm equal) 17 = equal := by
  rw [bitOf_eq_decide, toNat_waitCfgWord]
  cases arm <;> cases equal <;> simp [b2n] <;> omega

/-- Is the wait of this slot satisfied, with the slot as it stands (R100). -/
def slotSatisfied (s : State) (k w : Nat) : Bool :=
  waitSatisfied (s.bit (Reg.bklWaitCfg k w) 17) (s.buckle (s.fget (Reg.bklWaitCfg k w) 13 0))
    (s.rget (Reg.bklWaitTarget k w))

/-- A slot after its evaluation: HIT alone where it was armed and is satisfied, else as it was (R100, R103). -/
theorem rget_status_evalSlot (s : State) (k w : Nat) :
    (s.evalSlot k w).rget (Reg.bklWaitStatus k w) =
      if s.bit (Reg.bklWaitStatus k w) 0 = true ∧ slotSatisfied s k w = true then 2
      else s.rget (Reg.bklWaitStatus k w) := by
  show (if (s.bit (Reg.bklWaitStatus k w) 0 && slotSatisfied s k w) = true then
    s.rset (Reg.bklWaitStatus k w) 2 else s).rget (Reg.bklWaitStatus k w) = _
  simp only [Bool.and_eq_true]
  split
  · exact State.rget_rset_same s _ _
  · rfl

/-- A slot after the evaluation of the slots that watch buckle b (R100, R102). -/
theorem rget_status_evalSlotFor (s : State) (b : Nat) {k w : Nat} (hw : w < 64) :
    (s.evalSlotFor b (64 * k + w)).rget (Reg.bklWaitStatus k w) =
      if s.bit (Reg.bklWaitStatus k w) 0 = true ∧ s.fget (Reg.bklWaitCfg k w) 13 0 = b ∧
          waitSatisfied (s.bit (Reg.bklWaitCfg k w) 17) (s.buckle b) (s.rget (Reg.bklWaitTarget k w)) = true
      then 2 else s.rget (Reg.bklWaitStatus k w) := by
  have block : (64 * k + w) / 64 = k := by omega
  have slot : (64 * k + w) % 64 = w := by omega
  unfold State.evalSlotFor
  rw [block, slot]
  by_cases watches : s.fget (Reg.bklWaitCfg k w) 13 0 = b
  · rw [if_pos watches, rget_status_evalSlot]
    simp only [slotSatisfied, watches, true_and]
  · rw [if_neg watches, if_neg fun h => watches h.2.1]

/-! ### A signal evaluates the waits of its buckle -/

/-- A command without other signals of its cycle takes nothing back. -/
theorem groupsOfCycle_nil (b : Nat) (es : List Landed) : groupsOfCycle b es [] = 0 := by
  induction es with
  | nil => rfl
  | cons e es ih =>
    unfold groupsOfCycle
    split
    · exact ih
    · cases e.sigs <;> rfl

theorem lastSets_singleton (who : Initiator) (v : Word) (commit : Bool) :
    lastSets [⟨who, true, v, commit⟩] = [⟨who, true, v, commit⟩] := by
  simp [lastSets]

/-- A lone set that may act gives its buckle the value. -/
theorem signalWrite_set {s : State} {who : Initiator} {b : Nat} (v : Word) (hm : s.mainOn = true)
    (ht : isTrusted who = true ∨ isProtected b = false) :
    s.signalWrite b ⟨who, true, v, false⟩ [] = s.land b v [⟨who, true, v, false⟩] := by
  have allowed : ∀ g ∈ [Signal.mk who true v false], s.signalAllowed b g = true := by
    intro g hg
    rw [List.mem_singleton.mp hg]
    unfold State.signalAllowed
    rcases ht with h | h <;> simp [hm, h]
  show (if (!isTrusted who && isProtected b) = true then _ else (s.takeBackAll b (groupsOfCycle b s.landed [])).signalAll b
    [Signal.mk who true v false]) = _
  rw [if_neg (by rcases ht with h | h <;> simp [h]), groupsOfCycle_nil, State.takeBackAll_zero,
    State.signalAll_allowed s b _ (List.cons_ne_nil _ _) allowed]
  have lone : s.lastSetValue (s.buckle b) [Signal.mk who true v false] = (v, s) := by
    unfold State.lastSetValue
    rw [lastSets_singleton]
  rw [lone, show sumAdds [Signal.mk who true v false] = 0 from rfl]
  exact congrArg (s.land b · _) (add_zero v)

/-- STATUS of a slot after the buckle b took a value: HIT alone where it was armed, watches b and is satisfied by the
value (R100, R102). -/
theorem rget_status_putBuckle (s : State) (b : Nat) (v : Word) {k w : Nat} (hk : k < 4) (hw : w < 64) :
    (s.putBuckle b v).rget (Reg.bklWaitStatus k w) =
      if s.bit (Reg.bklWaitStatus k w) 0 = true ∧ s.fget (Reg.bklWaitCfg k w) 13 0 = b ∧
          waitSatisfied (s.bit (Reg.bklWaitCfg k w) 17) v (s.rget (Reg.bklWaitTarget k w)) = true
      then 2 else s.rget (Reg.bklWaitStatus k w) := by
  have notGolden : Reg.bklWaitStatus k w ≠ Reg.calGoldenStatus ∧ Reg.bklWaitStatus k w ≠ Reg.calGoldenMissedCount := by
    unfold Reg.bklWaitStatus Reg.calGoldenStatus Reg.calGoldenMissedCount; omega
  unfold State.putBuckle
  rw [State.goldenArm_regs _ _ _ (waitStatus_not_counter k hw) notGolden.1 notGolden.2, State.rget_evalWaits _ hk hw,
    rget_status_evalSlotFor _ b hw]
  have cfg := State.rget_rset_ne s v (bkl_ne_waitCfg b k hw)
  have target := State.rget_rset_ne s v (bkl_ne_waitTarget b k hw)
  have status := State.rget_rset_ne s v (bkl_ne_waitStatus b k hw)
  have value : (s.rset (Reg.bkl b) v).buckle b = v := State.rget_rset_same s _ v
  unfold State.bit State.fget
  rw [cfg, target, status, value]

/-! ### WAIT_ARM, WAIT_DISARM and WAIT_TARGET_WRITE -/

/-- The state once a write of CFG has put the slot's word and its ARMED bit; an arm evaluates the slot from here (R103). -/
def cfgWritten (s : State) (k w : Nat) (v : Word) (armed : Bool) : State :=
  (s.rset (Reg.bklWaitCfg k w) (writtenWord waitCfgRow (s.rget (Reg.bklWaitCfg k w)) v 0)).bput (Reg.bklWaitStatus k w) 0
    armed

theorem waitCfgWrite_eq (s : State) {k w : Nat} (hk : k < 4) (hw : w < 64) (v : Word) :
    s.waitCfgWrite k w v =
      if bitOf v 16 = true then (cfgWritten s k w v true).evalSlot k w else cfgWritten s k w v false := by
  unfold State.waitCfgWrite cfgWritten
  rw [putRw_waitCfg hk hw]

section
variable (s : State) (k w : Nat) (v : Word) (armed : Bool)

theorem rget_cfg_cfgWritten : (cfgWritten s k w v armed).rget (Reg.bklWaitCfg k w) =
    writtenWord waitCfgRow (s.rget (Reg.bklWaitCfg k w)) v 0 := by
  unfold cfgWritten
  rw [State.rget_bput_ne _ _ _ (waitCfg_ne_status k w).symm, State.rget_rset_same]

theorem fget_cfg_cfgWritten : (cfgWritten s k w v armed).fget (Reg.bklWaitCfg k w) 13 0 = fieldOf v 13 0 := by
  unfold State.fget
  rw [rget_cfg_cfgWritten, fieldOf_writtenWaitCfg]

theorem bit_cfg_cfgWritten : (cfgWritten s k w v armed).bit (Reg.bklWaitCfg k w) 17 = bitOf v 17 := by
  unfold State.bit
  rw [rget_cfg_cfgWritten, bitOf_writtenWaitCfg _ _ (.inr rfl)]

theorem bit_armed_cfgWritten : (cfgWritten s k w v armed).bit (Reg.bklWaitStatus k w) 0 = armed := by
  unfold cfgWritten
  rw [State.bit_bput _ _ _ _ _ _ (by decide), if_pos ⟨rfl, rfl⟩]

theorem bit_hit_cfgWritten :
    (cfgWritten s k w v armed).bit (Reg.bklWaitStatus k w) 1 = s.bit (Reg.bklWaitStatus k w) 1 := by
  unfold cfgWritten
  rw [State.bit_bput _ _ _ _ _ _ (by decide), if_neg (by simp)]
  unfold State.bit
  rw [State.rget_rset_ne _ _ (waitCfg_ne_status k w)]

theorem rget_cfgWritten_ne {a : Nat} (hc : a ≠ Reg.bklWaitCfg k w) (hs : a ≠ Reg.bklWaitStatus k w) :
    (cfgWritten s k w v armed).rget a = s.rget a := by
  unfold cfgWritten
  rw [State.rget_bput_ne _ _ _ hs.symm, State.rget_rset_ne _ _ hc.symm]

theorem regsOnly_cfgWritten : State.RegsOnly s (cfgWritten s k w v armed) :=
  (State.regsOnly_rset s _ _).trans (State.regsOnly_bput _ _ _ _)

/-- With CFG written, the slot waits for the buckle and in the mode that the word names. -/
theorem slotSatisfied_cfgWritten (hw : w < 64) : slotSatisfied (cfgWritten s k w v armed) k w =
    waitSatisfied (bitOf v 17) (s.buckle (fieldOf v 13 0)) (s.rget (Reg.bklWaitTarget k w)) := by
  unfold slotSatisfied State.buckle
  rw [bit_cfg_cfgWritten, fget_cfg_cfgWritten,
    rget_cfgWritten_ne _ _ _ _ _ (bkl_ne_waitCfg _ k hw) (bkl_ne_waitStatus _ k hw),
    rget_cfgWritten_ne _ _ _ _ _ (waitCfg_ne_target k w).symm (waitTarget_ne_status k w)]

end

theorem waitCfgWrite_arm (s : State) {k w : Nat} (hk : k < 4) (hw : w < 64) (b : Nat) (eq : Bool) :
    s.waitCfgWrite k w (waitCfgWord b true eq) = (cfgWritten s k w (waitCfgWord b true eq) true).evalSlot k w := by
  rw [waitCfgWrite_eq s hk hw, if_pos (bitOf_arm_waitCfgWord b true eq)]

theorem waitCfgWrite_disarm (s : State) {k w : Nat} (hk : k < 4) (hw : w < 64) (b : Nat) (eq : Bool) :
    s.waitCfgWrite k w (waitCfgWord b false eq) = cfgWritten s k w (waitCfgWord b false eq) false := by
  rw [waitCfgWrite_eq s hk hw, if_neg (by rw [bitOf_arm_waitCfgWord]; decide)]

/-- A slot after it was armed: HIT alone where it is satisfied at once, else ARMED beside the old HIT (R103). -/
theorem rget_status_waitCfgWrite_arm (s : State) {k w b : Nat} (hk : k < 4) (hw : w < 64) (hb : b < 16384) (eq : Bool) :
    (s.waitCfgWrite k w (waitCfgWord b true eq)).rget (Reg.bklWaitStatus k w) =
      if waitSatisfied eq (s.buckle b) (s.rget (Reg.bklWaitTarget k w)) = true then 2
      else (cfgWritten s k w (waitCfgWord b true eq) true).rget (Reg.bklWaitStatus k w) := by
  rw [waitCfgWrite_arm s hk hw, rget_status_evalSlot, bit_armed_cfgWritten, slotSatisfied_cfgWritten _ _ _ _ _ hw,
    bitOf_equal_waitCfgWord, fieldOf_waitCfgWord hb]
  simp only [true_and]

/-- The evaluation that ends an arm leaves CFG as it was written. -/
theorem rget_cfg_waitCfgWrite_arm (s : State) {k w : Nat} (hk : k < 4) (hw : w < 64) (b : Nat) (eq : Bool) :
    (s.waitCfgWrite k w (waitCfgWord b true eq)).rget (Reg.bklWaitCfg k w) =
      (cfgWritten s k w (waitCfgWord b true eq) true).rget (Reg.bklWaitCfg k w) := by
  rw [waitCfgWrite_arm s hk hw, State.rget_evalSlot_ne _ (waitCfg_ne_status k w)]

theorem regsOnly_waitCfgWrite (s : State) {k w : Nat} (hk : k < 4) (hw : w < 64) (v : Word) :
    State.RegsOnly s (s.waitCfgWrite k w v) := by
  rw [waitCfgWrite_eq s hk hw]
  exact State.regsOnly_ite _ _ ((regsOnly_cfgWritten s k w v true).trans (State.regsOnly_evalSlot _ k w))
    (regsOnly_cfgWritten s k w v false)

theorem sameRegsBut_waitCfgWrite (s : State) {k w : Nat} (hk : k < 4) (hw : w < 64) (v : Word) :
    State.SameRegsBut s (s.waitCfgWrite k w v) fun a => a = Reg.bklWaitCfg k w ∨ a = Reg.bklWaitStatus k w := by
  intro a ha _
  obtain ⟨hc, hs⟩ := not_or.mp ha
  rw [waitCfgWrite_eq s hk hw]
  split
  · rw [State.rget_evalSlot_ne _ hs, rget_cfgWritten_ne _ _ _ _ _ hc hs]
  · exact rget_cfgWritten_ne _ _ _ _ _ hc hs

/-- With a new TARGET, the slot waits for that value. -/
theorem slotSatisfied_rset_target (s : State) (k : Nat) {w : Nat} (hw : w < 64) (v : Word) :
    slotSatisfied (s.rset (Reg.bklWaitTarget k w) v) k w =
      waitSatisfied (s.bit (Reg.bklWaitCfg k w) 17) (s.buckle (s.fget (Reg.bklWaitCfg k w) 13 0)) v := by
  unfold slotSatisfied State.bit State.fget State.buckle
  rw [State.rget_rset_same, State.rget_rset_ne _ _ (waitCfg_ne_target k w).symm,
    State.rget_rset_ne _ _ (bkl_ne_waitTarget _ k hw).symm]

/-- A slot after a new TARGET: HIT alone where it was armed and is satisfied at once (R104). -/
theorem rget_status_waitTargetWrite (s : State) (k : Nat) {w : Nat} (hw : w < 64) (v : Word) :
    (s.waitTargetWrite k w v).rget (Reg.bklWaitStatus k w) =
      if s.bit (Reg.bklWaitStatus k w) 0 = true ∧
          waitSatisfied (s.bit (Reg.bklWaitCfg k w) 17) (s.buckle (s.fget (Reg.bklWaitCfg k w) 13 0)) v = true
      then 2 else s.rget (Reg.bklWaitStatus k w) := by
  unfold State.waitTargetWrite
  rw [rget_status_evalSlot, slotSatisfied_rset_target s k hw]
  unfold State.bit
  rw [State.rget_rset_ne s v (waitTarget_ne_status k w)]

theorem rget_target_waitTargetWrite (s : State) (k w : Nat) (v : Word) :
    (s.waitTargetWrite k w v).rget (Reg.bklWaitTarget k w) = v := by
  unfold State.waitTargetWrite
  rw [State.rget_evalSlot_ne _ (waitTarget_ne_status k w), State.rget_rset_same]

theorem regsOnly_waitTargetWrite (s : State) (k w : Nat) (v : Word) : State.RegsOnly s (s.waitTargetWrite k w v) :=
  (State.regsOnly_rset s _ v).trans (State.regsOnly_evalSlot _ k w)

theorem sameRegsBut_waitTargetWrite (s : State) (k w : Nat) (v : Word) :
    State.SameRegsBut s (s.waitTargetWrite k w v) fun a => a = Reg.bklWaitTarget k w ∨ a = Reg.bklWaitStatus k w := by
  intro a ha _
  obtain ⟨ht, hs⟩ := not_or.mp ha
  unfold State.waitTargetWrite
  rw [State.rget_evalSlot_ne _ hs, State.rget_rset_ne _ _ (Ne.symm ht)]

/-- A row whose operands name a register that takes the write goes to the register's own rule. -/
theorem named_softWrite_takes {p : Prop} [Decidable p] (hp : p) {s : State} {who : Initiator} {a : Nat} {v : Word}
    (h : s.Takes who a v) (act : State → Word → State) :
    s.named (decide p) (s.softWrite who a v act) = .next (act (s.respond .done) v) := by
  rw [named_next hp, State.softWrite_takes h]

/-- Writes of registers keep the response that the write was given. -/
theorem resp_of_regsOnly {s t : State} (h : State.RegsOnly s t) : t.resp = s.resp := by
  unfold State.RegsOnly at h
  rw [h]

/-! ### The obligation -/

theorem signalsEvaluateTheWaits : Claims.SignalsEvaluateTheWaits := by
  intro s who b k w v hb hm htakes htrust hk hw
  have lands := signalWrite_set (s := s.respond .done) v hm htrust
  refine ⟨(s.respond .done).signalWrite b ⟨who, true, v, false⟩ [], named_softWrite_takes hb htakes _, ?_⟩
  rw [lands, State.rget_land]
  exact rget_status_putBuckle (s.respond .done) b v hk hw

theorem waitSlotsFollowTheirWrites : Claims.WaitSlotsFollowTheirWrites := by
  refine ⟨fun s who k w b eq hk hw hb htakes => ?arm, fun s who k w b eq hk hw htakes => ?disarm,
    fun s who k w v hk hw htakes => ?target⟩
  case arm =>
    have only := regsOnly_waitCfgWrite (s.respond .done) hk hw (waitCfgWord b true eq)
    have cfg := rget_cfg_waitCfgWrite_arm (s.respond .done) hk hw b eq
    have status := rget_status_waitCfgWrite_arm (s.respond .done) hk hw hb eq
    refine ⟨(s.respond .done).waitCfgWrite k w (waitCfgWord b true eq),
      named_softWrite_takes ⟨hk, hw⟩ htakes _, resp_of_regsOnly only, ?_, ?_, fun h => status.trans (if_pos h), fun h => ?_,
      (State.onlyRegs_respond s .done).trans only.only, sameRegsBut_waitCfgWrite _ hk hw _⟩
    · exact (congrArg (fieldOf · 13 0) cfg).trans ((fget_cfg_cfgWritten _ k w _ true).trans (fieldOf_waitCfgWord hb true eq))
    · exact (congrArg (bitOf · 17) cfg).trans ((bit_cfg_cfgWritten _ k w _ true).trans (bitOf_equal_waitCfgWord b true eq))
    · have kept := status.trans (if_neg (ne_true_of_eq_false h))
      exact ⟨(congrArg (bitOf · 0) kept).trans (bit_armed_cfgWritten _ k w _ true),
        (congrArg (bitOf · 1) kept).trans (bit_hit_cfgWritten _ k w _ true)⟩
  case disarm =>
    have only := regsOnly_waitCfgWrite (s.respond .done) hk hw (waitCfgWord b false eq)
    refine ⟨(s.respond .done).waitCfgWrite k w (waitCfgWord b false eq),
      named_softWrite_takes ⟨hk, hw⟩ htakes _, resp_of_regsOnly only, ?_, ?_,
      (State.onlyRegs_respond s .done).trans only.only, sameRegsBut_waitCfgWrite _ hk hw _⟩
    · rw [waitCfgWrite_disarm _ hk hw, bit_armed_cfgWritten]
    · rw [waitCfgWrite_disarm _ hk hw, bit_hit_cfgWritten]
      rfl
  case target =>
    have only := regsOnly_waitTargetWrite (s.respond .done) k w v
    exact ⟨(s.respond .done).waitTargetWrite k w v,
      named_softWrite_takes ⟨hk, hw⟩ htakes _, resp_of_regsOnly only, rget_target_waitTargetWrite _ k w v,
      rget_status_waitTargetWrite (s.respond .done) k hw v, (State.onlyRegs_respond s .done).trans only.only,
      sameRegsBut_waitTargetWrite _ k w v⟩

/-- Settles O8: a signal and the writes of a slot end in the evaluation of the slot, or in its disarm, and
`rget_status_evalSlot` says what STATUS then holds. -/
theorem waitSlotsAreEvaluated : Obligations.WaitSlotsAreEvaluated :=
  ⟨signalsEvaluateTheWaits, waitSlotsFollowTheirWrites⟩

end Sys2Proof.Proofs.WaitSlots
